-- ==== Sys2Proof/Word.lean ====
section
/-! DEFINITION. The word types of the block and the bounded names its units are numbered by (R7, R8, R42). -/

namespace Sys2Proof

abbrev Byte := BitVec 8
abbrev Word16 := BitVec 16
abbrev Word32 := BitVec 32
abbrev Word64 := BitVec 64

/-- One v register of a group: the word of each of the 64 threads (R102, R103). -/
abbrev Row := Vector Word32 64

/-- A logical tile, 0 to 47 (R7). -/
abbrev TileId := Fin 48
/-- A vector core of a tile (R102). -/
abbrev CoreId := Fin 4
/-- A resident slot of a vector core (R118). -/
abbrev SlotId := Fin 32
/-- A sluice channel of a tile (R199). -/
abbrev ChanId := Fin 8
/-- A canal link (R246). -/
abbrev LinkId := Fin 36
/-- A home slice (R275). -/
abbrev SliceId := Fin 32
/-- An HBM stack and its controller (R276). -/
abbrev StackId := Fin 8
/-- An engine slot (R466). -/
abbrev EngineId := Fin 16
/-- A port group (R402). -/
abbrev GroupPortId := Fin 6
/-- A host port (R402). -/
abbrev HostPortId := Fin 2
/-- A rider core (R485). -/
abbrev RiderId := Fin 8
/-- A headgate (R438). -/
abbrev HeadId := Fin 1024

/-- A resident group of a vector core: tile, core and resident slot (R118, R178). -/
structure GroupId where
  tile : TileId
  core : CoreId
  slot : SlotId
deriving DecidableEq, Repr, Inhabited

end Sys2Proof
end

