-- ==== Sys2Proof/Syntax.lean ====
section
/-! DEFINITION. The commands of the block: one constructor of Instr per row of spec/opcode_table.json, with the
operands the spec's rules give the operation or event, and the structures those operands are made of. A command that
the spec calls an event carries what the outside supplies with it: a received parcel, the data of a host read, the
outcome of an ECC check. -/

namespace Sys2Proof

/-- Who made a register access (R13, R413, R490, R507). -/
inductive Requester where
  | pf0
  | vf (k : Fin 64)
  | management
  | rider (c : RiderId)
  | sequencer (t : TileId)
deriving DecidableEq, Repr

/-- The outcome of an array read's ECC or parity check (R110, R289, R302, R303). -/
inductive EccResult where
  | clean
  | corrected
  | uncorrectable
deriving DecidableEq, Repr

/-- The two units of a tensor array (R78). -/
inductive MxUnit where
  | multiply
  | transfer
deriving DecidableEq, Repr

/-- What the checks of a matrix instruction found at its end: the two roundings of a term disagreed (R71), or an array read met
an uncorrectable error (R99, R537). -/
structure MxCheck where
  roundingDisagrees : Bool
  slabUncorrectable : Bool
  accumUncorrectable : Bool
deriving DecidableEq, Repr

/-- A word that one of the two instruction sets refuses (R153). -/
inductive IllegalWord where
  | vector (g : GroupId) (w : Word64)
  | sequencer (t : TileId) (w : Word32)
deriving DecidableEq, Repr

/-- Cause of LATE_ACCESS (R179). -/
inductive LateCause where
  | owner | data | port | lost | plane | decode
deriving DecidableEq, Repr

/-- A requester that walks a range table (R325, R327, R328). -/
inductive Walker where
  | group (g : GroupId)
  | channel (t : TileId) (c : ChanId)
  | engine (e : EngineId)
deriving DecidableEq, Repr

/-- A unit that a stop of the scheduled mesh belongs to (R224). -/
inductive Stop where
  | tile (t : TileId)
  | slice (n : SliceId)
  | hbm (k : StackId)
  | link (l : LinkId)
deriving DecidableEq, Repr

/-- A scheduled-plane flit at its far stop (R25, R225): a write of data at a local address, or a signal add. The
checks of the mesh on the way are part of the event: the flit's CRC (R535) and a collision (R227). -/
structure SchedFlit where
  stop : Stop
  ctx : Byte
  addr : Nat
  data : List Byte
  signal : Option (Nat × Nat × Word64)
  crcOk : Bool
  collided : Bool
deriving DecidableEq, Repr

/-- The unit whose scheduled request a controller serves (R297): an access of a vector core or of a sluice channel, by its number, a
dump flit of a tile, a home slice, a canal link, an engine slot. -/
inductive HbmSource where
  | core (t : TileId) (c : CoreId) (id : Nat)
  | chan (t : TileId) (c : ChanId) (id : Nat)
  | dump (t : TileId)
  | slice (n : SliceId)
  | link (l : LinkId)
  | engine (e : EngineId)
deriving DecidableEq, Repr

/-- A request at an HBM controller (R297, R301): the access, the window and the position it is given, the FCLK of its arrival at the
controller's stop, counted from cycle 0 of the running turn, and its source. -/
structure HbmRequest where
  write : Bool
  ctx : Byte
  addr : Nat
  data : List Byte
  window : Nat
  position : Nat
  arrival : Int
  source : HbmSource
deriving DecidableEq, Repr

/-- A header flit of the coherent mesh with its data flit (R353). -/
structure CohMsg where
  cls : BitVec 2
  hasData : Bool
  opc : Byte
  ctx : Byte
  grant : BitVec 2
  typ : BitVec 2
  status : BitVec 4
  srcAgent : Byte
  srcChip : BitVec 9
  dstAgent : Byte
  dstChip : BitVec 9
  txn : BitVec 12
  aop : BitVec 4
  sz : BitVec 3
  addr : Word64
  byteMask : Word64
  opA : Word64
  opB : Word64
  data : List Byte
deriving DecidableEq, Repr

/-- A ping message as received (R233, R256). -/
structure PingMsg where
  num : Nat
  t1 : Word64
  t2 : Word64
  t3 : Word64
  offset : Word64
  rtt : Word16
  inLat : Word16
  offsetValid : Bool
  epochValid : Bool
  side : Bool
  depth : Byte
  chip : BitVec 9
deriving DecidableEq, Repr

/-- A DATA parcel (R253). -/
structure DataParcel where
  stream : Byte
  destChip : BitVec 9
  part : Bool
  win : BitVec 3
  ctx : Byte
  plenM1 : BitVec 5
  laddr : BitVec 35
  data : List Byte
deriving DecidableEq, Repr

/-- A SIGNAL parcel (R253). -/
structure SignalParcel where
  stream : Byte
  destChip : BitVec 9
  ctx : Byte
  tile : BitVec 6
  sig : BitVec 6
  add : Word64
deriving DecidableEq, Repr

/-- A STRETCH parcel (R256). -/
structure StretchParcel where
  tsend : Word64
  n : BitVec 6
  m : Vector (BitVec 6) 8
deriving DecidableEq, Repr

/-- A DIGEST parcel (R527). -/
structure DigestParcel where
  turn : Word64
  sum : Word64
  items : Word32
  chip : BitVec 9
  side : Bool
  late : Bool
deriving DecidableEq, Repr

/-- A CONTAINER with its flits and its acknowledgement fields (R254). -/
structure Container where
  flits : List CohMsg
  seq : BitVec 12
  ack : BitVec 12
  nak : Bool
  crReq : Byte
  crSnp : Byte
  crRsp : Byte
  crSigTile : Option (BitVec 6)
deriving DecidableEq, Repr

/-- A sluice flit that reaches a canal link's stop (R260). -/
structure LinkFlit where
  tile : TileId
  /-- the channel and the piece of its descriptor that the flit carries; none for a SIGNAL -/
  piece : Option (ChanId × Nat)
  stream : Byte
  arrival : Nat
  parcel : DataParcel ⊕ SignalParcel
deriving DecidableEq, Repr

/-- An array that patrol scrub reads, and the place of the error in it (R303, R304). -/
inductive ScrubTarget where
  | hbm (k : StackId) (addr : Nat)
  | tier2 (g : Fin 4) (addr : Nat)
  | slab (t : TileId) (off : Nat)
  | scratch (n : SliceId) (addr : Nat)
  | directory (n : SliceId) (set : BitVec 12) (way : BitVec 4)
  | accumulator (t : TileId) (entry : Nat)
deriving DecidableEq, Repr

/-- An H2D snoop of the host (R422). -/
inductive HostSnoop where
  | snpData | snpInv | snpCur
deriving DecidableEq, Repr

/-- A function that a host port presents (R405). -/
inductive FunctionId where
  | pf0
  | vf (k : Fin 64)
  | companion
deriving DecidableEq, Repr

/-- What a configuration write changes (R406 to R408, R410, R412, R425, R427): the bits of configuration space that
the block's rules read. -/
inductive ConfigWrite where
  | memorySpace (v : Bool)
  | busMaster (v : Bool)
  | cacheEnable (v : Bool)
  | msixEnable (v : Bool)
  | msixFunctionMask (v : Bool)
  | msixVectorMask (vector : BitVec 11) (v : Bool)
  | pmeEn (v : Bool)
  | pmeStatusClear
  | numVfs (n : BitVec 6)
  | vfEnable (v : Bool)
  | completionTimeout (v : BitVec 4)
  | viralStatusClear
  | bar (i : Fin 3) (v : Word64)
  | hdmBase (v : Word64)
  | powerState (d3hot : Bool)
deriving DecidableEq, Repr

/-- An IDE_KM message over SPDM on a port's DOE mailbox (R434). -/
structure IdeKm where
  cxl : Bool
  keys : BitVec 256
  go : Bool
deriving DecidableEq, Repr

/-- What a ring read of a headgate returned (R438, R444): the 128 bytes of a slot, or a failure. -/
inductive FetchResult where
  | slot (bytes : List Byte)
  | failed
deriving DecidableEq, Repr

/-- A failure of a headgate command's data (R448). -/
inductive HgFail where
  | data | port | unmapped | hostLost
deriving DecidableEq, Repr

/-- What link training and the descriptor read of an engine slot yield (R466, R468, R469). -/
structure EngineLink where
  rate : BitVec 3
  x32 : Bool
  lopt : Bool
  formatOk : Bool
  descPresent : Bool
  desc : Vector Word32 4
deriving DecidableEq, Repr

/-- A scheduled request of an admitted engine (R479). -/
structure EngineRequest where
  inIssue : Bool
  kind : BitVec 2
  part : Bool
  win : BitVec 3
  entry : BitVec 9
  ctx : Byte
  laddr : BitVec 35
  sig : BitVec 6
  tile : BitVec 6
  payload : List Byte
deriving DecidableEq, Repr

/-- A D2H request kind of CXL.cache or a CXL.io memory request of an engine (R356, R471). -/
inductive D2HKind where
  | rdCurr | rdShared | rdAny | rdOwn | rdOwnNoData | itoMWr | memWr | wrInv | woWrInv
  | cleanEvict | cleanEvictNoData | dirtyEvict
deriving DecidableEq, Repr

/-- An engine's request: its kind, its address, whether the address is already translated, and its data (R334, R471). -/
structure EngineD2H where
  kind : D2HKind
  translated : Bool
  addr : Word64
  byteMask : Word64
  data : List Byte
deriving DecidableEq, Repr

/-- A verified debug grant that the security block passes (R504). -/
structure DebugGrant where
  nonce : Word64
  fields : Word16
  caps : BitVec 4
  signer : BitVec 2
  lifetime : Word16
deriving DecidableEq, Repr

/-- An item of the twin digest (R525): a parcel's bytes, or a host-bound write with its issue turn. -/
inductive TwinItem where
  | parcel (bytes : List Byte)
  | write (issueTurn : Word64) (addr : Word64) (target : BitVec 2) (mask : Word64) (line : List Byte)
deriving DecidableEq, Repr

/-- A unit that a unit reset resets (R552). -/
inductive ResetUnit where
  | tile (t : TileId)
  | link (l : LinkId)
  | slot (e : EngineId)
  | tier2 (g : Fin 4)
  | observation
  | rider (c : Fin 2)
deriving DecidableEq, Repr

/-- A trace record handed to the trace unit (R580); UNIT is split into its class and index. -/
structure TraceRecord where
  typ : Byte
  ctx : Byte
  unitClass : BitVec 3
  unitIndex : BitVec 13
  layer : Word16
  operator : Word16
  t0 : Word64
  t1 : Word64
  data : Word64
deriving DecidableEq, Repr

/-- A FRAME packet of the headrace, with the result of its CRC (R601, R603). -/
structure FramePacket where
  stream : Fin 16
  first : Bool
  last : Bool
  frame : Word16
  offset : Nat
  payload : List Byte
  crcOk : Bool
deriving DecidableEq, Repr

/-- What a register write carries: its data, and the bits that hardware events set in its SCLK cycle (R17). -/
structure WriteData where
  value : Word64
  together : Word64
deriving DecidableEq, Repr

/-- The channel of a WREDUCE descriptor, and an error of its adder (R73). -/
structure ReduceRun where
  chan : ChanId
  fault : Option (Nat × BitVec 192)
deriving DecidableEq, Repr

/-- What a slot of a canal link brings, with the slot's number (R248). -/
structure InSlot (α : Type) where
  slot : Nat
  item : α
deriving DecidableEq, Repr

/-- The bytes of a slot as they came, and whether the chiplet flags them as uncorrectable (R255). -/
structure RawParcel where
  bytes : List Byte
  flagged : Bool
deriving DecidableEq, Repr

/-- How many bytes a BAR4 read asks for, and those that another chip sends (R462). -/
structure ReadSpan where
  len : Nat
  outside : List Byte
deriving DecidableEq, Repr

/-- The map bit of an event, and the contexts and map bits of other instances of its source in the same SCLK cycle (R511). -/
structure EventMap where
  map : Option Nat
  others : List (List Byte × Option Nat)
deriving DecidableEq, Repr

/-- The commands of the block: one constructor per row of the table of operations and events. -/
inductive Instr where
  /-- REGISTER_WRITE (R16). A register write without behaviour of its own takes effect in the SCLK cycle in which the register bus delivers it, subject to the field types of R10. -/
  | registerWrite (off size : Nat) (v : WriteData) (by_ : Requester)
  /-- UNSUPPORTED_ACCESS (R13). A BAR0 access that is not a naturally aligned 4- or 8-byte access completes as Unsupported Request and changes no register. -/
  | unsupportedAccess (off size : Nat) (by_ : Requester)
  /-- TURN_START (R217). Cycle 0 of a new turn begins; the stretch request is sampled, weir counts reset, the turn's stretch is applied and per-turn actions start. -/
  | turnStart (request : BitVec 6) (parityOk : Bool)
  /-- APPENDED_CYCLES_START (R32). After cycle 1,799 of a stretched turn the appended cycles begin; the scheduled plane holds and the coherent plane takes the cycles. -/
  | appendedCyclesStart
  /-- MARK_GAP_EXPIRY (R187). When the count of turn boundaries without a MARK reaches MARK_GAP the sequencer raises turn overrun and the count restarts. -/
  | markGapExpiry (t : TileId)
  /-- SLAB_DRAIN_DONE (R37). After a switch toward scheduled mode the last accepted coherent-plane slab request completes, ending the drain. -/
  | slabDrainDone (t : TileId)
  /-- SCHED_FLIT_ARRIVE (R225). A scheduled-plane flit reaches its far stop after its fixed latency and is written or forwarded there. -/
  | schedFlitArrive (f : SchedFlit)
  /-- SCHED_HBM_COMMAND (R297). An HBM controller issues a scheduled request at its assigned access position in a SCHEDULED window. -/
  | schedHbmCommand (k : StackId) (q : HbmRequest)
  /-- SCHED_HBM_DATA (R226). Data of a scheduled tier-1 read reaches the controller's stop 60 MCLK after its command, with ECC and AES-XTS applied. -/
  | schedHbmData (k : StackId) (q : HbmRequest) (ecc : EccResult)
  /-- COHERENT_HBM_COMMAND (R301). An HBM controller issues a coherent-plane command in a COHERENT window, ordering and merging as it chooses. -/
  | coherentHbmCommand (k : StackId) (q : HbmRequest) (ecc : EccResult)
  /-- REFRESH (R299). In each REFRESH run of a turn the controller issues the pseudo-channel's refresh commands. -/
  | refresh (k : StackId) (pc : Fin 64) (run : Fin 2)
  /-- IADD (R160). Per-thread 32-bit integer add. -/
  | iadd (g : GroupId) (w : Word64)
  /-- ISUB (R160). Per-thread 32-bit integer subtract. -/
  | isub (g : GroupId) (w : Word64)
  /-- IMUL (R160). Per-thread low 32 bits of an integer product. -/
  | imul (g : GroupId) (w : Word64)
  /-- IMULH (R160). Per-thread high 32 bits of a signed or unsigned product. -/
  | imulh (g : GroupId) (w : Word64)
  /-- IMAD (R160). Per-thread integer multiply-add, low 32 bits. -/
  | imad (g : GroupId) (w : Word64)
  /-- IMIN (R160). Per-thread signed or unsigned minimum. -/
  | imin (g : GroupId) (w : Word64)
  /-- IMAX (R160). Per-thread signed or unsigned maximum. -/
  | imax (g : GroupId) (w : Word64)
  /-- AND (R160). Per-thread bitwise and. -/
  | and (g : GroupId) (w : Word64)
  /-- OR (R160). Per-thread bitwise or. -/
  | or (g : GroupId) (w : Word64)
  /-- XOR (R160). Per-thread bitwise xor. -/
  | xor (g : GroupId) (w : Word64)
  /-- SHL (R160). Per-thread left shift. -/
  | shl (g : GroupId) (w : Word64)
  /-- SHR (R160). Per-thread logical or arithmetic right shift. -/
  | shr (g : GroupId) (w : Word64)
  /-- SEL (R160). Per-thread select by predicate. -/
  | sel (g : GroupId) (w : Word64)
  /-- MOV (R160). Per-thread register or immediate move. -/
  | mov (g : GroupId) (w : Word64)
  /-- ISETP (R163). Per-thread integer compare writing a predicate. -/
  | isetp (g : GroupId) (w : Word64)
  /-- FADD (R160). Per-thread binary32 add in the MOD rounding mode. -/
  | fadd (g : GroupId) (w : Word64)
  /-- FSUB (R160). Per-thread binary32 subtract. -/
  | fsub (g : GroupId) (w : Word64)
  /-- FMUL (R160). Per-thread binary32 multiply. -/
  | fmul (g : GroupId) (w : Word64)
  /-- FFMA (R160). Per-thread binary32 fused multiply-add with one rounding. -/
  | ffma (g : GroupId) (w : Word64)
  /-- FMIN (R160). Per-thread IEEE minimumNumber. -/
  | fmin (g : GroupId) (w : Word64)
  /-- FMAX (R160). Per-thread IEEE maximumNumber. -/
  | fmax (g : GroupId) (w : Word64)
  /-- FSETP (R163). Per-thread floating-point compare writing a predicate. -/
  | fsetp (g : GroupId) (w : Word64)
  /-- HADD2 (R160). Two binary16 adds per thread. -/
  | hadd2 (g : GroupId) (w : Word64)
  /-- HMUL2 (R160). Two binary16 multiplies per thread. -/
  | hmul2 (g : GroupId) (w : Word64)
  /-- HFMA2 (R160). Two binary16 fused multiply-adds per thread. -/
  | hfma2 (g : GroupId) (w : Word64)
  /-- BADD2 (R74). Two packed BF16 adds per thread, each rounded once. -/
  | badd2 (g : GroupId) (w : Word64)
  /-- BMUL2 (R74). Two packed BF16 multiplies per thread. -/
  | bmul2 (g : GroupId) (w : Word64)
  /-- BFMA2 (R74). Two packed BF16 fused multiply-adds per thread. -/
  | bfma2 (g : GroupId) (w : Word64)
  /-- CVT (R161). Per-thread conversion between the integer and floating-point types. -/
  | cvt (g : GroupId) (w : Word64)
  /-- WADD (R162). Adds two wide partials per thread, raising ANCHOR_MISMATCH if any anchors differ. -/
  | wadd (g : GroupId) (w : Word64)
  /-- WCVT (R162). Converts a wide partial to a floating-point format per thread under R63 to R66. -/
  | wcvt (g : GroupId) (w : Word64)
  /-- WRND (R162). Rounds a binary32 value onto the grid of an anchor, forming a wide partial. -/
  | wrnd (g : GroupId) (w : Word64)
  /-- RCP (R164). Correctly rounded reciprocal. -/
  | rcp (g : GroupId) (w : Word64)
  /-- SQRT (R164). Correctly rounded square root. -/
  | sqrt (g : GroupId) (w : Word64)
  /-- RSQ (R164). Reciprocal square root within 1 ulp. -/
  | rsq (g : GroupId) (w : Word64)
  /-- EX2 (R164). Base-2 exponential within 1 ulp. -/
  | ex2 (g : GroupId) (w : Word64)
  /-- LG2 (R164). Base-2 logarithm within 1 ulp. -/
  | lg2 (g : GroupId) (w : Word64)
  /-- SINPI (R164). sin(pi x) within 1 ulp. -/
  | sinpi (g : GroupId) (w : Word64)
  /-- COSPI (R164). cos(pi x) within 1 ulp. -/
  | cospi (g : GroupId) (w : Word64)
  /-- IDIV (R164). Integer quotient toward zero, with the divide-by-zero results of R164. -/
  | idiv (g : GroupId) (w : Word64)
  /-- IREM (R164). Integer remainder with the sign of the dividend. -/
  | irem (g : GroupId) (w : Word64)
  /-- SHFL (R160). Reads another thread's register. -/
  | shfl (g : GroupId) (w : Word64)
  /-- BALLOT (R160). Collects a predicate of every taking-part thread into a uniform mask. -/
  | ballot (g : GroupId) (w : Word64)
  /-- MOVU (R160). Moves the lowest taking-part thread's value to a uniform register. -/
  | movu (g : GroupId) (w : Word64)
  /-- BCAST (R160). Broadcasts half of a uniform register to every thread. -/
  | bcast (g : GroupId) (w : Word64)
  /-- SREG (R165). Reads a special value such as TID, TILE, CHIP or TIME. -/
  | sreg (g : GroupId) (w : Word64)
  /-- FFLAG (R160). Reads FFLAGS into a uniform register and optionally clears them. -/
  | fflag (g : GroupId) (w : Word64)
  /-- LDS (R167). Load from the tile's own slab. -/
  | lds (g : GroupId) (w : Word64)
  /-- STS (R167). Store to the tile's own slab. -/
  | sts (g : GroupId) (w : Word64)
  /-- LDL (R167). Load from the block's local memory. -/
  | ldl (g : GroupId) (w : Word64)
  /-- STL (R167). Store to the block's local memory. -/
  | stl (g : GroupId) (w : Word64)
  /-- LD (R167). Load from a translated virtual address. -/
  | ld (g : GroupId) (w : Word64)
  /-- ST (R167). Store to a translated virtual address. -/
  | st (g : GroupId) (w : Word64)
  /-- AOP_ADD (R168). Atomic add on slab, local or virtual memory. -/
  | aopAdd (g : GroupId) (w : Word64)
  /-- AOP_SMIN (R168). Atomic signed minimum. -/
  | aopSmin (g : GroupId) (w : Word64)
  /-- AOP_UMIN (R168). Atomic unsigned minimum. -/
  | aopUmin (g : GroupId) (w : Word64)
  /-- AOP_SMAX (R168). Atomic signed maximum. -/
  | aopSmax (g : GroupId) (w : Word64)
  /-- AOP_UMAX (R168). Atomic unsigned maximum. -/
  | aopUmax (g : GroupId) (w : Word64)
  /-- AOP_AND (R168). Atomic and. -/
  | aopAnd (g : GroupId) (w : Word64)
  /-- AOP_OR (R168). Atomic or. -/
  | aopOr (g : GroupId) (w : Word64)
  /-- AOP_XOR (R168). Atomic xor. -/
  | aopXor (g : GroupId) (w : Word64)
  /-- EXCH (R168). Atomic exchange. -/
  | exch (g : GroupId) (w : Word64)
  /-- CAS (R168). Atomic compare-and-swap, combined in thread order. -/
  | cas (g : GroupId) (w : Word64)
  /-- AOP_FADD (R168). Atomic FP32 add rounded at each step in thread order. -/
  | aopFadd (g : GroupId) (w : Word64)
  /-- ULDS (R167). Uniform 64-bit load from the own slab. -/
  | ulds (g : GroupId) (w : Word64)
  /-- USTS (R167). Uniform 64-bit store to the own slab. -/
  | usts (g : GroupId) (w : Word64)
  /-- L1INV (R142). Invalidates the vector core's L1 data cache. -/
  | l1inv (g : GroupId) (w : Word64)
  /-- FENCE_ORD (R391). Waits until earlier accesses of the group are performed, then invalidates the L1 data cache. -/
  | fenceOrd (g : GroupId) (w : Word64)
  /-- FENCE_END (R392). Waits until earlier writes of the group are also acknowledged. -/
  | fenceEnd (g : GroupId) (w : Word64)
  /-- FENCE_COMPLETE (R391). A waiting fence's conditions are met and the group's next instruction may issue. -/
  | fenceComplete (g : GroupId)
  /-- MXMA (R75). Issues a matrix multiply-accumulate to the tensor array. -/
  | mxma (g : GroupId) (w : Word64)
  /-- MXLD (R91). Issues a load of wide partials into an accumulator region. -/
  | mxld (g : GroupId) (w : Word64)
  /-- MXST (R91). Issues a conversion of an accumulator region out to the slab. -/
  | mxst (g : GroupId) (w : Word64)
  /-- TWAIT (R79). The group waits until a token is DONE. -/
  | twait (g : GroupId) (w : Word64)
  /-- TTEST (R169). Writes whether a token is DONE into a predicate. -/
  | ttest (g : GroupId) (w : Word64)
  /-- TSTAT (R99). Waits for a token and reads its status word. -/
  | tstat (g : GroupId) (w : Word64)
  /-- MATRIX_ACCEPT (R78). The tensor array accepts an issued matrix instruction 16 CCLK after its issue window, copying and checking its descriptors. -/
  | matrixAccept (t : TileId) (u : MxUnit) (ue : Bool)
  /-- MATRIX_END (R96). A matrix instruction ends on its unit; the residue comparison runs and its region is released. -/
  | matrixEnd (t : TileId) (u : MxUnit) (check : MxCheck)
  /-- TOKEN_DONE (R99). A matrix instruction's token becomes DONE 32 CCLK after its end, or after acceptance for DESCRIPTOR. -/
  | tokenDone (g : GroupId) (tok : Fin 16)
  /-- ACCUM_CLEAR (R92). On launch of a kernel of a different context, the tensor array clears every accumulator entry over 128 CCLK. -/
  | accumClear (t : TileId)
  /-- BAR_BLK (R136). A group arrives at the block barrier; the last arrival releases it. -/
  | barBlk (g : GroupId) (w : Word64)
  /-- EXIT (R132). Taking-part threads exit; a group whose last thread exits frees its slots. -/
  | exit (g : GroupId) (w : Word64)
  /-- BRA (R128). Per-thread conditional branch that may split under a reconvergence entry. -/
  | bra (g : GroupId) (w : Word64)
  /-- BRA_U (R170). Uniform conditional branch. -/
  | braU (g : GroupId) (w : Word64)
  /-- JMP (R170). Uniform jump. -/
  | jmp (g : GroupId) (w : Word64)
  /-- JAL_U (R170). Uniform jump and link. -/
  | jalU (g : GroupId) (w : Word64)
  /-- JR_U (R170). Uniform jump to a register address. -/
  | jrU (g : GroupId) (w : Word64)
  /-- TRAP (R170). Raises the TRAP exception in the group. -/
  | trap (g : GroupId) (w : Word64)
  /-- NOP (R170). Vector-core no operation. -/
  | nop (g : GroupId) (w : Word64)
  /-- UADD (R171). Uniform 64-bit add. -/
  | uadd (g : GroupId) (w : Word64)
  /-- USUB (R171). Uniform 64-bit subtract. -/
  | usub (g : GroupId) (w : Word64)
  /-- UMUL (R171). Uniform 64-bit multiply. -/
  | umul (g : GroupId) (w : Word64)
  /-- UAND (R171). Uniform and. -/
  | uand (g : GroupId) (w : Word64)
  /-- UOR (R171). Uniform or. -/
  | uor (g : GroupId) (w : Word64)
  /-- UXOR (R171). Uniform xor. -/
  | uxor (g : GroupId) (w : Word64)
  /-- USHL (R171). Uniform left shift. -/
  | ushl (g : GroupId) (w : Word64)
  /-- USHR (R171). Uniform right shift. -/
  | ushr (g : GroupId) (w : Word64)
  /-- UMIN (R171). Uniform minimum. -/
  | umin (g : GroupId) (w : Word64)
  /-- UMAX (R171). Uniform maximum. -/
  | umax (g : GroupId) (w : Word64)
  /-- UMOV (R171). Uniform move. -/
  | umov (g : GroupId) (w : Word64)
  /-- USETP (R171). Uniform compare writing a predicate in every active thread. -/
  | usetp (g : GroupId) (w : Word64)
  /-- ILLEGAL (R153). An issued word with a reserved opcode, set RES0 bit or undefined field value raises ILLEGAL. -/
  | illegal (i : IllegalWord)
  /-- LATE_ACCESS (R150). A target reports an error after the check point; the group halts before using a marked register. -/
  | lateAccess (g : GroupId) (i : Nat) (cause : LateCause)
  /-- LOAD_RETURN (R380). Data of an outstanding load returns and the load is performed; waiting groups become ready. -/
  | loadReturn (g : GroupId) (i : Nat) (hostData : List Byte)
  /-- ICACHE_FILL (R143). A missed instruction line is fetched and fills the L1 instruction cache, or the group halts on an uncorrectable error. -/
  | icacheFill (g : GroupId) (ue : Bool) (hostData : List Byte)
  /-- MERGE_FLUSH (R388). A STREAM merge-buffer entry is sent 64 FCLK after its last merge or when complete. -/
  | mergeFlush (t : TileId) (c : CoreId) (line : Nat)
  /-- RANGE_WALK_DONE (R325). A range walk completes; the result is cached, or a missing range posts a fault. -/
  | rangeWalkDone (q : Walker) (va : Word64) (access : BitVec 4)
  /-- GROUP_TIMESLICE (R121). A group that has held its active slot for 256 windows leaves at its next backward branch when a pending group is ready. -/
  | groupTimeslice (g : GroupId)
  /-- ACTIVE_SLOT_FILL (R122). A freed active slot is filled in the next window by the earliest-ready pending group. -/
  | activeSlotFill (t : TileId) (c : CoreId)
  /-- BLOCK_START (R126). A vector core starts the next block once a block slot, resident slots and register rows are free. -/
  | blockStart (t : TileId) (c : CoreId)
  /-- ALU (R175). Sequencer register-register operation selected by FN. -/
  | alu (t : TileId) (w : Word32)
  /-- ALU_ADD (R175). Sequencer 64-bit add. -/
  | aluAdd (t : TileId) (w : Word32)
  /-- ALU_SUB (R175). Sequencer 64-bit subtract. -/
  | aluSub (t : TileId) (w : Word32)
  /-- ALU_AND (R175). Sequencer bitwise and. -/
  | aluAnd (t : TileId) (w : Word32)
  /-- ALU_OR (R175). Sequencer bitwise or. -/
  | aluOr (t : TileId) (w : Word32)
  /-- ALU_XOR (R175). Sequencer bitwise xor. -/
  | aluXor (t : TileId) (w : Word32)
  /-- SLL (R175). Sequencer shift left. -/
  | sll (t : TileId) (w : Word32)
  /-- SRL (R175). Sequencer logical shift right. -/
  | srl (t : TileId) (w : Word32)
  /-- SRA (R175). Sequencer arithmetic shift right. -/
  | sra (t : TileId) (w : Word32)
  /-- SLT (R175). Sequencer signed set-less-than. -/
  | slt (t : TileId) (w : Word32)
  /-- SLTU (R175). Sequencer unsigned set-less-than. -/
  | sltu (t : TileId) (w : Word32)
  /-- MUL (R175). Sequencer 64-bit multiply. -/
  | mul (t : TileId) (w : Word32)
  /-- ADDI (R174). Sequencer add immediate. -/
  | addi (t : TileId) (w : Word32)
  /-- ANDI (R174). Sequencer and immediate. -/
  | andi (t : TileId) (w : Word32)
  /-- ORI (R174). Sequencer or immediate. -/
  | ori (t : TileId) (w : Word32)
  /-- XORI (R174). Sequencer xor immediate. -/
  | xori (t : TileId) (w : Word32)
  /-- SLLI (R174). Sequencer shift left immediate. -/
  | slli (t : TileId) (w : Word32)
  /-- SRLI (R174). Sequencer logical shift right immediate. -/
  | srli (t : TileId) (w : Word32)
  /-- SRAI (R174). Sequencer arithmetic shift right immediate. -/
  | srai (t : TileId) (w : Word32)
  /-- SLTI (R174). Sequencer signed compare with immediate. -/
  | slti (t : TileId) (w : Word32)
  /-- LUI (R174). Sequencer load upper immediate. -/
  | lui (t : TileId) (w : Word32)
  /-- SEQ_LD (R174). Sequencer 64-bit load from the own slab. -/
  | seqLd (t : TileId) (w : Word32)
  /-- LDW (R174). Sequencer 32-bit load from the own slab. -/
  | ldw (t : TileId) (w : Word32)
  /-- SEQ_ST (R174). Sequencer 64-bit store to the own slab, performed 2 FCLK later. -/
  | seqSt (t : TileId) (w : Word32)
  /-- STW (R174). Sequencer 32-bit store to the own slab. -/
  | stw (t : TileId) (w : Word32)
  /-- BEQ (R174). Sequencer branch if equal. -/
  | beq (t : TileId) (w : Word32)
  /-- BNE (R174). Sequencer branch if not equal. -/
  | bne (t : TileId) (w : Word32)
  /-- BLT (R174). Sequencer branch if signed less. -/
  | blt (t : TileId) (w : Word32)
  /-- BGE (R174). Sequencer branch if signed greater or equal. -/
  | bge (t : TileId) (w : Word32)
  /-- BLTU (R174). Sequencer branch if unsigned less. -/
  | bltu (t : TileId) (w : Word32)
  /-- BGEU (R174). Sequencer branch if unsigned greater or equal. -/
  | bgeu (t : TileId) (w : Word32)
  /-- JAL (R174). Sequencer jump and link. -/
  | jal (t : TileId) (w : Word32)
  /-- JALR (R174). Sequencer jump to register and link. -/
  | jalr (t : TileId) (w : Word32)
  /-- WAIT (R185). The sequencer waits for a point (turn, cycle), or sets LATE_WAIT if it has passed. -/
  | wait (t : TileId) (w : Word32)
  /-- WAIT_POINT_REACHED (R185). The point of a waiting WAIT arrives and the next instruction begins in exactly that cycle. -/
  | waitPointReached (t : TileId)
  /-- DELAY (R184). The sequencer waits a number of unappended FCLK. -/
  | delay (t : TileId) (w : Word32)
  /-- DELAY_EXPIRY (R184). A DELAY's count of cycles 0 to 1,799 runs out and the next instruction begins. -/
  | delayExpiry (t : TileId)
  /-- MARK (R186). A control-flow mark is judged on time or late and clears the MARK-gap count. -/
  | mark (t : TileId) (w : Word32)
  /-- MODE (R198). The sequencer waits for kernel end, other-mode channels idle and the slab drain, then sets the tile's mode. -/
  | mode (t : TileId) (w : Word32)
  /-- LAUNCH (R194). The sequencer waits for no kernel running, then reads and checks a kernel descriptor. -/
  | launch (t : TileId) (w : Word32)
  /-- KERNEL_START (R194). At launch cycle 8 both L1 caches are invalidated and the first groups are created, or the launch fails under R195. -/
  | kernelStart (t : TileId)
  /-- KERNEL_END (R196). A kernel ends when all groups ended, matrix work is DONE and stores are performed; waiting KWAIT, LAUNCH and MODE proceed. -/
  | kernelEnd (t : TileId)
  /-- KWAIT (R195). The sequencer waits for the tile's kernel to end and reads its end status. -/
  | kwait (t : TileId) (w : Word32)
  /-- SLGO (R199). The sequencer waits for a channel to be IDLE, then starts it at a descriptor in the tile's mode. -/
  | slgo (t : TileId) (w : Word32)
  /-- SLWAIT (R182). The sequencer waits for a channel to stop and reads its status. -/
  | slwait (t : TileId) (w : Word32)
  /-- SGWAIT (R191). The sequencer waits until a tile signal is at least a value. -/
  | sgwait (t : TileId) (w : Word32)
  /-- SGSET (R191). The sequencer sets a tile signal. -/
  | sgset (t : TileId) (w : Word32)
  /-- CNSIG (R192). The sequencer sends a signal word on a canal link in a C slot with a credit. -/
  | cnsig (t : TileId) (w : Word32)
  /-- CNRCV (R192). The sequencer takes the oldest signal word from a link, waiting while there is none. -/
  | cnrcv (t : TileId) (w : Word32)
  /-- CNSTAT (R192). The sequencer reads a canal link's status word. -/
  | cnstat (t : TileId) (w : Word32)
  /-- SEQ_TIME (R231). The sequencer reads the 64-bit timestamp. -/
  | seqTime (t : TileId) (w : Word32)
  /-- TURN (R218). The sequencer reads the current turn number. -/
  | turn (t : TileId) (w : Word32)
  /-- CYC (R174). The sequencer reads the cycle within the turn. -/
  | cyc (t : TileId) (w : Word32)
  /-- CSRR (R174). The sequencer reads a 32-bit tile-window register. -/
  | csrr (t : TileId) (w : Word32)
  /-- CSRW (R190). The sequencer writes a 32-bit tile-window register, ignored at offsets 0x0000 to 0x003F. -/
  | csrw (t : TileId) (w : Word32)
  /-- SEQ_TRAP (R188). The sequencer raises TRAP and enters FAULTED. -/
  | seqTrap (t : TileId) (w : Word32)
  /-- HALT (R174). The sequencer stops in HALTED. -/
  | halt (t : TileId) (w : Word32)
  /-- SEQ_FENCE (R394). The sequencer waits until its earlier LD, ST, CSRW and SGSET have completed. -/
  | seqFence (t : TileId) (w : Word32)
  /-- SEQ_NOP (R174). Sequencer no operation. -/
  | seqNop (t : TileId) (w : Word32)
  /-- PM_UNCORRECTABLE (R189). An uncorrectable program-memory fetch stops the sequencer in FAULTED with PM_ERR. -/
  | pmUncorrectable (t : TileId)
  /-- SEQ_LOCKSTEP_MISMATCH (R536). The sequencer's shadow copy disagrees; SEQ_LOCKSTEP is raised and the sequencer enters FAULTED. -/
  | seqLockstepMismatch (t : TileId)
  /-- START (R180). A write of SQ_CTRL.START checks the program window and starts copying the program into program memory. -/
  | start (t : TileId)
  /-- PROGRAM_COPY_DONE (R180). The program copy finishes, registers are cleared and the sequencer enters RUNNING, or an uncorrectable word faults it. -/
  | programCopyDone (t : TileId)
  /-- STOP (R181). A write of SQ_CTRL.STOP completes or abandons the current instruction or copy and enters STOPPED within 2 FCLK. -/
  | stop (t : TileId)
  /-- SQ_SIG_WRITE (R191). A register-bus write to SQ_SIG sets a tile signal, combining with coinciding adds. -/
  | sqSigWrite (t : TileId) (n : Fin 64) (v : Word64) (adds : List Word64)
  /-- SIGNAL_WORD_RECEIVE (R192). A canal signal word enters the tile's receive queue when it has room and its credit is returned. -/
  | signalWordReceive (l : LinkId) (t : TileId) (v : Word64)
  /-- SLUICE_DESC_FETCH (R207). A channel fetches a descriptor, checks it under R613 and translates its sub-descriptors at enqueue. -/
  | sluiceDescFetch (t : TileId) (c : ChanId)
  /-- SLUICE_COPY (R203). A COPY descriptor moves ROWS rows of LENGTH bytes. -/
  | sluiceCopy (t : TileId) (c : ChanId)
  /-- GATHER (R203). A GATHER descriptor reads indexed elements into a strided destination. -/
  | gather (t : TileId) (c : ChanId)
  /-- SCATTER (R203). A SCATTER descriptor writes strided elements to indexed destinations. -/
  | scatter (t : TileId) (c : ChanId)
  /-- SLUICE_INLINE (R203). An INLINE descriptor writes up to 32 data bytes. -/
  | sluiceInline (t : TileId) (c : ChanId)
  /-- WREDUCE (R203). A WREDUCE descriptor adds two arrays of wide partials with anchor and residue checks. -/
  | wreduce (t : TileId) (c : ReduceRun)
  /-- SLUICE_WAIT (R204). A WAIT descriptor holds the chain until a signal threshold or a point. -/
  | sluiceWait (t : TileId) (c : ChanId)
  /-- SLUICE_WAIT_SATISFIED (R204). The condition of a waiting WAIT descriptor is met and the chain continues. -/
  | sluiceWaitSatisfied (t : TileId) (c : ChanId)
  /-- SLUICE_SIGNAL (R204). A SIGNAL descriptor adds to a tile signal after the channel's earlier writes are performed. -/
  | sluiceSignal (t : TileId) (c : ChanId)
  /-- JUMP (R203). A JUMP descriptor continues the chain at its target under the loop counter. -/
  | jump (t : TileId) (c : ChanId)
  /-- SLUICE_FLIT_ISSUE (R212). A scheduled-mode channel issues a data flit at its compiled cycle. -/
  | sluiceFlitIssue (t : TileId) (c : ChanId)
  /-- SLUICE_LINE_ARRIVE (R612). A line read from outside the own slab reaches the channel and its write is issued. -/
  | sluiceLineArrive (t : TileId) (c : ChanId) (hostData : List Byte) (ue : Bool)
  /-- ABORT (R206). A write of SL_CTRL.ABORT stops the channel between flits with status ABORTED. -/
  | abort (t : TileId) (c : ChanId)
  /-- CHANNEL_IDLE (R206). A stopping channel's issued accesses are performed or refused and it becomes IDLE with its status. -/
  | channelIdle (t : TileId) (c : ChanId)
  /-- START_ARM (R222). A write of ROT_CTRL.START_ARM arms the rotation at ROT_START or is refused with ARM_ERR. -/
  | startArm
  /-- STOP_ARM (R223). A write of ROT_CTRL.STOP_ARM latches the end turn of a running rotation or is refused. -/
  | stopArm
  /-- EPOCH_ARM (R235). A write of ROT_CTRL.EPOCH_ARM arms the epoch at TB_EPOCH or is refused. -/
  | epochArm
  /-- EPOCH (R235). When corrected time equals TB_EPOCH the timebase restarts at turn 0, sets EPOCH_VALID and presets the stretch table. -/
  | epoch
  /-- TIMEBASE_MISMATCH (R538). The two copies of the timebase disagree and TIMEBASE_CHECK is raised. -/
  | timebaseMismatch
  /-- PING_GO (R233). A write of LK_PING.GO starts a ping on a link, or joins one the far side started. -/
  | pingGo (l : LinkId)
  /-- PING_M1 (R233). The responder receives M1 and records arrival, delta and the far side's offset and depth. -/
  | pingM1 (l : LinkId) (m : PingMsg)
  /-- PING_M2 (R233). The initiator receives M2 and records delta and RTT. -/
  | pingM2 (l : LinkId) (m : PingMsg)
  /-- PING_M3 (R233). The responder receives M3 and records RTT, FAR_RTT and latencies. -/
  | pingM3 (l : LinkId) (m : PingMsg)
  /-- PING_M4 (R234). The initiator receives M4, records FAR_RTT and the ping ends DONE or FAILED. -/
  | pingM4 (l : LinkId) (m : PingMsg)
  /-- PING_TIMEOUT (R234). A ping message is not received within 8 turns and the ping ends FAILED with TIMEOUT. -/
  | pingTimeout (l : LinkId)
  /-- SLOT (R248). A canal link's outbound slot begins and sends exactly one parcel of the slot's kind. -/
  | slot (l : LinkId) (slot : Nat)
  /-- IDLE (R252). An IDLE parcel is received and checked for errors. -/
  | idle (l : LinkId) (slot : Nat)
  /-- DATA_PARCEL (R261). A DATA parcel is received and delivered locally, queued for relay or discarded as misrouted. -/
  | dataParcel (l : LinkId) (p : InSlot DataParcel)
  /-- SIGNAL_PARCEL (R261). A SIGNAL parcel is received and delivered locally or relayed. -/
  | signalParcel (l : LinkId) (p : InSlot SignalParcel)
  /-- STRETCH (R241). A STRETCH parcel is received; the stretch table merges it and the latency and n are checked. -/
  | stretch (l : LinkId) (p : StretchParcel)
  /-- PING (R233). A PING parcel carrying a ping message is received. -/
  | ping (l : LinkId) (m : PingMsg)
  /-- DIGEST (R528). A DIGEST parcel from the twin is received and compared with the own digest. -/
  | digest (l : LinkId) (d : DigestParcel)
  /-- HALT_PARCEL (R270). A valid HALT parcel is received; the link refuses outstanding requests and sends no more S parcels. -/
  | haltParcel (l : LinkId) (chip : BitVec 9) (side : Bool) (source : Byte)
  /-- CONTAINER (R265). A CONTAINER is received; in-sequence flits are accepted, ACK, NAK and credits are processed. -/
  | container (l : LinkId) (c : InSlot Container)
  /-- ERRORED_PARCEL (R255). A parcel fails its CRC, is flagged uncorrectable or has a disallowed TYPE and is discarded. -/
  | erroredParcel (l : LinkId) (slot : InSlot RawParcel)
  /-- S_PARCEL_DELIVER (R262). A received S parcel leaves the arrival buffer at its delivery point and writes its line or adds its signal. -/
  | sParcelDeliver (l : LinkId)
  /-- LOCAL_FLIT_ARRIVE (R260). A sluice flit reaches its link's stop and enters the send queue, or is discarded when late or the queue is full. -/
  | localFlitArrive (l : LinkId) (f : LinkFlit) (late : Bool)
  /-- C_REPLAY_TIMEOUT (R265). The oldest unacknowledged container has waited 1,024 FCLK and is replayed. -/
  | cReplayTimeout (l : LinkId)
  /-- LINK_DOWN (R269). A canal link goes DOWN on loss of training or 8 consecutive errored parcels, discarding queues and refusing requests. -/
  | linkDown (l : LinkId)
  /-- LINK_UP (R247). The chiplet reports training complete and the link enters UP with credits granted. -/
  | linkUp (l : LinkId)
  /-- CN_ENABLE (R247). A write of CN_CTRL.ENABLE starts training or moves the link to DISABLED. -/
  | cnEnable (l : LinkId) (v : Bool)
  /-- RETRAIN (R274). A write of CN_CTRL.RETRAIN takes the link DOWN without raising link-down and retrains. -/
  | retrain (l : LinkId)
  /-- CN_MAPDATA_WRITE (R259). A write to CN_MAPDATA stores a slot or schedule entry and advances INDEX, or is refused with MAP_WERR while a rotation runs. -/
  | cnMapdataWrite (l : LinkId) (v : Word32)
  /-- REMOTE_REQUEST (R268). A coherent request for another chip leaves through the lowest UP reaching link, or is refused with PORT. -/
  | remoteRequest (m : CohMsg)
  /-- RD_SHARED (R359). The home serves a read for a shared copy. -/
  | rdShared (n : SliceId) (m : CohMsg)
  /-- RD_OWN (R359). The home serves a read for an exclusive copy, invalidating other holders. -/
  | rdOwn (n : SliceId) (m : CohMsg)
  /-- CLAIM (R359). The home upgrades a held shared copy to exclusive, or serves it as RD_OWN. -/
  | claim (n : SliceId) (m : CohMsg)
  /-- RD_PEEK (R360). The home returns current data without changing directory state. -/
  | rdPeek (n : SliceId) (m : CohMsg)
  /-- WR_FULL (R359). The home performs an uncached full-line write after invalidating holders. -/
  | wrFull (n : SliceId) (m : CohMsg)
  /-- WR_PART (R359). The home performs an uncached masked write. -/
  | wrPart (n : SliceId) (m : CohMsg)
  /-- ATOMIC (R359). The home performs an atomic on the merged line and returns CMP. -/
  | atomic (n : SliceId) (m : CohMsg)
  /-- EVICT_CLEAN (R359). The home absorbs a clean eviction and removes the agent from presence. -/
  | evictClean (n : SliceId) (m : CohMsg)
  /-- EVICT_DIRTY (R359). The home absorbs a dirty eviction, writes its data and frees the entry. -/
  | evictDirty (n : SliceId) (m : CohMsg)
  /-- SIG_ADD (R204). An open-mode SIGNAL request adds to a tile signal. -/
  | sigAdd (m : CohMsg)
  /-- SNP_INV (R354). A snooped agent invalidates its copy and returns data if modified. -/
  | snpInv (m : CohMsg)
  /-- SNP_FWD_S (R356). A snooped agent forwards a shared copy and keeps one. -/
  | snpFwdS (m : CohMsg)
  /-- SNP_FWD_O (R356). A snooped agent forwards the line and invalidates its copy. -/
  | snpFwdO (m : CohMsg)
  /-- SNP_PEEK (R360). A snooped agent forwards modified data or reports keeping a clean copy. -/
  | snpPeek (m : CohMsg)
  /-- DATA (R358). A requester receives line data with its grant and answers with ACK. -/
  | data (m : CohMsg)
  /-- GNT (R359). A requester receives a grant without data for CLAIM. -/
  | gnt (m : CohMsg)
  /-- CMP (R379). A requester receives completion of a write or atomic, which is then performed. -/
  | cmp (m : CohMsg)
  /-- RSP_I (R361). The home receives a reply that the snooped agent holds no copy. -/
  | rspI (n : SliceId) (m : CohMsg)
  /-- RSP_S (R359). The home receives a reply that the agent kept a shared copy, with data if modified. -/
  | rspS (n : SliceId) (m : CohMsg)
  /-- RSP_KEEP (R360). The home receives a peek reply that the agent kept a clean line and sends memory data. -/
  | rspKeep (n : SliceId) (m : CohMsg)
  /-- RSP_FWD (R360). The home receives a reply that the agent forwarded data to the requester. -/
  | rspFwd (n : SliceId) (m : CohMsg)
  /-- RSP_DATA (R356). The home receives modified data from an engine or host and forwards it. -/
  | rspData (n : SliceId) (m : CohMsg)
  /-- EVICT_ACK (R359). An agent receives acknowledgement that its eviction was absorbed and releases the data. -/
  | evictAck (m : CohMsg)
  /-- ACK (R358). The home receives the requester's acknowledgement and closes the transaction. -/
  | ack (n : SliceId) (m : CohMsg)
  /-- REFUSE (R355). A requester receives a refusal with its cause. -/
  | refuse (m : CohMsg)
  /-- WORD (R192). A signal-class flit carries a canal signal word or a halt word. -/
  | word (m : CohMsg)
  /-- COH_PROTOCOL_ERROR (R354). A flit with a reserved opcode is discarded and COH_PROTOCOL is raised. -/
  | cohProtocolError (slice : Option SliceId) (m : CohMsg)
  /-- RETRY_QUEUE_SERVE (R364). A way of a set frees and the oldest waiting request of that set is served. -/
  | retryQueueServe (n : SliceId)
  /-- REFILL_HALF (R280). A 32-byte half of a refilled line arrives and waiting requests in that half complete. -/
  | refillHalf (n : SliceId) (line : Nat) (second : Bool) (ecc : EccResult)
  /-- AGENT_DEATH (R373). An agent becomes dead; snoops to it stop, its replies count as RSP_I and a reclaim walk begins. -/
  | agentDeath (a : Fin 74)
  /-- SNOOP_TIMEOUT (R372). An agent gives no snoop reply within 1,800 FCLK or the host timeout and becomes dead. -/
  | snoopTimeout (a : Fin 74)
  /-- RECLAIM_DONE (R373). Every slice finishes its reclaim walk and COH_RECLAIM.BUSY clears. -/
  | reclaimDone
  /-- RECLAIM_START (R377). A write of COH_RECLAIM.START makes the named agent dead and reclaims it. -/
  | reclaimStart (a : Byte)
  /-- SET_DEVICE (R368). BIAS_CMD SET_DEVICE back-invalidates host lines of granules and returns them to device bias. -/
  | setDevice
  /-- LOCK (R370). BIAS_CMD LOCK sets a lock entry after back-invalidating and writing back its run. -/
  | lock
  /-- UNLOCK (R370). BIAS_CMD UNLOCK clears a lock entry. -/
  | unlock
  /-- BIAS_CMD_DONE (R370). A running bias or lock command finishes and BUSY clears with its result. -/
  | biasCmdDone
  /-- BIAS_FLIP_DONE (R367). A flip completes: host bias is set, the host request is served and waiting device requests are released. -/
  | biasFlipDone (granule : Nat)
  /-- NEXT_LOST (R378). A write of DIR_PROBE.NEXT_LOST finds the next LOST entry and loads it into DIR_PROBE_DATA. -/
  | nextLost (n : SliceId) (set : BitVec 12) (way : BitVec 4)
  /-- DIR_PROBE_READ (R378). A write of DIR_PROBE loads the entry at SET and WAY into DIR_PROBE_DATA. -/
  | dirProbeRead (n : SliceId) (set : BitVec 12) (way : BitVec 4)
  /-- SCRATCH_WAYS_WRITE (R285). A write of RSV_SCRATCH.WAYS starts a conversion in all slices, or is refused with ERR. -/
  | scratchWaysWrite (v : BitVec 4)
  /-- SCRATCH_CONVERT_DONE (R286). A slice finishes writing back, invalidating and zeroing ways and clears BUSY. -/
  | scratchConvertDone (n : SliceId)
  /-- PATROL_SCRUB (R303). The scrubber reads its next line or entry of an array, correcting or reporting errors. -/
  | patrolScrub (a : ScrubTarget) (ecc : EccResult)
  /-- LOAD (R300). A write of HB_CTRL.LOAD checks and commits all staged window patterns, or refuses them. -/
  | load (k : StackId)
  /-- SLAB_OWN_WRITE (R293). A write to SLAB_OWNu that changes the entry starts a zero fill, or is refused with OWN_ERR. -/
  | slabOwnWrite (t : TileId) (u : Fin 24) (v : Word32)
  /-- SLAB_FILL_DONE (R293). The zero fill of a slab unit ends, the new owner applies and FILL clears. -/
  | slabFillDone (t : TileId)
  /-- T2_ENABLE (R307). A write of T2_CTRL.ENABLE puts a tier-2 group in READY, or clearing it returns a LOST group to ABSENT. -/
  | t2Enable (g : Fin 4) (v : Bool)
  /-- T2_LOSS (R309). The link of a READY tier-2 group goes down; requests are refused, dirty lines dropped and the group enters LOST. -/
  | t2Loss (g : Fin 4)
  /-- T2_POISON (R308). A poisoned response from an expander is treated as an uncorrectable data error. -/
  | t2Poison (g : Fin 4) (addr : Nat)
  /-- CTX_CREATE (R316). Creates a context after reading and checking its range table. -/
  | ctxCreate
  /-- CTX_DESTROY (R317). Withdraws a context's space, aborts its faults, drops its cache entries and frees its ID. -/
  | ctxDestroy
  /-- REBASE (R326). Points a context at a new range table after checking it. -/
  | rebase
  /-- TABLE_CHECK_DONE (R319). The range-table check of CTX_CREATE or REBASE ends and the command completes. -/
  | tableCheckDone
  /-- UNMAP (R336). Withdraws every intersecting range entry, drops copies, tags queued work and sends ATS invalidations. -/
  | unmap
  /-- UNMAP_DRAIN_DONE (R336). Every access under the old translation is performed and every invalidation is completed; UNMAP completes OK. -/
  | unmapDrainDone
  /-- UNMAP_TIMEOUT (R337). UNMAP has not drained within 50 µs; remaining accesses are aborted and the command completes ABORTED. -/
  | unmapTimeout
  /-- PIN (R323). Copies a LOCAL range into a chosen cache as a pinned entry. -/
  | pin
  /-- UNPIN (R323). Removes a pinned range copy. -/
  | unpin
  /-- OWN (R342). Starts giving 2 MiB regions a new owner: CHANGING set, drain, back-invalidation and zero fill. -/
  | own
  /-- OWN_REGION_DONE (R342). A region's zero fill ends, the new entry is written everywhere and CHANGING clears. -/
  | ownRegionDone
  /-- TR_CMD_BUSY (R343). A TR_CMD write while a command runs is ignored with RESULT BUSY. -/
  | trCmdBusy (op : BitVec 4)
  /-- FAULT_RETRY (R330). FQ_RESUME with RETRY makes waiting requesters translate again and replay. -/
  | faultRetry (id : BitVec 12)
  /-- FAULT_ABORT (R330). FQ_RESUME with ABORT fails waiting requesters with translation errors. -/
  | faultAbort (id : BitVec 12)
  /-- REFUSED_FAULT_POST (R329). When queue and table room frees, remembered refused faults are posted oldest first. -/
  | refusedFaultPost
  /-- FQ_ENABLE (R344). A write of 1 to FQ_CTRL.ENABLE or HL_CTRL.ENABLE resets the ring pointers and phase. -/
  | fqEnable (hotList : Bool) (v : Word32)
  /-- HOT_LIST_POST (R332). An access count reaches THRESH and the page is posted to the hot list. -/
  | hotListPost (ctx : Byte) (page : BitVec 48)
  /-- ATS_TRANSLATION_REQUEST (R334). An engine's ATS Translation Request is answered from the context's range table. -/
  | atsTranslationRequest (e : EngineId) (pasid : BitVec 20) (va : Word64) (write : Bool)
  /-- PAGE_REQUEST (R335). An engine's Page Request posts a fault of KIND 2. -/
  | pageRequest (e : EngineId) (pasid : BitVec 20) (va : Word64) (access : BitVec 4)
  /-- INVALIDATE_COMPLETION (R336). An engine returns an ATS Invalidate Completion. -/
  | invalidateCompletion (e : EngineId)
  /-- HOST_MEM_READ (R414). A host CXL.mem read through the culvert is served by its home slice or refused. -/
  | hostMemRead (p : HostPortId) (off : BitVec 36) (metaValue : BitVec 2)
  /-- HOST_MEM_WRITE (R414). A host CXL.mem write through the culvert is served by its home slice or refused. -/
  | hostMemWrite (p : HostPortId) (off : BitVec 36) (mask : Word64) (data : List Byte)
  /-- CULVERT_MOVE (R416). A write of CUL_MOVE.GO starts a culvert move or is refused. -/
  | culvertMove
  /-- CULVERT_DISABLE (R417). A write clearing CUL_CTRL.ENABLE runs the move steps 1 to 3 and disables the culvert. -/
  | culvertDisable
  /-- CULVERT_ENABLE (R414). A write setting CUL_CTRL.ENABLE enables the culvert, or is ignored with ERR when CTX is 0 or barred. -/
  | culvertEnable (by_ : Requester) (ctx : Byte)
  /-- CULVERT_MOVE_DONE (R417). Every back-invalidation reply has arrived; CUL_BASE changes and waiting host requests are released. -/
  | culvertMoveDone
  /-- H2D_SNOOP (R422). A host snoop is answered from the rider cluster's host lines or with RspIHitI. -/
  | h2dSnoop (p : HostPortId) (addr : Word64) (kind : HostSnoop)
  /-- CACHE_WRITEBACK_INVALIDATE (R422). The host's Cache Writeback and Invalidate makes the rider cluster write back all host lines. -/
  | cacheWritebackInvalidate (p : HostPortId)
  /-- HOST_GO (R379). A host port receives the host's GO for a device write, which is then performed. -/
  | hostGo (p : HostPortId) (id : Nat)
  /-- PEER_READ_TIMEOUT (R463). A peer read gets no completion within the Completion Timeout Value and ends refused with PORT. -/
  | peerReadTimeout (g : GroupId) (i : Nat)
  /-- CONFIG_WRITE (R407). A host configuration write updates a function's configuration space. -/
  | configWrite (f : FunctionId) (a : ConfigWrite)
  /-- MSIX_UNMASK (R426). A vector becomes sendable with its pending bit set; one message is sent and the bit clears. -/
  | msixUnmask (f : FunctionId) (vector : BitVec 11)
  /-- MSIX_REQUEST (R426). A unit requests an MSI-X vector; it is sent after earlier writes are performed, or set pending. -/
  | msixRequest (f : FunctionId) (vector : BitVec 11)
  /-- D3HOT_ENTRY (R427). PF0 enters D3hot: headgates stop fetching and host-bound stores are performed and acknowledged. -/
  | d3hotEntry
  /-- D0_RETURN (R427). PF0 returns from D3hot to D0 with nothing reset. -/
  | d0Return
  /-- REQ (R428). A write of HF_WAKE.REQ is a wake event that sends PM_PME in D3hot. -/
  | req
  /-- PF0_FLR (R429). A PF0 FLR resets configuration, revokes VF contexts and halts headgates. -/
  | pf0Flr
  /-- VF_FLR (R432). A VF FLR revokes the VF's contexts, discards their host writes and completes within 1 ms. -/
  | vfFlr (k : Fin 64)
  /-- FLR_COMPLETE (R432). A running FLR completes and the function returns to service. -/
  | flrComplete (f : FunctionId)
  /-- HOT_RESET_DETACH (R430). A hot reset taken as DETACH resets the port's functions and detaches the host port. -/
  | hotResetDetach (p : HostPortId)
  /-- HOST_DETACH (R456). A host port detaches on DL_Down, DETACH reset, viral or IDE failure; writes are lost and records go to the holding ring. -/
  | hostDetach (p : HostPortId) (cause : BitVec 4)
  /-- LINK_RETRAIN (R455). A port link goes through Recovery without DL_Down; requests are held and flits replayed. -/
  | linkRetrain (g : GroupPortId)
  /-- VIRAL_RX (R424). A viral indication received from the host is treated as link down of that port. -/
  | viralRx (p : HostPortId)
  /-- IDE_FAILURE (R435). An IDE integrity failure or failed key refresh marks the group FAILED and raises the port IDE source. -/
  | ideFailure (g : GroupPortId)
  /-- PG_LINK_DOWN (R508). A port group link leaves UP, raising PG_DOWN. -/
  | pgLinkDown (g : GroupPortId)
  /-- DOORBELL (R440). A DOORBELL write sets TAIL and starts fetching slots, or sets BAD_DB. -/
  | doorbell (h : HeadId) (v : Word32)
  /-- RESUME (R444). A CONTROL RESUME write refetches the slot at HEAD of a halted headgate. -/
  | resume (h : HeadId)
  /-- HG_RESET (R444). A CONTROL RESET write waits for in-flight commands, then restarts the headgate at slot 0. -/
  | hgReset (h : HeadId)
  /-- SLOT_FETCH_RETURN (R442). A fetched slot returns; a valid one is consumed and advances HEAD, EXPSEQ and EXPPHASE. -/
  | slotFetchReturn (h : HeadId) (r : FetchResult)
  /-- REFETCH (R443). Every 450 FCLK an invalid slot is re-fetched, up to 16 times. -/
  | refetch (h : HeadId)
  /-- COMMAND_START (R447). The headgate unit starts one ready command per FCLK in round-robin order. -/
  | commandStart (h : HeadId)
  /-- HG_NOP (R446). Headgate command that completes. -/
  | hgNop (h : HeadId) (slot : Word16)
  /-- HG_COPY (R448). Headgate command that copies LENGTH bytes between virtual addresses. -/
  | hgCopy (h : HeadId) (slot : Word16) (hostData : List Byte) (fail : Option HgFail)
  /-- HG_INLINE (R450). Headgate command that writes LEN bytes of its body. -/
  | hgInline (h : HeadId) (slot : Word16) (fail : Option HgFail)
  /-- HG_SIGNAL (R446). Headgate command that adds to a tile signal. -/
  | hgSignal (h : HeadId) (slot : Word16)
  /-- HG_WAIT (R446). Headgate command that completes when a tile signal reaches a value. -/
  | hgWait (h : HeadId) (slot : Word16)
  /-- KERNEL (R449). Headgate command that launches a kernel on a mask of tiles. -/
  | kernel (h : HeadId) (slot : Word16)
  /-- COMPLETION_RECORD (R452). A command's completion record is written after its data writes are performed, or appended to the holding ring. -/
  | completionRecord (h : HeadId) (slot : Word16)
  /-- HG_ENABLE (R465). A write of HG_CFG.ENABLE starts a headgate, or is refused with CFG_ERR. -/
  | hgEnable (h : HeadId)
  /-- HG_DISABLE (R465). Clearing HG_CFG.ENABLE stops fetching; the headgate enters DISABLED once started commands complete. -/
  | hgDisable (h : HeadId)
  /-- DELIVER (R459). AT_ATTACH with DELIVER writes holding-ring entries to their targets and attaches the port when empty. -/
  | deliver (v : Word32)
  /-- COLLECT (R459). AT_ATTACH with COLLECT lets the driver read entries; the port attaches when HEAD equals TAIL. -/
  | collect (v : Word32)
  /-- HOLDING_ENTRY_DELIVERED (R459). In DELIVER a holding-ring entry's write is performed and HR_HEAD advances. -/
  | holdingEntryDelivered
  /-- HR_HEAD_WRITE (R464). In COLLECT a write of HR_HEAD + 1 removes an entry. -/
  | hrHeadWrite (v : Word32)
  /-- TO_ENABLE (R460). A write of TO_CFG.ENABLE enables a turnout entry, or is refused with TO_ERR. -/
  | toEnable (e : Fin 256)
  /-- TURNOUT_WRITE (R461). A BAR4 write is performed in device memory through a turnout entry, or refused. -/
  | turnoutWrite (off : BitVec 34) (data : List Byte)
  /-- TURNOUT_READ (R462). A BAR4 read completes after earlier turnout writes of the port are performed. -/
  | turnoutRead (off : BitVec 34) (len : ReadSpan)
  /-- ES_ENABLE (R467). A write of ES_CTRL.ENABLE starts slot training, or clearing it moves the slot to DISABLED. -/
  | esEnable (e : EngineId) (v : Bool)
  /-- ENGINE_TRAINED (R467). Training completes and the descriptor is read; the slot enters HELD. -/
  | engineTrained (e : EngineId) (link : EngineLink)
  /-- ADMIT (R470). A write of ES_CTRL.ADMIT admits the engine or sets ADMIT_ERR. -/
  | esAdmit (e : EngineId) (powerGranted : Bool) (rtt : Word16)
  /-- ES_RESET (R481). A write of ES_CTRL.RESET loses the engine and sends a link reset. -/
  | esReset (e : EngineId)
  /-- HOLD (R475). Writing ES_CTRL.HOLD sends HOLD or RELEASE to the engine. -/
  | hold (e : EngineId) (v : Bool)
  /-- IRQ (R475). An IRQ message from the engine requests a vector of its function. -/
  | irq (e : EngineId) (index : BitVec 5)
  /-- ECHO (R478). An ECHO from the engine yields an RTT measurement, compared with ES_LAT. -/
  | echo (e : EngineId) (seq : Word16) (elapsed : Word16)
  /-- HELD_ACK (R475). A HELD_ACK from the engine sets HOLD_ACK. -/
  | heldAck (e : EngineId)
  /-- ECHO_TIMEOUT (R478). ECHO is missing for 8 turns and the engine is lost. -/
  | echoTimeout (e : EngineId)
  /-- ENGINE_SCHED_REQUEST (R479). A scheduled engine request reaches the slot's stop in an ISSUE entry and is performed, or discarded under R480. -/
  | engineSchedRequest (e : EngineId) (r : EngineRequest)
  /-- ENGINE_D2H_REQUEST (R471). An engine CXL.cache request is translated and served as an internal request, or refused. -/
  | engineD2hRequest (e : EngineId) (pasid : BitVec 20) (r : EngineD2H)
  /-- ENGINE_LOSS (R481). The engine is lost; the slot enters LOST and its agent dies. -/
  | engineLoss (e : EngineId)
  /-- ENGINE_VIRAL_RX (R473). Viral received from the engine is treated as loss of the engine. -/
  | engineViralRx (e : EngineId)
  /-- PASID_UNBIND (R472). Clearing an ES_PASID bit runs UNMAP semantics for the context toward the slot. -/
  | pasidUnbind (e : EngineId) (ctx : Byte)
  /-- PASID_BIND (R472). Setting an ES_PASID bit binds a context, or is ignored with BIND_ERR. -/
  | pasidBind (e : EngineId) (ctx : Byte)
  /-- MMIO_READ (R474). ES_MMIO GO with WRITE 0 sends one 4-byte MRd to the engine. -/
  | mmioRead (e : EngineId)
  /-- MMIO_WRITE (R474). ES_MMIO GO with WRITE 1 sends one 4-byte MWr to the engine. -/
  | mmioWrite (e : EngineId)
  /-- MMIO_COMPLETION (R474). The engine's completion arrives and ES_MMIO_STAT reports OK or UR. -/
  | mmioCompletion (e : EngineId) (unsupported : Bool) (data : Word32)
  /-- MMIO_TIMEOUT (R474). No completion arrives within 1 ms and the access ends TIMEOUT. -/
  | mmioTimeout (e : EngineId)
  /-- ES_GRANT_WRITE (R484). A write to ES_GRANTk is ignored with GRANT_ERR while a rotation runs. -/
  | esGrantWrite (e : EngineId) (k : Fin 180) (v : Word32)
  /-- IMAGE_AUTHENTICATED (R488). The security block writes the authenticated image and the ROM jumps to it. -/
  | imageAuthenticated (image : List Byte)
  /-- IMAGE_TIMEOUT (R489). No image 2 s after the request, or authentication fails; the ROM records FAILED, closes the levee and halts. -/
  | imageTimeout (authFailed : Bool)
  /-- LEVEE_CLOSE (R494). A write of LV_CTRL.LEVEE_CLOSE locks the levee and loads key slots. -/
  | leveeClose
  /-- KEYS_LOADED (R494). The last key slot is loaded; CLOSED is set, ports answer configuration normally and core 1 is released. -/
  | keysLoaded
  /-- SCRUB_DONE (R488). The entry scrub of RETURNED completes and rider core 0 is released. -/
  | scrubDone
  /-- RUN_RELEASE (R487). A write of 1 to RC_CTRL.RUN bit k releases rider core k, or is refused with ERR. -/
  | runRelease (k : RiderId)
  /-- RUN_RESET (R487). A write of 0 to RC_CTRL.RUN bit k resets rider core k, which becomes dead. -/
  | runReset (k : RiderId)
  /-- RIDER_ACCESS_FAULT (R486). A rider core access outside its map or missing a range raises an access fault at the core. -/
  | riderAccessFault (k : RiderId) (addr : Word64) (kind : BitVec 2)
  /-- CHALLENGE (R504). A write of DBG_CTRL.CHALLENGE replaces DBG_NONCE with a fresh value. -/
  | challenge
  /-- GRANT_INSTALL (R504). The security block passes a verified grant; it is installed if its nonce and signer match. -/
  | grantInstall (grant : DebugGrant)
  /-- REVOKE (R505). A write of DBG_CTRL.REVOKE ends the debug grant. -/
  | revoke
  /-- GRANT_EXPIRY (R505). DBG_LEFT reaches 0 and the grant ends, clearing breakpoints and releasing holds. -/
  | grantExpiry
  /-- SOURCE_EVENT (R511). An event on an enabled watermaster source sets STATUS or raises LEVEL and takes the reaction. -/
  | sourceEvent (source : Fin 192) (ctxs : List Byte) (map : EventMap)
  /-- SAFE_DRAIN_DONE (R520). Held device-memory stores are performed and host and canal writes discarded; DRAINED is set. -/
  | safeDrainDone
  /-- WM_STATUS_CLEAR (R513). A W1C write of a source's STATUS clears it and returns LEVEL to SEVERITY unless its cause persists. -/
  | wmStatusClear (source : Fin 192) (together : Bool)
  /-- SEVERITY_WRITE (R515). A write of SEVERITY also sets LEVEL while STATUS is 0. -/
  | severityWrite (source : Fin 192) (v : BitVec 2)
  /-- FORCE_WRITE (R516). In MAKER, setting FORCE is an event of the source and a persistent cause. -/
  | forceWrite (source : Fin 192) (v : Bool)
  /-- WM_RAISE (R517). A write of WM_RAISE.SOURCE from 156 to 191 is an event of that source. -/
  | wmRaise (by_ : Requester) (v : Byte)
  /-- WM_SELFCHECK_FAIL (R538). The watermaster's two copies disagree, raising WM_SELFCHECK and block-fatal. -/
  | wmSelfcheckFail
  /-- ALIVE_TOGGLE (R523). Every 2,000 TCLK while out of reset and not SAFE, the ALIVE output inverts. -/
  | aliveToggle
  /-- DIGEST_MISSING (R528). No valid twin digest has arrived by the last cycle of turn U + 1, or release is overdue. -/
  | digestMissing
  /-- TWIN_ITEM (R525). A parcel or host-bound write adds its CRC to the turn's digest and a write enters the release buffer. -/
  | twinItem (i : TwinItem)
  /-- POWER_ON (R544). A rail-good rise or fall starts a cold reset with POR. -/
  | powerOn (rising : Bool) (lifecycle : BitVec 3) (fuses : BitVec 50)
  /-- FUNDAMENTAL (R544). A fundamental reset from the hub starts a cold reset. -/
  | fundamental
  /-- HOT (R544). A hot reset on host port 0 with HR0 = 1 starts a cold reset. -/
  | hot
  /-- WATCHDOG (R554). The watchdog count reaches TIMEOUT × 1,000 TCLK and takes a warm reset. -/
  | watchdog
  /-- PAR_SEQ (R553). A program-counter parity error resets its tile. -/
  | parSeq (t : TileId)
  /-- PAR_DIR (R544). A parity error in slice transaction state starts a warm reset. -/
  | parDir (n : SliceId)
  /-- PAR_LEVEE (R495). A parity error in a levee register or RW-L field starts a cold reset. -/
  | parLevee
  /-- PAR_RSTC (R544). The reset controller's two state copies disagree and a cold reset starts. -/
  | parRstc
  /-- WARM (R544). A write of RST_CTRL.WARM starts a warm reset with SOFT. -/
  | warm
  /-- TWIN_RST_IN (R555). A rise of TWIN_RST_IN while TWIN is 1 starts a warm reset with TWIN. -/
  | twinRstIn
  /-- CLKLOSS (R550). CG_ROOT or CG_REF falls after release and a warm reset starts. -/
  | clkloss (root : Bool)
  /-- BLOCK_RESET_ASSERT (R548). Block reset is asserted in every unit within 16 SCLK; HBM enters self-refresh when tier 1 is kept. -/
  | blockResetAssert
  /-- BLOCK_RELEASE (R549). After 4,096 steady TCLK the register bus, watermaster and reset controller are released and units follow. -/
  | blockRelease
  /-- UNITS_RELEASE (R549). At TCLK 16 the HBM controllers, tiles, links and other units are released and slices start initialization. -/
  | unitsRelease
  /-- SLICE_INIT_DONE (R549). Home slices finish initialization; port groups and rider core 0 are released. -/
  | sliceInitDone
  /-- MIRROR_RELOAD (R549). With T1_KEPT, stacks leave self-refresh and the translation unit reloads its mirrors and is released. -/
  | mirrorReload
  /-- TILE_RESET (R552). A bit of RST_TILE resets a logical tile. -/
  | tileReset (t : TileId)
  /-- LINK_RESET (R552). A bit of RST_LINK resets a canal link. -/
  | linkReset (l : LinkId)
  /-- SLOT_RESET (R552). A SLOTS bit of RST_UNIT resets an engine slot. -/
  | slotReset (e : EngineId)
  /-- T2_RESET (R552). A T2 bit of RST_UNIT resets a tier-2 port group to ABSENT. -/
  | t2Reset (g : Fin 4)
  /-- OBS_RESET (R552). The OBS bit of RST_UNIT resets the observation and race port unit. -/
  | obsReset
  /-- RIDER_RESET (R496). A RIDER bit of RST_UNIT restarts rider core 0 or 1 at its firmware entry. -/
  | riderReset (c : Fin 2)
  /-- UNIT_RELEASE (R552). A unit reset ends and the unit is released; its RST bit reads 0. -/
  | unitRelease (u : ResetUnit)
  /-- WD_ENABLE (R554). A write setting RST_WD.ENABLE starts the watchdog count. -/
  | wdEnable (timeout : BitVec 24)
  /-- KICK (R554). A write of 0xC35A to RST_WD_KICK restarts the watchdog count. -/
  | kick (key : Word16)
  /-- RETIRE (R556). A write of RST_RETIRE.GO fuses a physical tile as retired or is refused. -/
  | retire (ptile : BitVec 6)
  /-- OTP_PULSE_END (R551). A fuse write pulse ends and any deferred block reset is asserted. -/
  | otpPulseEnd (checkOk : Bool)
  /-- ACTIVITY_ESTIMATE (R558). Every 100 TCLK the block sends its activity estimate to the power manager. -/
  | activityEstimate (energy : Word16)
  /-- POWER_REPORT (R558). The power manager's millisecond report updates PW_TELEM.POWER and PW_STATE. -/
  | powerReport (power : Word16) (window : BitVec 2) (boostLeft : BitVec 11) (peakLeft : BitVec 5)
  /-- POWER_BOOST (R560). The power manager reports the boost window used up. -/
  | powerBoost
  /-- POWER_PEAK (R560). The power manager reports the peak limit breached. -/
  | powerPeak
  /-- THERMAL (R561). The hub reports a thermal trip. -/
  | thermal
  /-- CLEAR (R573). A write of OBS_CTRL.CLEAR resets every full counter. -/
  | clear
  /-- SAMPLE_LATCH (R575). At each sample period the selected counters are latched and a record is written or skipped. -/
  | sampleLatch
  /-- SMP_ENABLE (R610). A write setting SMP_CTRL.ENABLE resets SMP_TAIL and SMP_HEAD. -/
  | smpEnable (v : Word32)
  /-- TRACE_RECORD (R579). A unit's record enters the trace ring or is dropped under the policy, gating or freeze. -/
  | traceRecord (r : TraceRecord)
  /-- FIRE (R584). A write of TR_TRIG.FIRE is a SOFTWARE trigger event. -/
  | fire
  /-- TRIGGER (R584). The first armed trigger event clears ARM, sets TRIGGERED and writes the TRIGGER record. -/
  | trigger (kind : BitVec 3) (source : Byte)
  /-- REARM (R585). A write of TR_CTRL.REARM clears TRIGGERED and FROZEN. -/
  | rearm
  /-- TR_ENABLE (R585). A write setting TR_CTRL.ENABLE resets the ring pointers and clears TRIGGERED and FROZEN. -/
  | trEnable (v : Word32)
  /-- TR_HEAD_WRITE (R587). A software write of TR_HEAD moves it forward, or is ignored. -/
  | trHeadWrite (v : Word32)
  /-- GO (R589). A write of OBS_DP_CTRL.GO is a dump point that matches an armed request or yields NONE. -/
  | go (t : TileId)
  /-- DUMP_FLIT_ISSUE (R591). A scheduled dump flit issues at its cycle, or ends the dump with MISS on a sluice collision. -/
  | dumpFlitIssue (t : TileId) (collision : Bool)
  /-- DUMP_DONE (R593). A dump's last flit passes or its header is performed; BUSY clears and the result is recorded. -/
  | dumpDone (t : TileId)
  /-- BREAKPOINT_HIT (R594). A sequencer reaches OBS_BP.ADDR and halts, beginning a block halt. -/
  | breakpointHit (t : TileId)
  /-- OBS_HALT_GO (R594). A write of OBS_HALT.GO begins a SOFTWARE halt, or is refused. -/
  | obsHaltGo
  /-- HALT_WORD (R596). A new HALT word begins a DOMAIN halt and is forwarded; an old one is dropped. -/
  | haltWord (l : LinkId) (v : Word64)
  /-- RESUME_WORD (R597). A new RESUME word schedules the resume turn and is forwarded. -/
  | resumeWord (l : LinkId) (v : Word64)
  /-- OBS_RESUME (R597). A write of OBS_RESUME.TURN sends a RESUME word, or is refused. -/
  | obsResume (turn : Word64)
  /-- SNAP_GO (R599). A write of SNAP_CTRL.GO starts a hang snapshot, or is refused. -/
  | snapGo
  /-- SNAP_CAPTURE (R599). Every unit captures its state in one common FCLK 16 FCLK after GO. -/
  | snapCapture
  /-- SNAP_DONE (R599). The snapshot region is written and BUSY clears. -/
  | snapDone
  /-- RACE_MODE (R601). A write of RACE_CTRL.MODE turns the race lanes to OFF, TAILRACE or HEADRACE. -/
  | raceMode (mode : BitVec 2)
  /-- TRACE_PACKET_SEND (R602). The tailrace sends up to 32 trace records and advances TR_HEAD. -/
  | tracePacketSend (count : Nat)
  /-- FRAME_PACKET (R603). A FRAME packet arrives and is assembled into a frame, or the frame is discarded. -/
  | framePacket (p : FramePacket)
  /-- HEADRACE_DELIVERY_START (R605). At a stream's start a delivery takes the oldest complete frame or is MISSING. -/
  | headraceDeliveryStart (stream : Fin 16)
  /-- HEADRACE_FLIT (R605). In a valid headrace slot the port injects one frame or status line flit into the target slab. -/
  | headraceFlit (stream : Fin 16)
  /-- HR_MAPDATA_WRITE (R610). A write of HR_MAPDATA stores a map entry and advances SLOT, or is ignored with MAP_WERR. -/
  | hrMapdataWrite (v : Word32)
  /-- PG_LINK_UP (R403). A port group link completes training and enters UP, so a host port can be attached again and LSTATE reads UP. -/
  | pgLinkUp (g : GroupPortId) (speed : BitVec 3) (width : BitVec 5) (flit256 cxl : Bool)
  /-- IDE_KM_REQUEST (R434). An IDE_KM message over SPDM on a port's DOE mailbox programs stream keys and moves a stream to SECURE. -/
  | ideKmRequest (g : GroupPortId) (m : IdeKm)
  /-- RIDER_FENCE (R395). A rider core executes a FENCE that orders as FENCE.ORD, or waits for acknowledgement as FENCE.END when i or o is in its predecessor set. -/
  | riderFence (k : RiderId) (io : Bool)
  /-- CLOCK_GOOD_RISE (R550). CG_ROOT or CG_REF returns to 1; after a CG_REF loss the warm reset is asserted in the first TCLK after the return, and the steady count starts. -/
  | clockGoodRise (root : Bool)
  /-- CLOCK_GOOD_FALL_IN_RESET (R549). CG_ROOT or CG_REF falls during the 4,096-TCLK steady count before release, and the count restarts. -/
  | clockGoodFallInReset (root : Bool)
  /-- OWNER_CACHE_FILL (R340). A home slice's owner cache receives a missing entry from the HBM controller's mirror or from the table, and the coherent request that waited on it is checked. -/
  | ownerCacheFill (n : SliceId) (entry : Nat)
  /-- TIER_READ_RETURN (R40). Data of an uncached coherent-plane tier read, such as a read of a rotation-locked granule or a non-allocating STREAM or DEVICE read, returns to the home slice and the request completes. -/
  | tierReadReturn (n : SliceId) (m : CohMsg) (ecc : EccResult)
  /-- HBM_ZERO_FILL_DONE (R501). In RETURNED, an HBM controller finishes writing zeros to its whole stack and starts accepting accesses. -/
  | hbmZeroFillDone (k : StackId)
  /-- ENGINE_POWER_EXCEEDED (R562). The power manager reports that an engine draws more than its POWER class, raising ENGINE_POWER. -/
  | enginePowerExceeded (e : EngineId)
  /-- RACE_LANES_ALIGNED (R601). The race-port receiver finds lane alignment markers and RACE_STATUS.LSTATE moves from ALIGNING to UP, or it loses alignment. -/
  | raceLanesAligned (aligned : Bool)
deriving DecidableEq, Repr

end Sys2Proof
end

