-- ==== Sys2Proof/Decode.lean ====
section
/-! DEFINITION. Words of the table of operations and events: spec/opcode_table.json gives its rows a name and a rule and
no bits, so no word spells a command. -/

namespace Sys2Proof

/-- The command that a word of n bits spells: none, as no row of the table has bits. -/
def decodeTableWord (_nbits _w : Nat) : Option Instr := none

end Sys2Proof
end

