-- ==== Sys2Proof/Config.lean ====
section
/-! DEFINITION. What the spec leaves open: free values. Each constant is opaque: no statement can rest on a value of
it. A free value is applied to a number that State.fresh supplies, so that two uses need not agree, or to the operands
where the spec makes the value a function of them. -/

namespace Sys2Proof.Config

/-- Contents the spec leaves unspecified (R69, R99, R180, R294): the bits of the item at an index of the use with a
stamp. -/
opaque freeBits : Nat → Nat → Nat
/-- A choice the spec leaves open. -/
opaque freeBool : Nat → Bool
/-- RSQ in the cases that R164 bounds but does not fix: whether the fixed result lies above the exact value. -/
opaque rsqUp : Word32 → Bool
/-- EX2 in the cases that R164 bounds but does not fix: whether the fixed result lies above the exact value. -/
opaque ex2Up : Word32 → Bool
/-- LG2 in the cases that R164 bounds but does not fix, in the same form. -/
opaque lg2Up : Word32 → Bool
/-- SINPI in the cases that R164 bounds but does not fix, in the same form. -/
opaque sinpiUp : Word32 → Bool
/-- COSPI in the cases that R164 bounds but does not fix, in the same form. -/
opaque cospiUp : Word32 → Bool
/-- Whether a fused multiply-add of 0 and infinity with a quiet NaN addend raises NV: IEEE 754, which R74 names,
leaves it to the implementation. -/
opaque fmaInvalidWithNaN : Bool
/-- The integer of WRND when the rounded value does not fit the 192 bits: R162 states no result there. -/
opaque wrndInt : Word32 → BitVec 16 → BitVec 192
/-- The die serial that the hub security block supplies (R406). -/
opaque dieSerial : Word64
/-- The key that the device secret, LABEL, a key slot and the life-cycle class give (R499). -/
opaque persistKey (label slot cls : Nat) : BitVec 512
/-- A fresh random key (R499). -/
opaque randomKey : Nat → BitVec 512
/-- Whether a Page Request Group that is pending when its slot is lost is answered with Response Failure: R335 says that it is, R481
that no response is sent. -/
opaque prgFailure : Bool
/-- The random nonce of a debug challenge (R504). -/
opaque nonce : Nat → Word64

/-- The set of the access-counter cache that a page falls in: R332 gives 8 ways and no index. -/
opaque acSet : Byte → Nat → Nat

/-- The FCLK from the far link's stop to the end of a canal S parcel's write, by its far chip and line (R225): the routes and
relays beyond the link are not this block's. -/
opaque farLatency : BitVec 9 → BitVec 35 → Nat

end Sys2Proof.Config
end

