-- ==== Sys2Proof/Machine/Cipher.lean ====
section
/-! DEFINITION. AES-256 and its XTS mode (R305): the cipher of the lines of tier 1 and tier 2. -/

namespace Sys2Proof.Machine

/-! ### The field of AES -/

/-- Twice a byte in the field of AES. -/
def aesDouble (b : Byte) : Byte := (b <<< 1) ^^^ (if b.msb then 0x1B else 0)

/-- The product of two bytes in the field of AES. -/
def aesMul (a b : Byte) : Byte :=
  ((List.range 8).foldl (fun (r : Byte × Byte) i => (if b.getLsbD i then r.1 ^^^ r.2 else r.1, aesDouble r.2)) (0, a)).1

/-- The inverse of a byte, 0 for 0: its power 254. -/
def aesInv (a : Byte) : Byte :=
  let a2 := aesMul a a
  let a4 := aesMul a2 a2
  let a8 := aesMul a4 a4
  let a16 := aesMul a8 a8
  let a32 := aesMul a16 a16
  let a64 := aesMul a32 a32
  let a128 := aesMul a64 a64
  aesMul a128 (aesMul a64 (aesMul a32 (aesMul a16 (aesMul a8 (aesMul a4 a2)))))

def aesSub (b : Byte) : Byte :=
  let x := aesInv b
  x ^^^ x.rotateLeft 1 ^^^ x.rotateLeft 2 ^^^ x.rotateLeft 3 ^^^ x.rotateLeft 4 ^^^ 0x63

def aesUnsub (b : Byte) : Byte := aesInv (b.rotateLeft 1 ^^^ b.rotateLeft 3 ^^^ b.rotateLeft 6 ^^^ 0x05)

/-! ### Blocks: 16 bytes, byte 4c + r in row r of column c -/

def xorBytes (a b : List Byte) : List Byte := List.zipWith (· ^^^ ·) a b

/-- The rows of a block shifted left by k times their number. -/
def aesShift (k : Nat) (x : List Byte) : List Byte :=
  (List.range 16).map (fun i => x.getD ((i + 4 * k * (i % 4)) % 16) 0)

/-- The columns of a block multiplied by a polynomial, given by the first row of its matrix. -/
def aesColumns (m : List Byte) (x : List Byte) : List Byte :=
  (List.range 16).map (fun i =>
    (List.range 4).foldl (fun a j => a ^^^ aesMul (m.getD ((j + 4 - i % 4) % 4) 0) (x.getD (i / 4 * 4 + j) 0)) 0)

/-- The 15 round keys of AES-256, as words of 4 bytes: 60 of them. -/
def aesKeys (key : List Byte) : List (List Byte) :=
  let first := (List.range 8).map (fun i => (key.drop (4 * i)).take 4)
  ((List.range 52).foldl (fun (r : List (List Byte) × Byte) j =>
    let i := j + 8
    let last := r.1.getD (i - 1) []
    let t :=
      if i % 8 = 0 then xorBytes ((last.drop 1 ++ last.take 1).map aesSub) [r.2, 0, 0, 0]
      else if i % 8 = 4 then last.map aesSub
      else last
    (r.1 ++ [xorBytes (r.1.getD (i - 8) []) t], if i % 8 = 0 then aesDouble r.2 else r.2)) (first, 1)).1

def aesRound (ks : List (List Byte)) (n : Nat) : List Byte := ((ks.drop (4 * n)).take 4).flatten

/-- AES-256 of one block. -/
def aesEncrypt (ks : List (List Byte)) (x : List Byte) : List Byte :=
  let y := (List.range 13).foldl (fun y n =>
    xorBytes (aesColumns [2, 3, 1, 1] (aesShift 1 (y.map aesSub))) (aesRound ks (n + 1))) (xorBytes x (aesRound ks 0))
  xorBytes (aesShift 1 (y.map aesSub)) (aesRound ks 14)

/-- The inverse of AES-256 of one block. -/
def aesDecrypt (ks : List (List Byte)) (x : List Byte) : List Byte :=
  let y := ((aesShift 3 (xorBytes x (aesRound ks 14))).map aesUnsub)
  (List.range 13).foldl (fun y n =>
    (aesShift 3 (aesColumns [14, 11, 13, 9] (xorBytes y (aesRound ks (13 - n))))).map aesUnsub) y
    |> fun y => xorBytes y (aesRound ks 0)

/-! ### XTS (IEEE 1619) -/

/-- The bytes of a number, the lowest first. -/
def bytesLE (n : Nat) (x : Nat) : List Byte := (List.range n).map (fun i => BitVec.ofNat 8 (x / 2 ^ (8 * i)))

/-- The next tweak: twice, in the field of XTS. -/
def xtsDouble (t : Nat) : Nat := if 2 ^ 127 ≤ t then Nat.xor (2 * t % 2 ^ 128) 0x87 else 2 * t

def natLE (bs : List Byte) : Nat := bs.foldr (fun b n => b.toNat + 256 * n) 0

/-- A line of whole blocks under XTS with a block cipher in one direction: the key pair has the key of the data in its lower half
and that of the tweak in its upper half. -/
def xtsLine (block : List (List Byte) → List Byte → List Byte) (key : BitVec 512) (tweak : Nat) (line : List Byte) : List Byte :=
  let k1 := aesKeys (bytesLE 32 (key.toNat % 2 ^ 256))
  let k2 := aesKeys (bytesLE 32 (key.toNat / 2 ^ 256))
  let t0 := natLE (aesEncrypt k2 (bytesLE 16 tweak))
  ((List.range (line.length / 16)).foldl (fun (r : List Byte × Nat) j =>
    let t := bytesLE 16 r.2
    (r.1 ++ xorBytes t (block k1 (xorBytes t ((line.drop (16 * j)).take 16))), xtsDouble r.2)) ([], t0)).1

def xtsEncrypt (key : BitVec 512) (tweak : Nat) (line : List Byte) : List Byte := xtsLine aesEncrypt key tweak line

def xtsDecrypt (key : BitVec 512) (tweak : Nat) (line : List Byte) : List Byte := xtsLine aesDecrypt key tweak line

end Sys2Proof.Machine
end

