-- ==== Sys2Proof/Machine/Float.lean ====
section
/-! DEFINITION. Number formats (R45 to R47), exact values, and one rounding function for every conversion and every
lane operation (R63, R64, R74): an exact dyadic value, with a sticky bit for what lies below it, is rounded once. -/

namespace Sys2Proof.Machine

/-- Arithmetic flags in the bit order of VC_FLAGS: NV [4], DZ [3], OF [2], UF [1], NX [0] (R106, R151). -/
abbrev FFlags := BitVec 5

def FFlags.NV : FFlags := 0x10#5
def FFlags.DZ : FFlags := 0x08#5
def FFlags.OF : FFlags := 0x04#5
def FFlags.UF : FFlags := 0x02#5
def FFlags.NX : FFlags := 0x01#5

/-- A floating-point format of R45. FP4, FP6 and E4M3 use the highest
exponent for finite values. -/
structure Fmt where
  ebits : Nat
  mbits : Nat
  bias : Nat
  /-- the format has an infinity -/
  inf : Bool
  /-- the format has NaNs -/
  nan : Bool
  /-- the canonical NaN of R64 -/
  canon : Nat
deriving DecidableEq, Repr

/-- The formats of R45. -/
def Fmt.fp4 : Fmt := ⟨2, 1, 1, false, false, 0⟩
def Fmt.fp6a : Fmt := ⟨2, 3, 1, false, false, 0⟩
def Fmt.fp6b : Fmt := ⟨3, 2, 3, false, false, 0⟩
def Fmt.e4m3 : Fmt := ⟨4, 3, 7, false, true, 0x7F⟩
def Fmt.e5m2 : Fmt := ⟨5, 2, 15, true, true, 0x7E⟩
def Fmt.f16 : Fmt := ⟨5, 10, 15, true, true, 0x7E00⟩
def Fmt.bf16 : Fmt := ⟨8, 7, 127, true, true, 0x7FC0⟩
def Fmt.f32 : Fmt := ⟨8, 23, 127, true, true, 0x7FC00000⟩

/-- The format's width in bits. -/
def Fmt.width (f : Fmt) : Nat := 1 + f.ebits + f.mbits

/-- An exact value: NaN, an infinity, a signed zero, or (−1)^neg × m × 2^e with m positive. -/
inductive FVal where
  | nan (signaling : Bool)
  | inf (neg : Bool)
  | zero (neg : Bool)
  | fin (neg : Bool) (m : Nat) (e : Int)
deriving DecidableEq, Repr

/-- The value of an encoding (R45). A NaN whose highest mantissa bit is 0 is signaling; E4M3 has one NaN per sign,
which is quiet. -/
def Fmt.decode (f : Fmt) (bits : Nat) : FVal :=
  let man := bits % 2 ^ f.mbits
  let ex := bits / 2 ^ f.mbits % 2 ^ f.ebits
  let neg := bits / 2 ^ (f.mbits + f.ebits) % 2 == 1
  let top := 2 ^ f.ebits - 1
  if f.inf && ex == top && man == 0 then .inf neg
  else if f.inf && ex == top then .nan (man < 2 ^ (f.mbits - 1))
  else if f.nan && !f.inf && ex == top && man == 2 ^ f.mbits - 1 then .nan false
  else if ex == 0 && man == 0 then .zero neg
  else if ex == 0 then .fin neg man (1 - f.bias - f.mbits)
  else .fin neg (2 ^ f.mbits + man) ((ex : Int) - f.bias - f.mbits)

/-- The encoding of a sign above the other bits. -/
def Fmt.withSign (f : Fmt) (neg : Bool) (bits : Nat) : Nat := if neg then bits + 2 ^ (f.mbits + f.ebits) else bits

/-- The encoding of the largest finite value, without its sign (R45). -/
def Fmt.maxFinite (f : Fmt) : Nat :=
  if f.inf then 2 ^ (f.mbits + f.ebits) - 2 ^ f.mbits - 1
  else if f.nan then 2 ^ (f.mbits + f.ebits) - 2
  else 2 ^ (f.mbits + f.ebits) - 1

/-- The encoding of infinity without its sign; a format without one is given its NaN, as R66 says for E4M3. -/
def Fmt.infBits (f : Fmt) : Nat := if f.inf then 2 ^ (f.mbits + f.ebits) - 2 ^ f.mbits else f.canon

/-- Rounding modes of R63. -/
inductive RM where
  | rne | rtz | rdn | rup | rna
deriving DecidableEq, Repr

/-- The mode of a 3-bit encoding; 0b101 to 0b111 name none (R63). -/
def RM.decode : Nat → Option RM
  | 0 => some .rne
  | 1 => some .rtz
  | 2 => some .rdn
  | 3 => some .rup
  | 4 => some .rna
  | _ => none

/-- Whether the magnitude is rounded up, given its kept low bit, the discarded part compared with one half (less,
equal or greater) and whether anything is discarded. -/
def RM.up (rm : RM) (neg odd : Bool) (half : Ordering) (inexact : Bool) : Bool :=
  match rm with
  | .rne => half == .gt || (half == .eq && odd)
  | .rtz => false
  | .rdn => neg && inexact
  | .rup => !neg && inexact
  | .rna => half != .lt

/-- m × 2^e plus a sticky part below its last place, rounded to a multiple of 2^q: the multiple, and whether it is
inexact. -/
def roundAt (rm : RM) (neg : Bool) (m : Nat) (e q : Int) (sticky : Bool) : Nat × Bool :=
  if q ≤ e then (m * 2 ^ (e - q).toNat + (if sticky && rm.up neg false .lt true then 1 else 0), sticky)
  else
    let sh := (q - e).toNat
    let kept := m / 2 ^ sh
    let rem := m % 2 ^ sh
    let half := compare (2 * rem) (2 ^ sh)
    let half := if sticky && half == .eq then .gt else half
    let inexact := rem != 0 || sticky
    (kept + (if rm.up neg (kept % 2 == 1) half inexact then 1 else 0), inexact)

/-- A result's bits with the flags it raises. -/
structure FRes where
  bits : Nat
  flags : FFlags
deriving DecidableEq, Repr

/-- Whether an overflow in the mode gives an infinity before R66 (R64 line 5). -/
def RM.overflowToInf (rm : RM) (neg : Bool) : Bool :=
  match rm with
  | .rne | .rna => true
  | .rtz => false
  | .rdn => neg
  | .rup => !neg

/-- R66 for a result that R64 gives as an infinity of the sign, with the flags that R64 gives. -/
def Fmt.infRule (f : Fmt) (sat : Bool) (neg : Bool) (flags : FFlags) : FRes :=
  if sat && (f == .e4m3 || f == .e5m2) then ⟨f.withSign neg f.maxFinite, FFlags.OF ||| FFlags.NX⟩
  else if f == .e4m3 then ⟨f.canon, FFlags.NV⟩
  else ⟨f.withSign neg f.infBits, flags⟩

/-- The IEEE 754 rounding of a nonzero magnitude m × 2^e (plus a sticky part), once, in the mode: an overflow as
line 5 of R64 and R66 give, subnormal results produced, tininess detected after rounding. -/
def Fmt.round (f : Fmt) (rm : RM) (sat neg : Bool) (m : Nat) (e : Int) (sticky : Bool) : FRes :=
  let emin : Int := 1 - f.bias
  let len : Int := (Nat.log2 m : Int) + 1
  let p : Int := f.mbits + 1
  -- rounded with an unbounded exponent, for tininess after rounding
  let qU := e + len - p
  let (mU, _) := roundAt rm neg m e qU sticky
  let tiny := (Nat.log2 mU : Int) + qU < emin
  let q := max qU (emin - f.mbits)
  let (mR, inexact) := roundAt rm neg m e q sticky
  let nx : FFlags := if inexact then FFlags.NX else 0
  let uf : FFlags := if inexact && tiny then FFlags.UF else 0
  if mR == 0 then ⟨f.withSign neg 0, nx ||| uf⟩
  else
    let (mN, qN) := if mR == 2 ^ (f.mbits + 1) then (2 ^ f.mbits, q + 1) else (mR, q)
    let bits : Int := if mN < 2 ^ f.mbits then mN else (qN + f.mbits + f.bias) * 2 ^ f.mbits + (mN - 2 ^ f.mbits)
    if bits.toNat > f.maxFinite then
      if rm.overflowToInf neg then f.infRule sat neg (FFlags.OF ||| FFlags.NX)
      else ⟨f.withSign neg f.maxFinite, FFlags.OF ||| FFlags.NX⟩
    else ⟨f.withSign neg bits.toNat, nx ||| uf⟩

/-- The canonical NaN, with NV where the condition holds. -/
def Fmt.nanRes (f : Fmt) (nv : Bool) : FRes := ⟨f.canon, if nv then FFlags.NV else 0⟩

/-- A value rounded to a format (R161, between floating-point types): zeros keep their sign, a NaN raises NV only when
it is signaling, an infinity is the infinity of line 2 of R64 under R66. -/
def FVal.toFmt (f : Fmt) (rm : RM) (sat : Bool) : FVal → FRes
  | .nan sn => f.nanRes sn
  | .inf neg => f.infRule sat neg 0
  | .zero neg => ⟨f.withSign neg 0, 0⟩
  | .fin neg m e => f.round rm sat neg m e false

/-- The exact signed integer of a finite value in units of 2^e. -/
def FVal.atExp (v : FVal) (e0 : Int) : Int :=
  match v with
  | .fin neg m e => let k : Int := (m * 2 ^ (e - e0).toNat : Nat); if neg then -k else k
  | _ => 0

/-- The exponent of a finite nonzero value, or none. -/
def FVal.exp? : FVal → Option Int
  | .fin _ _ e => some e
  | _ => none

def FVal.isNaN : FVal → Bool
  | .nan _ => true
  | _ => false

def FVal.isSNaN : FVal → Bool
  | .nan s => s
  | _ => false

def FVal.isZero : FVal → Bool
  | .zero _ => true
  | _ => false

def FVal.neg : FVal → Bool
  | .nan _ => false
  | .inf n => n
  | .zero n => n
  | .fin n _ _ => n

/-- The value with its sign inverted. -/
def FVal.negate : FVal → FVal
  | .nan s => .nan s
  | .inf n => .inf (!n)
  | .zero n => .zero (!n)
  | .fin n m e => .fin (!n) m e

/-- The exact sum, rounded once (R74): an exact zero sum of two terms of unlike sign is +0, and −0 in RDN. -/
def Fmt.add (f : Fmt) (rm : RM) (x y : FVal) : FRes :=
  match x, y with
  | .nan s, b => f.nanRes (s || b.isSNaN)
  | a, .nan s => f.nanRes (s || a.isSNaN)
  | .inf a, .inf b => if a == b then ⟨f.withSign a f.infBits, 0⟩ else f.nanRes true
  | .inf a, _ => ⟨f.withSign a f.infBits, 0⟩
  | _, .inf b => ⟨f.withSign b f.infBits, 0⟩
  | .zero a, .zero b => ⟨f.withSign (if a == b then a else rm == .rdn) 0, 0⟩
  | .zero _, .fin n m e => f.round rm false n m e false
  | .fin n m e, .zero _ => f.round rm false n m e false
  | .fin a m e, .fin b m' e' =>
    let q := min e e'
    let t := (FVal.fin a m e).atExp q + (FVal.fin b m' e').atExp q
    if t == 0 then ⟨f.withSign (rm == .rdn) 0, 0⟩ else f.round rm false (t < 0) t.natAbs q false

/-- The exact product of two values; the flag says that the product is invalid (0 × infinity). -/
def FVal.mul (x y : FVal) : FVal × Bool :=
  match x, y with
  | .nan s, b => (.nan (s || b.isSNaN), false)
  | a, .nan s => (.nan (s || a.isSNaN), false)
  | .inf _, .zero _ => (.nan false, true)
  | .zero _, .inf _ => (.nan false, true)
  | .inf a, b => (.inf (a != b.neg), false)
  | a, .inf b => (.inf (a.neg != b), false)
  | .zero a, b => (.zero (a != b.neg), false)
  | a, .zero b => (.zero (a.neg != b), false)
  | .fin a m e, .fin b m' e' => (.fin (a != b) (m * m') (e + e'), false)

/-- The product, rounded once (R74). -/
def Fmt.mul (f : Fmt) (rm : RM) (x y : FVal) : FRes :=
  let (p, inv) := x.mul y
  if inv then f.nanRes true else p.toFmt f rm false

/-- The fused multiply-add with a single rounding (R74). -/
def Fmt.fma (f : Fmt) (rm : RM) (x y z : FVal) : FRes :=
  let (p, inv) := x.mul y
  if inv then
    match z with
    | .nan s => f.nanRes (s || Config.fmaInvalidWithNaN)
    | _ => f.nanRes true
  else f.add rm p z

/-- IEEE 754 order of two values that are not NaN; zeros are equal. -/
def FVal.lt (x y : FVal) : Bool :=
  match x, y with
  | .nan _, _ => false
  | _, .nan _ => false
  | .inf a, .inf b => a && !b
  | .inf a, _ => a
  | _, .inf b => !b
  | a, b =>
    let q := min (a.exp?.getD 0) (b.exp?.getD 0)
    a.atExp q < b.atExp q

def FVal.eqv (x y : FVal) : Bool := !x.isNaN && !y.isNaN && !x.lt y && !y.lt x

/-- minimumNumber and maximumNumber of IEEE 754 on encodings (R160): a NaN loses to a number, −0 lies below +0, a
signaling NaN raises NV. -/
def Fmt.minMax (f : Fmt) (isMax : Bool) (a b : Nat) : FRes :=
  let x := f.decode a
  let y := f.decode b
  let nv : FFlags := if x.isSNaN || y.isSNaN then FFlags.NV else 0
  if x.isNaN && y.isNaN then ⟨f.canon, nv⟩
  else if x.isNaN then ⟨b, nv⟩
  else if y.isNaN then ⟨a, nv⟩
  else
    let less := x.lt y || (x.isZero && y.isZero && x.neg && !y.neg)
    ⟨if less != isMax then a else b, nv⟩

/-- The integer nearest a value in the mode, and whether it is inexact. -/
def FVal.toInt (rm : RM) : FVal → Int × Bool
  | .fin neg m e =>
    let (k, nx) := roundAt rm neg m e 0 false
    (if neg then -(k : Int) else k, nx)
  | _ => (0, false)

/-- Conversion to an integer range (R161): NaN gives 0 with NV only, out of range the nearest bound with NV only. -/
def FVal.toIntRange (rm : RM) (lo hi : Int) (v : FVal) : Int × FFlags :=
  match v with
  | .nan _ => (0, FFlags.NV)
  | .inf neg => (if neg then lo else hi, FFlags.NV)
  | .zero _ => (0, 0)
  | v =>
    let (k, nx) := v.toInt rm
    if k < lo then (lo, FFlags.NV) else if k > hi then (hi, FFlags.NV) else (k, if nx then FFlags.NX else 0)

/-- An integer as an exact value; 0 is +0 (R161). -/
def FVal.ofInt (k : Int) : FVal := if k == 0 then .zero false else .fin (k < 0) k.natAbs 0

/-- The reciprocal, correctly rounded, with DZ for ±0 (R164). -/
def Fmt.rcp (f : Fmt) (rm : RM) (x : FVal) : FRes :=
  match x with
  | .nan s => f.nanRes s
  | .inf neg => ⟨f.withSign neg 0, 0⟩
  | .zero neg => ⟨f.withSign neg f.infBits, FFlags.DZ⟩
  | .fin neg m e =>
    let k := Nat.log2 m + 2 * f.mbits + 8
    f.round rm false neg (2 ^ k / m) (-(k : Int) - e) (2 ^ k % m != 0)

/-- m × 2^e with an even exponent and enough bits for a square root of the format. -/
def sqrtArg (m : Nat) (e : Int) (bits : Nat) : Nat × Int :=
  let k := 2 * bits + (if e % 2 == 0 then 0 else 1)
  (m * 2 ^ k, e - k)

/-- The square root, correctly rounded (R164). -/
def Fmt.sqrt (f : Fmt) (rm : RM) (x : FVal) : FRes :=
  match x with
  | .nan s => f.nanRes s
  | .zero neg => ⟨f.withSign neg 0, 0⟩
  | .inf neg => if neg then f.nanRes true else ⟨f.infBits, 0⟩
  | .fin neg m e =>
    if neg then f.nanRes true
    else
      let (m', e') := sqrtArg m e (f.mbits + 4)
      let r := Nat.sqrt m'
      f.round rm false false r (e' / 2) (r * r != m')

/-- Whether a finite value is an integer power of two, and its exponent. -/
def FVal.log2? : FVal → Option Int
  | .fin false m e => if m == 2 ^ Nat.log2 m then some (e + Nat.log2 m) else none
  | _ => none

/-- The two binary32 neighbours of an exact value, of which a free choice takes one (R164): the value is a magnitude
m × 2^e and a sticky part below its last place. -/
def neighbour (up neg : Bool) (m : Nat) (e : Int) : Nat :=
  (Fmt.f32.round (if up then .rup else .rdn) false neg m e true).bits

/-- RSQ (R164): exact for an even power of two; otherwise within one unit in the last place of the exact value, on
the side that the free choice gives. -/
def rsq32 (w : Word32) : FRes :=
  let f := Fmt.f32
  match f.decode w.toNat with
  | .nan s => f.nanRes s
  | .zero neg => ⟨f.withSign neg f.infBits, FFlags.DZ⟩
  | .inf neg => if neg then f.nanRes true else ⟨0, 0⟩
  | .fin true _ _ => f.nanRes true
  | .fin false m e =>
    match (FVal.fin false m e).log2? with
    | some k =>
      if k % 2 == 0 then f.round .rne false false 1 (-(k / 2)) false
      else
        let r := Nat.sqrt (2 ^ 101)
        ⟨neighbour (Config.rsqUp w) false r (-50 - (k + 1) / 2), FFlags.NX⟩
    | none =>
      -- floor of 2^s / sqrt(m × 2^e) with e made even
      let (m', e') := if e % 2 == 0 then (m, e) else (2 * m, e - 1)
      let r := Nat.sqrt (2 ^ 128 / m')
      ⟨neighbour (Config.rsqUp w) false r (-64 - e' / 2), FFlags.NX⟩

/-- acc × 2 to the fraction whose low bits, the k lowest of n, weigh c, its square root, and so on; all in units of
2^-256 and rounded down. c is the power of two of bit k − 1. -/
def pow2Frac : Nat → Nat → Nat → Nat → Nat
  | 0, _, _, acc => acc
  | k + 1, n, c, acc =>
    pow2Frac k n (Nat.sqrt (c * 2 ^ 256)) (if n.testBit k then acc * c / 2 ^ 256 else acc)

/-- EX2 (R164): exact for an integer; otherwise one of the two neighbours of the exact value. -/
def ex2_32 (w : Word32) : FRes :=
  let f := Fmt.f32
  match f.decode w.toNat with
  | .nan s => f.nanRes s
  | .inf neg => if neg then ⟨0, 0⟩ else ⟨f.infBits, 0⟩
  | .zero _ => ⟨0x3F800000, 0⟩
  | v =>
    let (k, nx) := v.toInt .rdn
    if k ≥ 128 then ⟨f.infBits, FFlags.OF ||| FFlags.NX⟩
    else if k < -150 || (k == -150 && !nx) then ⟨0, FFlags.UF ||| FFlags.NX⟩
    else if !nx && k ≥ -149 then f.round .rne false false 1 k false
    else
      let bits := (-(v.exp?.getD 0)).toNat
      let n := (v.atExp (v.exp?.getD 0) % 2 ^ bits).toNat
      let r := neighbour (Config.ex2Up w) false (pow2Frac bits n (Nat.sqrt (2 ^ 513)) (2 ^ 256)) (k - 256)
      ⟨r, FFlags.NX ||| (if r / 2 ^ 23 % 2 ^ 8 == 0 then FFlags.UF else 0)⟩

/-- The first k binary digits of the base-2 logarithm of y, which lies from 1 to 2 in units of 2^-256, after d. -/
def log2Digits : Nat → Nat → Nat → Nat
  | 0, _, d => d
  | k + 1, y, d =>
    let q := y * y / 2 ^ 256
    if q ≥ 2 ^ 257 then log2Digits k (q / 2) (2 * d + 1) else log2Digits k q (2 * d)

/-- LG2 (R164): exact for a power of two; otherwise one of the two neighbours of the exact value. -/
def lg2_32 (w : Word32) : FRes :=
  let f := Fmt.f32
  match f.decode w.toNat with
  | .nan s => f.nanRes s
  | .zero _ => ⟨f.withSign true f.infBits, FFlags.DZ⟩
  | .inf neg => if neg then f.nanRes true else ⟨f.infBits, 0⟩
  | .fin true _ _ => f.nanRes true
  | .fin false m e =>
    match (FVal.fin false m e).log2? with
    | some k => (FVal.ofInt k).toFmt f .rne false
    | none =>
      let len := Nat.log2 m
      let t : Int := (e + len) * 2 ^ 128 + log2Digits 128 (m * 2 ^ (256 - len)) 0
      ⟨neighbour (Config.lg2Up w) (t < 0) (if t < 0 then t.natAbs - 1 else t.natAbs) (-128), FFlags.NX⟩

/-- Twice a finite value as an integer, if it is one. -/
def FVal.twice? (v : FVal) : Option Int :=
  match v with
  | .fin neg m e =>
    let (k, nx) := (FVal.fin neg m (e + 1)).toInt .rtz
    if nx then none else some k
  | .zero _ => some 0
  | _ => none

/-- The constant π in units of 2^-256, rounded down. -/
def piFixed : Nat :=
  363771576891766324280234942777729862653393377328392429958772151117938894466185

/-- The series 1 − z/(2·3) × (1 − z/(4·5) × (1 − …)) of k factors that ends in the factor n, in units of 2^-256: it is
sin q / q where z is the square of q. -/
def sincSeries (z : Nat) : Nat → Nat
  | 0 => 2 ^ 256
  | k + 1 =>
    let n := 40 - k
    2 ^ 256 - z * sincSeries z k / 2 ^ 256 / (2 * n * (2 * n + 1))

/-- One of the two neighbours of sin(π × x × 2^-b), for an argument above 0 and below one half. -/
def sinNeighbour (up neg : Bool) (x b : Nat) : Nat :=
  let q := x * piFixed
  let z := (q / 2 ^ b) * (q / 2 ^ b) / 2 ^ 256
  neighbour up neg (min (q * sincSeries z 40) (2 ^ (512 + b) - 1)) (-512 - b)

/-- SINPI (R164): exact for a multiple of one half; otherwise one of the two neighbours of the exact value. -/
def sinpi32 (w : Word32) : FRes :=
  let f := Fmt.f32
  match f.decode w.toNat with
  | .nan s => f.nanRes s
  | .inf _ => f.nanRes true
  | .zero neg => ⟨f.withSign neg 0, 0⟩
  | v =>
    match v.twice? with
    | some k =>
      if k % 2 == 0 then ⟨f.withSign (k < 0) 0, 0⟩
      else ⟨f.withSign ((k - 1) / 2 % 2 != 0) 0x3F800000, 0⟩
    | none =>
      let b := (-(v.exp?.getD 0)).toNat
      let x := (v.atExp (v.exp?.getD 0)).natAbs % 2 ^ (b + 1)
      let y := x % 2 ^ b
      ⟨sinNeighbour (Config.sinpiUp w) (v.neg != (2 ^ b ≤ x)) (min y (2 ^ b - y)) b, FFlags.NX⟩

/-- COSPI (R164): exact for a multiple of one half; otherwise one of the two neighbours of the exact value. -/
def cospi32 (w : Word32) : FRes :=
  let f := Fmt.f32
  match f.decode w.toNat with
  | .nan s => f.nanRes s
  | .inf _ => f.nanRes true
  | v =>
    match v.twice? with
    | some k =>
      if k % 2 != 0 then ⟨0, 0⟩
      else ⟨f.withSign (k / 2 % 2 != 0) 0x3F800000, 0⟩
    | none =>
      let b := (-(v.exp?.getD 0)).toNat
      let x := (v.atExp (v.exp?.getD 0)).natAbs % 2 ^ (b + 1)
      let y := min x (2 ^ (b + 1) - x)
      let half := 2 ^ (b - 1)
      ⟨sinNeighbour (Config.cospiUp w) (half < y) (if half < y then y - half else half - y) b, FFlags.NX⟩

end Sys2Proof.Machine
end

