-- ==== Sys2Proof/Machine/Anchored.lean ====
section
/-! DEFINITION. The anchored accumulator: products rounded onto the grid (R49 to R52), the saturating sum (R50), the
combination of partials (R59, R60), the wide partial in memory (R61, R62) and the conversion out (R63 to R67). -/

namespace Sys2Proof.Machine

/-- Flags of an accumulator in the bit order of R61: NEG_INF [4], POS_INF [3], NAN [2], OVERFLOW [1], INEXACT [0]. -/
abbrev WFlags := BitVec 5

def WFlags.NEG_INF : WFlags := 0x10#5
def WFlags.POS_INF : WFlags := 0x08#5
def WFlags.NAN : WFlags := 0x04#5
def WFlags.OVERFLOW : WFlags := 0x02#5
def WFlags.INEXACT : WFlags := 0x01#5

/-- An anchored accumulator, or a wide partial (R48, R61). -/
structure Wide where
  int : BitVec 192
  anchor : BitVec 16
  flags : WFlags
deriving DecidableEq, Repr, Inhabited

/-- I = 0, anchor 0, clear flags (R92). -/
def Wide.zero : Wide := ⟨0, 0, 0⟩

/-- The entry that INIT 1 gives: I = 0, the anchor, clear flags (R82). -/
def Wide.init (a : BitVec 16) : Wide := ⟨0, a, 0⟩

/-- The exponent of the grid step g = 2^(a − 128) (R48). -/
def gridExp (a : BitVec 16) : Int := a.toInt - 128

/-- A term rounded to the grid: the integer q and the flags it sets (R49, R51). Rounding is to nearest, ties to even,
symmetric in sign. -/
def FVal.toGrid (a : BitVec 16) : FVal → Int × WFlags
  | .nan _ => (0, WFlags.NAN)
  | .inf neg => (0, if neg then WFlags.NEG_INF else WFlags.POS_INF)
  | .zero _ => (0, 0)
  | .fin neg m e =>
    let (k, nx) := roundAt .rne false m e (gridExp a) false
    (if neg then -(k : Int) else k, if nx then WFlags.INEXACT else 0)

/-- Whether the addition of R50 saturates. -/
def Wide.saturates (w : Wide) (q : Int) : Bool := w.int.toInt + q > 2 ^ 191 - 1 || w.int.toInt + q < -(2 ^ 191)

/-- The saturating addition of R50. -/
def Wide.addInt (w : Wide) (q : Int) : Wide :=
  let t := w.int.toInt + q
  if t > 2 ^ 191 - 1 then { w with int := BitVec.ofInt 192 (2 ^ 191 - 1), flags := w.flags ||| WFlags.OVERFLOW }
  else if t < -(2 ^ 191) then { w with int := BitVec.ofInt 192 (-(2 ^ 191)), flags := w.flags ||| WFlags.OVERFLOW }
  else { w with int := BitVec.ofInt 192 t }

/-- One term added to an accumulator: rounded by itself to the grid of the entry, then added (R49 to R52). -/
def Wide.addTerm (w : Wide) (p : FVal) : Wide :=
  let (q, fl) := p.toGrid w.anchor
  let w' := w.addInt q
  { w' with flags := w'.flags ||| fl }

/-! ### The residue channel (R68 to R73) -/

/-- 2^k modulo 127, for any k: 2^7 is 1 (R68). -/
def pow2Residue (k : Int) : Nat := 2 ^ (k % 7).toNat % 127

/-- The residue of a stored integer: of its unsigned pattern, less 8 for a set sign bit (R69). -/
def residueOf (i : BitVec 192) : Nat := (i.toNat + 127 * 8 - 8 * (if i.msb then 1 else 0)) % 127

/-- The residue of a term on the grid of an anchor (R68): that of the exact product at its place on the grid, corrected by the
discarded bits and the rounding increment. -/
def FVal.termResidue (a : BitVec 16) (v : FVal) : Nat :=
  match v with
  | .fin neg m e =>
    let shift := e - gridExp a
    let k := (v.toGrid a).1.natAbs
    let r :=
      if 0 ≤ shift then m % 127 * pow2Residue shift % 127
      else
        let d := (-shift).toNat
        let up := if m < k * 2 ^ d then 1 else 0
        let discarded := m - (k - up) * 2 ^ d
        ((m % 127 + (127 - discarded % 127)) * pow2Residue shift + up) % 127
    if neg then (127 - r) % 127 else r
  | _ => 0

/-- The sum of two partials of one anchor: the saturating sum, and the flags of both (R60). -/
def Wide.combine (x y : Wide) : Wide :=
  let t := x.addInt y.int.toInt
  { t with flags := t.flags ||| y.flags }

/-- R59: the anchors of two partials differ. -/
def Wide.mismatch (x y : Wide) : Bool := x.anchor != y.anchor

/-- The 32 bytes of a wide partial, RES0 bits 0 (R61, R62). -/
def Wide.toBits (w : Wide) : BitVec 256 := (0#32 ++ (0#11 ++ w.flags) ++ w.anchor ++ w.int : BitVec 256)

/-- A wide partial read from its 32 bytes, RES0 bits ignored (R61, R62). -/
def Wide.ofBits (b : BitVec 256) : Wide :=
  ⟨b.extractLsb' 0 192, b.extractLsb' 192 16, b.extractLsb' 208 5⟩

/-- Conversion of an accumulator to a format (R64 to R66): the result with the flags it raises. -/
def Wide.convert (w : Wide) (f : Fmt) (rm : RM) (sat : Bool) : FRes :=
  let has (x : WFlags) : Bool := w.flags &&& x != 0
  if has WFlags.NAN || (has WFlags.POS_INF && has WFlags.NEG_INF) then f.nanRes true
  else if has WFlags.POS_INF then f.infRule sat false 0
  else if has WFlags.NEG_INF then f.infRule sat true 0
  else
    let i := w.int.toInt
    if has WFlags.OVERFLOW then
      if rm.overflowToInf (i < 0) then f.infRule sat (i < 0) (FFlags.OF ||| FFlags.NX)
      else ⟨f.withSign (i < 0) f.maxFinite, FFlags.OF ||| FFlags.NX⟩
    else if i == 0 then ⟨0, 0⟩
    else f.round rm sat (i < 0) i.natAbs (gridExp w.anchor) false

/-- A binary32 value on the grid of an anchor (WRND, R162). Where the rounded integer does not fit 192 bits the spec
states no I, which is then a free value. -/
def Wide.ofF32 (w : Word32) (a : BitVec 16) : Wide :=
  let v := Fmt.f32.decode w.toNat
  let (q, fl) := v.toGrid a
  let fits := -(2 ^ 191) ≤ q && q ≤ 2 ^ 191 - 1
  ⟨if fits then BitVec.ofInt 192 q else Config.wrndInt w a, a, fl⟩

/-- The scale factor of an E8M0 scale byte: none for the NaN scale (R47). -/
def mxScale (x : Byte) : Option Int := if x == 0xFF#8 then none else some ((x.toNat : Int) - 127)

/-- A scaled product of two elements (R49, R51): a NaN scale makes the product NaN. -/
def scaledProduct (x y : FVal) (sx sy : Byte) : FVal :=
  match mxScale sx, mxScale sy with
  | some a, some b =>
    match (x.mul y).1 with
    | .fin neg m e => .fin neg m (e + a + b)
    | p => p
  | _, _ => .nan false

end Sys2Proof.Machine
end

