-- ==== Sys2Proof/Machine/Assoc.lean ====
section
/-! DEFINITION. Sparse storage: a list of key and value pairs sorted by a rank of the key, without the entries that
equal what an unlisted key reads as, so that equal contents are equal data. Memory is such a list of bytes. -/

namespace Sys2Proof.Machine

/-- The value listed for a key. -/
def Assoc.get? {α β : Type} [DecidableEq α] (l : List (α × β)) (k : α) : Option β :=
  match l with
  | [] => none
  | (k', v) :: r => if k' = k then some v else Assoc.get? r k

/-- The list without the key. -/
def Assoc.erase {α β : Type} [DecidableEq α] (l : List (α × β)) (k : α) : List (α × β) :=
  l.filter (fun x => x.1 ≠ k)

/-- The list with the key at the value, in the place that the rank gives. -/
def Assoc.insert {α β : Type} [DecidableEq α] (rank : α → Nat) (l : List (α × β)) (k : α) (v : β) : List (α × β) :=
  match l with
  | [] => [(k, v)]
  | (k', v') :: r =>
    if k' = k then (k, v) :: r
    else if rank k < rank k' then (k, v) :: (k', v') :: r
    else (k', v') :: Assoc.insert rank r k v

/-- The list with the key at the value, where unlisted keys read d. -/
def Assoc.put {α β : Type} [DecidableEq α] [DecidableEq β] (rank : α → Nat) (d : β) (l : List (α × β)) (k : α)
    (v : β) : List (α × β) :=
  if v = d then Assoc.erase l k else Assoc.insert rank l k v

/-- The block's addressed memory: bytes by local address (R42). -/
abbrev Memory := List Host.Cell

/-- What a byte that nothing has written reads as: 0 (DESIGN CHOICE, unsafe, log entry 2: the spec gives memory no
contents at power-on). -/
def Memory.unlisted : Byte := 0#8

/-- One byte of memory. -/
def Memory.get (m : Memory) (a : Nat) : Byte := (Assoc.get? m a).getD Memory.unlisted

/-- Memory with one byte written, in canonical form. -/
def Memory.set (m : Memory) (a : Nat) (b : Byte) : Memory := Assoc.put id Memory.unlisted m a b

/-- Memory with a list of writes done, the first of the list first. -/
def Memory.setAll (m : Memory) (ws : List (Nat × Byte)) : Memory := ws.foldl (fun m w => m.set w.1 w.2) m

/-- The addresses of a memory list rise strictly from a bound on, and no byte listed reads as an unlisted one. -/
def Memory.wfFrom (lo : Nat) : Memory → Bool
  | [] => true
  | (a, b) :: r => decide (lo ≤ a) && decide (b ≠ Memory.unlisted) && Memory.wfFrom (a + 1) r

/-- The canonical form of memory. -/
def Memory.wf (m : Memory) : Bool := Memory.wfFrom 0 m

end Sys2Proof.Machine
end

