-- ==== Sys2Proof/Machine/RegName.lean ====
section
/-! DEFINITION. The names of the block's registers: one constructor per register of the spec's register tables, with
the register's indices (a tile t, a link l, a word k) as arguments. CTX_ENTRY is split into its two 64-bit halves, and
the trace unit's TR_STATUS is TRACE_STATUS here, because the translation unit has a register of that name too. -/

namespace Sys2Proof.Machine

/-- The registers of BAR0 (R7), each named as its table names it. The docstrings name the table's rule. -/
inductive Reg where
  /-- R5. -/
  | ID_BLOCK
  /-- R5. -/
  | ID_GEOMETRY
  /-- R5. -/
  | ID_MEMORY
  /-- R5. -/
  | ID_PORTS
  /-- R101. -/
  | TA_STATUS (t : Nat)
  /-- R101. -/
  | TA_FLAGS (t : Nat)
  /-- R151. -/
  | VC_STATUS (t v : Nat)
  /-- R151. -/
  | VC_OCC (t v : Nat)
  /-- R151. -/
  | VC_FLAGS (t v : Nat)
  /-- R151. -/
  | VC_EXC (t v : Nat)
  /-- R215. -/
  | SQ_CTRL (t : Nat)
  /-- R215. -/
  | SQ_STATUS (t : Nat)
  /-- R215. -/
  | SQ_PC (t : Nat)
  /-- R215. -/
  | SQ_EXC (t : Nat)
  /-- R215. -/
  | SQ_PROG (t : Nat)
  /-- R215. -/
  | SQ_LATE (t : Nat)
  /-- R215. -/
  | SQ_CTXMASK (t w : Nat)
  /-- R215. -/
  | SQ_SIG (t n : Nat)
  /-- R216. -/
  | SL_STATUS (t c : Nat)
  /-- R216. -/
  | SL_DESC (t c : Nat)
  /-- R216. -/
  | SL_CTRL (t c : Nat)
  /-- R216. -/
  | SL_COUNT (t c : Nat)
  /-- R245. -/
  | ROT_CTRL
  /-- R245. -/
  | ROT_STATUS
  /-- R245. -/
  | ROT_PERIOD
  /-- R245. -/
  | ROT_LATSIG
  /-- R245. -/
  | ROT_START
  /-- R245. -/
  | ROT_STOP
  /-- R245. -/
  | TB_TIME
  /-- R245. -/
  | TB_TURN
  /-- R245. -/
  | TB_RAW
  /-- R245. -/
  | TB_OFFSET
  /-- R245. -/
  | TB_EPOCH
  /-- R245. -/
  | TB_CYCLE
  /-- R245. -/
  | TB_LATSIG
  /-- R245. -/
  | TB_CHIP
  /-- R245. -/
  | LK_PING (l : Nat)
  /-- R245. -/
  | LK_RTT (l : Nat)
  /-- R245. -/
  | LK_DELTA (l : Nat)
  /-- R245. -/
  | LK_FAR (l : Nat)
  /-- R245. -/
  | LK_LAT (l : Nat)
  /-- R274. -/
  | CN_CTRL (l : Nat)
  /-- R274. -/
  | CN_STATUS (l : Nat)
  /-- R274. -/
  | CN_MAPADDR (l : Nat)
  /-- R274. -/
  | CN_MAPDATA (l : Nat)
  /-- R274. -/
  | CN_SCHEDLEN (l : Nat)
  /-- R274. -/
  | CN_REACH (l k : Nat)
  /-- R274. -/
  | CN_STREAM (l k : Nat)
  /-- R310. -/
  | RSV_SCRATCH
  /-- R310. -/
  | RSV_WEIR (n : Nat)
  /-- R310. -/
  | RSV_WEIR_COUNT (n : Nat)
  /-- R310. -/
  | RSV_STATUS (n : Nat)
  /-- R310. -/
  | RSV_ERRADDR (n : Nat)
  /-- R310. -/
  | RSV_CECNT (n : Nat)
  /-- R311. -/
  | HB_CTRL (k : Nat)
  /-- R311. -/
  | HB_STATUS (k : Nat)
  /-- R311. -/
  | HB_ERRADDR (k : Nat)
  /-- R311. -/
  | HB_CECNT (k : Nat)
  /-- R311. -/
  | HB_PAT (k p j : Nat)
  /-- R312. -/
  | T2_CTRL (g : Nat)
  /-- R312. -/
  | T2_STATUS (g : Nat)
  /-- R312. -/
  | T2_SIZE (g : Nat)
  /-- R312. -/
  | T2_ERRADDR (g : Nat)
  /-- R312. -/
  | T2_DROP (g : Nat)
  /-- R313. -/
  | SLAB_OWN (t u : Nat)
  /-- R313. -/
  | SLAB_STATUS (t : Nat)
  /-- R313. -/
  | SLAB_ERRADDR (t : Nat)
  /-- R344. -/
  | TR_CMD
  /-- R344. -/
  | TR_STATUS
  /-- R344. -/
  | TR_ARG0
  /-- R344. -/
  | TR_ARG1
  /-- R344. -/
  | TR_ARG2
  /-- R344. -/
  | FQ_BASE
  /-- R344. -/
  | HL_BASE
  /-- R344. -/
  | FQ_CTRL
  /-- R344. -/
  | HL_CTRL
  /-- R344. -/
  | FQ_TAIL
  /-- R344. -/
  | FQ_HEAD
  /-- R344. -/
  | HL_TAIL
  /-- R344. -/
  | HL_HEAD
  /-- R344. -/
  | FQ_RESUME
  /-- R344. -/
  | FQ_STATUS
  /-- R344. -/
  | FQ_OVERFLOW
  /-- R344. -/
  | HL_DROP
  /-- R344. -/
  | OT_REFUSALS
  /-- R344. -/
  | AC_CTRL
  /-- R344. -/
  | OT_BASE
  /-- R344. -/
  | OT_FIRST
  /-- R344. -/
  | CTX_ENTRY0 (n : Nat)
  /-- R344. -/
  | CTX_ENTRY1 (n : Nat)
  /-- R377. -/
  | COH_CTRL
  /-- R377. -/
  | COH_RECLAIM
  /-- R377. -/
  | COH_DEAD (k : Nat)
  /-- R377. -/
  | LL_BASE
  /-- R377. -/
  | LL_CTRL
  /-- R377. -/
  | LL_TAIL
  /-- R377. -/
  | LL_HEAD
  /-- R377. -/
  | LL_OVERFLOW
  /-- R377. -/
  | BIAS_CMD
  /-- R377. -/
  | BIAS_STATUS
  /-- R377. -/
  | BIAS_ARG
  /-- R377. -/
  | LOCK (n : Nat)
  /-- R378. -/
  | DIR_STATUS (n : Nat)
  /-- R378. -/
  | DIR_ERRADDR (n : Nat)
  /-- R378. -/
  | DIR_CECNT (n : Nat)
  /-- R378. -/
  | DIR_STRAY (n : Nat)
  /-- R378. -/
  | DIR_LOSTCNT (n : Nat)
  /-- R378. -/
  | DIR_PROBE (n : Nat)
  /-- R378. -/
  | DIR_PROBE_DATA (n k : Nat)
  /-- R437. -/
  | CUL_CTRL
  /-- R437. -/
  | CUL_BASE
  /-- R437. -/
  | CUL_MOVE
  /-- R437. -/
  | CUL_STATUS
  /-- R437. -/
  | PG_ROLE
  /-- R437. -/
  | HF_CTRL
  /-- R437. -/
  | HF_SUBSYS
  /-- R437. -/
  | PG_STATUS (g : Nat)
  /-- R437. -/
  | HF_WAKE
  /-- R437. -/
  | HF_REVOKED (k : Nat)
  /-- R437. -/
  | HP_REFUSE
  /-- R437. -/
  | HP_REFFIRST
  /-- R464. -/
  | AT_ID
  /-- R464. -/
  | AT_STATE
  /-- R464. -/
  | AT_GEN
  /-- R464. -/
  | AT_TIME
  /-- R464. -/
  | AT_ATTACH
  /-- R464. -/
  | HGU_STATUS
  /-- R464. -/
  | HR_BASE
  /-- R464. -/
  | HR_TAIL
  /-- R464. -/
  | HR_HEAD
  /-- R464. -/
  | HR_COUNT
  /-- R464. -/
  | HR_ENTRY (k : Nat)
  /-- R464. -/
  | TO_REFUSE
  /-- R464. -/
  | TO_APER (e : Nat)
  /-- R464. -/
  | TO_CFG (e : Nat)
  /-- R464. -/
  | TO_PAGES (e : Nat)
  /-- R464. -/
  | TO_VBASE (e : Nat)
  /-- R465. -/
  | HG_BASE (h : Nat)
  /-- R465. -/
  | HG_CFG (h : Nat)
  /-- R465. -/
  | HG_BIND (h : Nat)
  /-- R465. -/
  | HG_STATUS (h : Nat)
  /-- R465. -/
  | HG_PTR (h : Nat)
  /-- R465. -/
  | HG_ERRREC (h : Nat)
  /-- R484. -/
  | ES_CTRL (e : Nat)
  /-- R484. -/
  | ES_STATUS (e : Nat)
  /-- R484. -/
  | ES_LINK (e : Nat)
  /-- R484. -/
  | ES_DESC (e k : Nat)
  /-- R484. -/
  | ES_FIELD (e : Nat)
  /-- R484. -/
  | ES_BIND (e : Nat)
  /-- R484. -/
  | ES_PASID (e k : Nat)
  /-- R484. -/
  | ES_LAT (e : Nat)
  /-- R484. -/
  | ES_MMIO_ADDR (e : Nat)
  /-- R484. -/
  | ES_MMIO_DATA (e : Nat)
  /-- R484. -/
  | ES_MMIO_STAT (e : Nat)
  /-- R484. -/
  | ES_GRANT (e k : Nat)
  /-- R506. -/
  | LV_CTRL
  /-- R506. -/
  | LV_FUNC (k : Nat)
  /-- R506. -/
  | LV_TILE (k : Nat)
  /-- R506. -/
  | LV_LINK (k : Nat)
  /-- R506. -/
  | LV_TYPE
  /-- R506. -/
  | LV_PORTMASK
  /-- R506. -/
  | LV_DEBUG (k : Nat)
  /-- R506. -/
  | LV_RIDER (k : Nat)
  /-- R506. -/
  | BOOT_STATUS
  /-- R506. -/
  | LC_STATE
  /-- R506. -/
  | DBG_CTRL
  /-- R506. -/
  | DBG_GRANT
  /-- R506. -/
  | DBG_LEFT
  /-- R506. -/
  | DBG_NONCE
  /-- R506. -/
  | LV_MEM (n : Nat)
  /-- R506. -/
  | LV_KEY (j : Nat)
  /-- R507. -/
  | RC_CTRL
  /-- R507. -/
  | RC_STATUS
  /-- R507. -/
  | RC_ENTRY (k : Nat)
  /-- R541. -/
  | WM_STATE
  /-- R541. -/
  | WM_VECTOR
  /-- R541. -/
  | WM_RAISE
  /-- R541. -/
  | WM_DISCARD_HOST
  /-- R541. -/
  | WM_DISCARD_CANAL
  /-- R541. -/
  | WM_PEND (k : Nat)
  /-- R541. -/
  | WM_TILEMAP (c : Nat)
  /-- R541. -/
  | WM_SLICEMAP (c : Nat)
  /-- R541. -/
  | WM_SLOTMAP (c : Nat)
  /-- R541. -/
  | TW_STATUS
  /-- R541. -/
  | TW_LAST
  /-- R541. -/
  | WM_SRC (n : Nat)
  /-- R563. -/
  | RST_CAUSE
  /-- R563. -/
  | RST_STATUS
  /-- R563. -/
  | RST_CTRL
  /-- R563. -/
  | RST_TILE
  /-- R563. -/
  | RST_LINK
  /-- R563. -/
  | RST_UNIT
  /-- R563. -/
  | RST_PARTILE
  /-- R563. -/
  | RST_WD
  /-- R563. -/
  | RST_WD_KICK
  /-- R563. -/
  | RST_RETIRE
  /-- R563. -/
  | RST_RETIRED
  /-- R564. -/
  | CLK_STATUS
  /-- R564. -/
  | PW_STRETCH
  /-- R564. -/
  | PW_STATE
  /-- R564. -/
  | PW_TELEM
  /-- R610. -/
  | OBS_CTRL
  /-- R610. -/
  | OBS_STATUS
  /-- R610. -/
  | OBS_HALT
  /-- R610. -/
  | OBS_RESUME
  /-- R610. -/
  | TR_TRIGTIME
  /-- R610. -/
  | OBS_TAGFILT
  /-- R610. -/
  | SMP_BASE
  /-- R610. -/
  | TR_BASE
  /-- R610. -/
  | SMP_CTRL
  /-- R610. -/
  | SMP_TAIL
  /-- R610. -/
  | SMP_HEAD
  /-- R610. -/
  | SMP_SKIP
  /-- R610. -/
  | TR_DROP
  /-- R610. -/
  | HR_FRAMES
  /-- R610. -/
  | HR_MISSING
  /-- R610. -/
  | HR_ERRORS
  /-- R610. -/
  | TR_CTRL
  /-- R610. -/
  | TR_MIN
  /-- R610. -/
  | TR_TAIL
  /-- R610. -/
  | TR_HEAD
  /-- R610. -/
  | TR_COUNT
  /-- R610. -/
  | TRACE_STATUS
  /-- R610. -/
  | TR_TRIG
  /-- R610. -/
  | TR_TOTAL
  /-- R610. -/
  | SNAP_BASE
  /-- R610. -/
  | SNAP_CTRL
  /-- R610. -/
  | RACE_CTRL
  /-- R610. -/
  | RACE_STATUS
  /-- R610. -/
  | HR_MAPADDR
  /-- R610. -/
  | HR_MAPDATA
  /-- R610. -/
  | DUMP_CTRL (n : Nat)
  /-- R610. -/
  | DUMP_STEP (n : Nat)
  /-- R610. -/
  | DUMP_DEST (n : Nat)
  /-- R610. -/
  | DUMP_MAX (n : Nat)
  /-- R610. -/
  | HR_SCFG (s : Nat)
  /-- R610. -/
  | HR_SBASE (s : Nat)
  /-- R610. -/
  | HR_SLEN (s : Nat)
  /-- R610. -/
  | HR_SSTART (s j : Nat)
  /-- R611. -/
  | OBS_DP_TAG (t : Nat)
  /-- R611. -/
  | OBS_DP_STEP (t : Nat)
  /-- R611. -/
  | OBS_DP_SRC (t : Nat)
  /-- R611. -/
  | OBS_DP_CTRL (t : Nat)
  /-- R611. -/
  | OBS_BP (t : Nat)
deriving DecidableEq, Repr

end Sys2Proof.Machine
end

