-- ==== Sys2Proof/Machine/RegTable.lean ====
section
/-! DEFINITION. The register tables of the spec: for each register its offset in BAR0, its width, its fields with
their types (R10), and its value at reset (R12). -/

namespace Sys2Proof.Machine

/-- The field types of R10. -/
inductive FType where
  | rw | ro | wo | w1c | w1s | ros | rwl
deriving DecidableEq, Repr

/-- A field of a register: its highest and its lowest bit. -/
structure Fld where
  hi : Nat
  lo : Nat
deriving DecidableEq, Repr

/-- The field's value in a register word. -/
def Fld.get (f : Fld) (w : BitVec 64) : Nat := (w.toNat >>> f.lo) % 2 ^ (f.hi + 1 - f.lo)

/-- The field's bits, as a mask. -/
def Fld.mask (f : Fld) : BitVec 64 := BitVec.ofNat 64 ((2 ^ (f.hi + 1 - f.lo) - 1) * 2 ^ f.lo)

/-- A register word with the field set to v, taken modulo the field's size. -/
def Fld.set (f : Fld) (w : BitVec 64) (v : Nat) : BitVec 64 :=
  (w &&& ~~~ f.mask) ||| (BitVec.ofNat 64 (v % 2 ^ (f.hi + 1 - f.lo) * 2 ^ f.lo))

/-- The register's byte offset in BAR0, from its table. -/
def Reg.offset : Reg → Nat
  | .ID_BLOCK => 0x0
  | .ID_GEOMETRY => 0x4
  | .ID_MEMORY => 0x8
  | .ID_PORTS => 0xc
  | .TA_STATUS t => 0x103000 + 0x4000 * t
  | .TA_FLAGS t => 0x103004 + 0x4000 * t
  | .VC_STATUS t v => 0x102000 + 0x4000 * t + 0x100 * v
  | .VC_OCC t v => 0x102004 + 0x4000 * t + 0x100 * v
  | .VC_FLAGS t v => 0x102008 + 0x4000 * t + 0x100 * v
  | .VC_EXC t v => 0x10200c + 0x4000 * t + 0x100 * v
  | .SQ_CTRL t => 0x100000 + 0x4000 * t
  | .SQ_STATUS t => 0x100004 + 0x4000 * t
  | .SQ_PC t => 0x100008 + 0x4000 * t
  | .SQ_EXC t => 0x10000c + 0x4000 * t
  | .SQ_PROG t => 0x100010 + 0x4000 * t
  | .SQ_LATE t => 0x100018 + 0x4000 * t
  | .SQ_CTXMASK t w => 0x100020 + 0x4000 * t + 0x4 * w
  | .SQ_SIG t n => 0x100800 + 0x4000 * t + 0x8 * n
  | .SL_STATUS t c => 0x101000 + 0x4000 * t + 0x40 * c
  | .SL_DESC t c => 0x101004 + 0x4000 * t + 0x40 * c
  | .SL_CTRL t c => 0x101008 + 0x4000 * t + 0x40 * c
  | .SL_COUNT t c => 0x10100c + 0x4000 * t + 0x40 * c
  | .ROT_CTRL => 0x90000
  | .ROT_STATUS => 0x90004
  | .ROT_PERIOD => 0x90008
  | .ROT_LATSIG => 0x9000c
  | .ROT_START => 0x90010
  | .ROT_STOP => 0x90018
  | .TB_TIME => 0x90020
  | .TB_TURN => 0x90028
  | .TB_RAW => 0x90030
  | .TB_OFFSET => 0x90038
  | .TB_EPOCH => 0x90040
  | .TB_CYCLE => 0x90048
  | .TB_LATSIG => 0x9004c
  | .TB_CHIP => 0x90050
  | .LK_PING l => 0x90100 + 0x20 * l
  | .LK_RTT l => 0x90104 + 0x20 * l
  | .LK_DELTA l => 0x90108 + 0x20 * l
  | .LK_FAR l => 0x90110 + 0x20 * l
  | .LK_LAT l => 0x90118 + 0x20 * l
  | .CN_CTRL l => 0xa0000 + 0x1000 * l
  | .CN_STATUS l => 0xa0004 + 0x1000 * l
  | .CN_MAPADDR l => 0xa0008 + 0x1000 * l
  | .CN_MAPDATA l => 0xa000c + 0x1000 * l
  | .CN_SCHEDLEN l => 0xa0010 + 0x1000 * l
  | .CN_REACH l k => 0xa0020 + 0x1000 * l + 0x4 * k
  | .CN_STREAM l k => 0xa0400 + 0x1000 * l + 0x4 * k
  | .RSV_SCRATCH => 0xe0000
  | .RSV_WEIR n => 0xe0004 + 0x1000 * n
  | .RSV_WEIR_COUNT n => 0xe0008 + 0x1000 * n
  | .RSV_STATUS n => 0xe000c + 0x1000 * n
  | .RSV_ERRADDR n => 0xe0010 + 0x1000 * n
  | .RSV_CECNT n => 0xe0018 + 0x1000 * n
  | .HB_CTRL k => 0x1c0000 + 0x1000 * k
  | .HB_STATUS k => 0x1c0004 + 0x1000 * k
  | .HB_ERRADDR k => 0x1c0008 + 0x1000 * k
  | .HB_CECNT k => 0x1c0010 + 0x1000 * k
  | .HB_PAT k p j => 0x1c0100 + 0x1000 * k + 0x10 * p + 0x4 * j
  | .T2_CTRL g => 0x1c8000 + 0x1000 * g
  | .T2_STATUS g => 0x1c8004 + 0x1000 * g
  | .T2_SIZE g => 0x1c8008 + 0x1000 * g
  | .T2_ERRADDR g => 0x1c8010 + 0x1000 * g
  | .T2_DROP g => 0x1c8018 + 0x1000 * g
  | .SLAB_OWN t u => 0x103200 + 0x4000 * t + 0x4 * u
  | .SLAB_STATUS t => 0x103260 + 0x4000 * t
  | .SLAB_ERRADDR t => 0x103268 + 0x4000 * t
  | .TR_CMD => 0x50000
  | .TR_STATUS => 0x50004
  | .TR_ARG0 => 0x50008
  | .TR_ARG1 => 0x50010
  | .TR_ARG2 => 0x50018
  | .FQ_BASE => 0x50100
  | .HL_BASE => 0x50140
  | .FQ_CTRL => 0x50108
  | .HL_CTRL => 0x50148
  | .FQ_TAIL => 0x5010c
  | .FQ_HEAD => 0x50110
  | .HL_TAIL => 0x5014c
  | .HL_HEAD => 0x50150
  | .FQ_RESUME => 0x50114
  | .FQ_STATUS => 0x50118
  | .FQ_OVERFLOW => 0x5011c
  | .HL_DROP => 0x5015c
  | .OT_REFUSALS => 0x5020c
  | .AC_CTRL => 0x50160
  | .OT_BASE => 0x50200
  | .OT_FIRST => 0x50210
  | .CTX_ENTRY0 n => 0x51000 + 0x10 * n
  | .CTX_ENTRY1 n => 0x51008 + 0x10 * n
  | .COH_CTRL => 0x80800
  | .COH_RECLAIM => 0x80804
  | .COH_DEAD k => 0x80810 + 0x4 * k
  | .LL_BASE => 0x80820
  | .LL_CTRL => 0x80828
  | .LL_TAIL => 0x8082c
  | .LL_HEAD => 0x80830
  | .LL_OVERFLOW => 0x80834
  | .BIAS_CMD => 0x80840
  | .BIAS_STATUS => 0x80844
  | .BIAS_ARG => 0x80848
  | .LOCK n => 0x80900 + 0x8 * n
  | .DIR_STATUS n => 0xe0100 + 0x1000 * n
  | .DIR_ERRADDR n => 0xe0104 + 0x1000 * n
  | .DIR_CECNT n => 0xe0108 + 0x1000 * n
  | .DIR_STRAY n => 0xe010c + 0x1000 * n
  | .DIR_LOSTCNT n => 0xe0110 + 0x1000 * n
  | .DIR_PROBE n => 0xe0118 + 0x1000 * n
  | .DIR_PROBE_DATA n k => 0xe0120 + 0x1000 * n + 0x4 * k
  | .CUL_CTRL => 0x80000
  | .CUL_BASE => 0x80008
  | .CUL_MOVE => 0x80010
  | .CUL_STATUS => 0x80018
  | .PG_ROLE => 0x80100
  | .HF_CTRL => 0x80104
  | .HF_SUBSYS => 0x80108
  | .PG_STATUS g => 0x80140 + 0x4 * g
  | .HF_WAKE => 0x80160
  | .HF_REVOKED k => 0x80180 + 0x4 * k
  | .HP_REFUSE => 0x801a0
  | .HP_REFFIRST => 0x801a8
  | .AT_ID => 0x60000
  | .AT_STATE => 0x60004
  | .AT_GEN => 0x60008
  | .AT_TIME => 0x60010
  | .AT_ATTACH => 0x60018
  | .HGU_STATUS => 0x60100
  | .HR_BASE => 0x60108
  | .HR_TAIL => 0x60110
  | .HR_HEAD => 0x60114
  | .HR_COUNT => 0x60118
  | .HR_ENTRY k => 0x60120 + 0x8 * k
  | .TO_REFUSE => 0x60140
  | .TO_APER e => 0x64000 + 0x20 * e
  | .TO_CFG e => 0x64008 + 0x20 * e
  | .TO_PAGES e => 0x6400c + 0x20 * e
  | .TO_VBASE e => 0x64010 + 0x20 * e
  | .HG_BASE h => 0x68000 + 0x20 * h
  | .HG_CFG h => 0x68008 + 0x20 * h
  | .HG_BIND h => 0x6800c + 0x20 * h
  | .HG_STATUS h => 0x68010 + 0x20 * h
  | .HG_PTR h => 0x68014 + 0x20 * h
  | .HG_ERRREC h => 0x68018 + 0x20 * h
  | .ES_CTRL e => 0xd0000 + 0x1000 * e
  | .ES_STATUS e => 0xd0004 + 0x1000 * e
  | .ES_LINK e => 0xd0008 + 0x1000 * e
  | .ES_DESC e k => 0xd0010 + 0x1000 * e + 0x4 * k
  | .ES_FIELD e => 0xd0020 + 0x1000 * e
  | .ES_BIND e => 0xd0024 + 0x1000 * e
  | .ES_PASID e k => 0xd0040 + 0x1000 * e + 0x4 * k
  | .ES_LAT e => 0xd0060 + 0x1000 * e
  | .ES_MMIO_ADDR e => 0xd0070 + 0x1000 * e
  | .ES_MMIO_DATA e => 0xd0078 + 0x1000 * e
  | .ES_MMIO_STAT e => 0xd007c + 0x1000 * e
  | .ES_GRANT e k => 0xd0400 + 0x1000 * e + 0x4 * k
  | .LV_CTRL => 0x40000
  | .LV_FUNC k => 0x40010 + 0x4 * k
  | .LV_TILE k => 0x40030 + 0x4 * k
  | .LV_LINK k => 0x40048 + 0x4 * k
  | .LV_TYPE => 0x40060
  | .LV_PORTMASK => 0x40064
  | .LV_DEBUG k => 0x40068 + 0x4 * k
  | .LV_RIDER k => 0x40070 + 0x4 * k
  | .BOOT_STATUS => 0x400c0
  | .LC_STATE => 0x400c4
  | .DBG_CTRL => 0x400d0
  | .DBG_GRANT => 0x400d4
  | .DBG_LEFT => 0x400d8
  | .DBG_NONCE => 0x400e0
  | .LV_MEM n => 0x40100 + 0x8 * n
  | .LV_KEY j => 0x40200 + 0x4 * j
  | .RC_CTRL => 0x200000
  | .RC_STATUS => 0x200004
  | .RC_ENTRY k => 0x200100 + 0x8 * k
  | .WM_STATE => 0x20000
  | .WM_VECTOR => 0x20004
  | .WM_RAISE => 0x20008
  | .WM_DISCARD_HOST => 0x20010
  | .WM_DISCARD_CANAL => 0x20014
  | .WM_PEND k => 0x20020 + 0x4 * k
  | .WM_TILEMAP c => 0x20100 + 0x8 * c
  | .WM_SLICEMAP c => 0x20180 + 0x4 * c
  | .WM_SLOTMAP c => 0x201c0 + 0x4 * c
  | .TW_STATUS => 0x20200
  | .TW_LAST => 0x20208
  | .WM_SRC n => 0x21000 + 0x4 * n
  | .RST_CAUSE => 0x10000
  | .RST_STATUS => 0x10004
  | .RST_CTRL => 0x10008
  | .RST_TILE => 0x10010
  | .RST_LINK => 0x10018
  | .RST_UNIT => 0x10020
  | .RST_PARTILE => 0x10028
  | .RST_WD => 0x10030
  | .RST_WD_KICK => 0x10034
  | .RST_RETIRE => 0x10040
  | .RST_RETIRED => 0x10048
  | .CLK_STATUS => 0x30000
  | .PW_STRETCH => 0x30010
  | .PW_STATE => 0x30014
  | .PW_TELEM => 0x30018
  | .OBS_CTRL => 0x1d0000
  | .OBS_STATUS => 0x1d0004
  | .OBS_HALT => 0x1d0008
  | .OBS_RESUME => 0x1d0010
  | .TR_TRIGTIME => 0x1d0068
  | .OBS_TAGFILT => 0x1d0018
  | .SMP_BASE => 0x1d0020
  | .TR_BASE => 0x1d0040
  | .SMP_CTRL => 0x1d0028
  | .SMP_TAIL => 0x1d002c
  | .SMP_HEAD => 0x1d0030
  | .SMP_SKIP => 0x1d0034
  | .TR_DROP => 0x1d0064
  | .HR_FRAMES => 0x1d00a0
  | .HR_MISSING => 0x1d00a4
  | .HR_ERRORS => 0x1d00a8
  | .TR_CTRL => 0x1d0048
  | .TR_MIN => 0x1d004c
  | .TR_TAIL => 0x1d0050
  | .TR_HEAD => 0x1d0054
  | .TR_COUNT => 0x1d0058
  | .TRACE_STATUS => 0x1d005c
  | .TR_TRIG => 0x1d0060
  | .TR_TOTAL => 0x1d0070
  | .SNAP_BASE => 0x1d0080
  | .SNAP_CTRL => 0x1d0088
  | .RACE_CTRL => 0x1d0090
  | .RACE_STATUS => 0x1d0094
  | .HR_MAPADDR => 0x1d0098
  | .HR_MAPDATA => 0x1d009c
  | .DUMP_CTRL n => 0x1d0100 + 0x20 * n
  | .DUMP_STEP n => 0x1d0104 + 0x20 * n
  | .DUMP_DEST n => 0x1d0108 + 0x20 * n
  | .DUMP_MAX n => 0x1d0110 + 0x20 * n
  | .HR_SCFG s => 0x1d0400 + 0x20 * s
  | .HR_SBASE s => 0x1d0404 + 0x20 * s
  | .HR_SLEN s => 0x1d0408 + 0x20 * s
  | .HR_SSTART s j => 0x1d040c + 0x20 * s + 0x4 * j
  | .OBS_DP_TAG t => 0x103800 + 0x4000 * t
  | .OBS_DP_STEP t => 0x103804 + 0x4000 * t
  | .OBS_DP_SRC t => 0x103808 + 0x4000 * t
  | .OBS_DP_CTRL t => 0x10380c + 0x4000 * t
  | .OBS_BP t => 0x103810 + 0x4000 * t

/-- The register's width in bits, from its table: 64, or 32. -/
def Reg.width : Reg → Nat
  | .SQ_LATE _ => 64
  | .SQ_SIG _ _ => 64
  | .ROT_START => 64
  | .ROT_STOP => 64
  | .TB_TIME => 64
  | .TB_TURN => 64
  | .TB_RAW => 64
  | .TB_OFFSET => 64
  | .TB_EPOCH => 64
  | .LK_DELTA _ => 64
  | .LK_FAR _ => 64
  | .RSV_ERRADDR _ => 64
  | .HB_ERRADDR _ => 64
  | .T2_ERRADDR _ => 64
  | .TR_ARG0 => 64
  | .TR_ARG1 => 64
  | .TR_ARG2 => 64
  | .FQ_BASE => 64
  | .HL_BASE => 64
  | .OT_BASE => 64
  | .OT_FIRST => 64
  | .CTX_ENTRY0 _ => 64
  | .CTX_ENTRY1 _ => 64
  | .LL_BASE => 64
  | .BIAS_ARG => 64
  | .LOCK _ => 64
  | .DIR_PROBE _ => 64
  | .CUL_BASE => 64
  | .CUL_MOVE => 64
  | .HP_REFFIRST => 64
  | .AT_TIME => 64
  | .HR_BASE => 64
  | .HR_ENTRY _ => 64
  | .TO_APER _ => 64
  | .TO_VBASE _ => 64
  | .HG_BASE _ => 64
  | .HG_ERRREC _ => 64
  | .ES_MMIO_ADDR _ => 64
  | .DBG_NONCE => 64
  | .LV_MEM _ => 64
  | .RC_ENTRY _ => 64
  | .WM_TILEMAP _ => 64
  | .TW_LAST => 64
  | .RST_TILE => 64
  | .RST_LINK => 64
  | .RST_PARTILE => 64
  | .RST_RETIRED => 64
  | .OBS_RESUME => 64
  | .TR_TRIGTIME => 64
  | .OBS_TAGFILT => 64
  | .SMP_BASE => 64
  | .TR_BASE => 64
  | .TR_TOTAL => 64
  | .SNAP_BASE => 64
  | .DUMP_DEST _ => 64
  | _ => 32

/-- The register's fields with their types, from its table; every other bit is RES0 (R11). -/
def Reg.fields : Reg → List (FType × Fld)
  | .ID_BLOCK => [(.ro, ⟨31, 24⟩), (.ro, ⟨23, 16⟩), (.ro, ⟨15, 8⟩), (.ro, ⟨7, 4⟩), (.ro, ⟨3, 0⟩)]
  | .ID_GEOMETRY => [(.ro, ⟨27, 24⟩), (.ro, ⟨23, 20⟩), (.ro, ⟨19, 14⟩), (.ro, ⟨13, 8⟩), (.ro, ⟨7, 5⟩), (.ro, ⟨4, 4⟩)]
  | .ID_MEMORY => [(.ro, ⟨31, 24⟩), (.ro, ⟨23, 16⟩), (.ro, ⟨15, 12⟩), (.ro, ⟨11, 8⟩), (.ro, ⟨7, 4⟩), (.ro, ⟨3, 0⟩)]
  | .ID_PORTS => [(.ro, ⟨31, 26⟩), (.ro, ⟨25, 21⟩), (.ro, ⟨20, 18⟩), (.ro, ⟨17, 14⟩), (.ro, ⟨13, 13⟩), (.ro, ⟨12, 12⟩), (.ro, ⟨11, 8⟩)]
  | .TA_STATUS _ => [(.ro, ⟨23, 20⟩), (.ro, ⟨19, 16⟩), (.ro, ⟨2, 2⟩), (.ro, ⟨1, 1⟩), (.ro, ⟨0, 0⟩)]
  | .TA_FLAGS _ => [(.w1c, ⟨8, 8⟩), (.w1c, ⟨3, 3⟩), (.w1c, ⟨2, 2⟩), (.w1c, ⟨1, 1⟩), (.w1c, ⟨0, 0⟩)]
  | .VC_STATUS _ _ => [(.ro, ⟨29, 29⟩), (.ro, ⟨28, 28⟩), (.ro, ⟨21, 16⟩), (.ro, ⟨11, 8⟩), (.ro, ⟨3, 0⟩)]
  | .VC_OCC _ _ => [(.ro, ⟨27, 19⟩), (.ro, ⟨18, 16⟩), (.ro, ⟨3, 0⟩)]
  | .VC_FLAGS _ _ => [(.w1c, ⟨4, 4⟩), (.w1c, ⟨3, 3⟩), (.w1c, ⟨2, 2⟩), (.w1c, ⟨1, 1⟩), (.w1c, ⟨0, 0⟩)]
  | .VC_EXC _ _ => [(.ros, ⟨31, 31⟩), (.ros, ⟨12, 8⟩), (.ros, ⟨7, 0⟩)]
  | .SQ_CTRL _ => [(.rw, ⟨31, 24⟩), (.wo, ⟨1, 1⟩), (.wo, ⟨0, 0⟩)]
  | .SQ_STATUS _ => [(.ro, ⟨31, 30⟩), (.ro, ⟨29, 29⟩), (.ro, ⟨28, 28⟩), (.ro, ⟨27, 27⟩), (.w1c, ⟨3, 3⟩), (.w1c, ⟨2, 2⟩), (.w1c, ⟨1, 1⟩)]
  | .SQ_PC _ => [(.ro, ⟨15, 0⟩)]
  | .SQ_EXC _ => [(.ros, ⟨31, 31⟩), (.ros, ⟨7, 0⟩)]
  | .SQ_PROG _ => [(.rw, ⟨24, 16⟩), (.rw, ⟨14, 0⟩)]
  | .SQ_LATE _ => [(.ros, ⟨63, 32⟩), (.ros, ⟨11, 0⟩)]
  | .SQ_CTXMASK _ _ => [(.rw, ⟨31, 0⟩)]
  | .SQ_SIG _ _ => [(.rw, ⟨63, 0⟩)]
  | .SL_STATUS _ _ => [(.ro, ⟨31, 30⟩), (.ro, ⟨29, 29⟩), (.ro, ⟨28, 24⟩), (.ro, ⟨23, 16⟩)]
  | .SL_DESC _ _ => [(.ro, ⟨22, 0⟩)]
  | .SL_CTRL _ _ => [(.wo, ⟨0, 0⟩)]
  | .SL_COUNT _ _ => [(.ro, ⟨31, 0⟩)]
  | .ROT_CTRL => [(.wo, ⟨2, 2⟩), (.wo, ⟨1, 1⟩), (.wo, ⟨0, 0⟩)]
  | .ROT_STATUS => [(.ro, ⟨31, 30⟩), (.ro, ⟨29, 24⟩), (.ro, ⟨23, 18⟩), (.ro, ⟨8, 8⟩), (.ro, ⟨7, 4⟩), (.ro, ⟨3, 3⟩), (.w1c, ⟨2, 2⟩), (.w1c, ⟨1, 1⟩), (.w1c, ⟨0, 0⟩)]
  | .ROT_PERIOD => [(.rw, ⟨19, 0⟩)]
  | .ROT_LATSIG => [(.rw, ⟨31, 0⟩)]
  | .ROT_START => [(.rw, ⟨63, 0⟩)]
  | .ROT_STOP => [(.rw, ⟨63, 0⟩)]
  | .TB_TIME => [(.ro, ⟨63, 0⟩)]
  | .TB_TURN => [(.ro, ⟨63, 0⟩)]
  | .TB_RAW => [(.ro, ⟨63, 0⟩)]
  | .TB_OFFSET => [(.rw, ⟨63, 0⟩)]
  | .TB_EPOCH => [(.rw, ⟨63, 0⟩)]
  | .TB_CYCLE => [(.ro, ⟨11, 0⟩)]
  | .TB_LATSIG => [(.ro, ⟨31, 0⟩)]
  | .TB_CHIP => [(.rw, ⟨24, 24⟩), (.rw, ⟨23, 16⟩), (.rwl, ⟨11, 11⟩), (.rwl, ⟨10, 10⟩), (.rwl, ⟨9, 9⟩), (.rwl, ⟨8, 0⟩)]
  | .LK_PING _ => [(.ro, ⟨31, 30⟩), (.ro, ⟨29, 28⟩), (.ro, ⟨27, 27⟩), (.ro, ⟨26, 26⟩), (.ro, ⟨23, 16⟩), (.wo, ⟨0, 0⟩)]
  | .LK_RTT _ => [(.ro, ⟨31, 16⟩), (.ro, ⟨15, 0⟩)]
  | .LK_DELTA _ => [(.ro, ⟨63, 0⟩)]
  | .LK_FAR _ => [(.ro, ⟨63, 0⟩)]
  | .LK_LAT _ => [(.ro, ⟨31, 16⟩), (.ro, ⟨15, 0⟩)]
  | .CN_CTRL _ => [(.wo, ⟨1, 1⟩), (.rw, ⟨0, 0⟩)]
  | .CN_STATUS _ => [(.ro, ⟨31, 30⟩), (.ro, ⟨29, 29⟩), (.ros, ⟨24, 16⟩), (.w1c, ⟨7, 7⟩), (.w1c, ⟨6, 6⟩), (.w1c, ⟨5, 5⟩), (.w1c, ⟨4, 4⟩), (.w1c, ⟨3, 3⟩), (.w1c, ⟨2, 2⟩), (.w1c, ⟨1, 1⟩), (.w1c, ⟨0, 0⟩)]
  | .CN_MAPADDR _ => [(.rw, ⟨31, 31⟩), (.rw, ⟨16, 16⟩), (.rw, ⟨12, 0⟩)]
  | .CN_MAPDATA _ => [(.rw, ⟨31, 0⟩)]
  | .CN_SCHEDLEN _ => [(.rw, ⟨7, 0⟩)]
  | .CN_REACH _ _ => [(.rw, ⟨31, 0⟩)]
  | .CN_STREAM _ _ => [(.rw, ⟨31, 24⟩), (.rw, ⟨23, 16⟩), (.rw, ⟨15, 8⟩), (.rw, ⟨7, 0⟩)]
  | .RSV_SCRATCH => [(.ro, ⟨31, 31⟩), (.w1c, ⟨30, 30⟩), (.rw, ⟨3, 0⟩)]
  | .RSV_WEIR _ => [(.rw, ⟨9, 0⟩)]
  | .RSV_WEIR_COUNT _ => [(.ro, ⟨21, 0⟩)]
  | .RSV_STATUS _ => [(.w1c, ⟨3, 3⟩), (.w1c, ⟨2, 2⟩), (.w1c, ⟨1, 1⟩), (.w1c, ⟨0, 0⟩)]
  | .RSV_ERRADDR _ => [(.ros, ⟨42, 6⟩)]
  | .RSV_CECNT _ => [(.w1c, ⟨31, 0⟩)]
  | .HB_CTRL _ => [(.wo, ⟨0, 0⟩)]
  | .HB_STATUS _ => [(.ro, ⟨31, 31⟩), (.ro, ⟨15, 10⟩), (.ro, ⟨9, 8⟩), (.w1c, ⟨2, 2⟩), (.w1c, ⟨1, 1⟩), (.w1c, ⟨0, 0⟩)]
  | .HB_ERRADDR _ => [(.ros, ⟨42, 6⟩)]
  | .HB_CECNT _ => [(.w1c, ⟨31, 0⟩)]
  | .HB_PAT _ _ j => if j = 3 then [(.rw, ⟨3, 0⟩)] else [(.rw, ⟨31, 0⟩)]
  | .T2_CTRL _ => [(.rw, ⟨0, 0⟩)]
  | .T2_STATUS _ => [(.ro, ⟨31, 30⟩), (.w1c, ⟨2, 2⟩), (.w1c, ⟨1, 1⟩), (.w1c, ⟨0, 0⟩)]
  | .T2_SIZE _ => [(.rw, ⟨9, 0⟩)]
  | .T2_ERRADDR _ => [(.ros, ⟨42, 6⟩)]
  | .T2_DROP _ => [(.ro, ⟨31, 0⟩)]
  | .SLAB_OWN _ _ => [(.rw, ⟨8, 8⟩), (.rw, ⟨7, 0⟩)]
  | .SLAB_STATUS _ => [(.ro, ⟨31, 31⟩), (.w1c, ⟨2, 2⟩), (.w1c, ⟨1, 1⟩), (.w1c, ⟨0, 0⟩)]
  | .SLAB_ERRADDR _ => [(.ros, ⟨22, 3⟩)]
  | .TR_CMD => [(.wo, ⟨3, 0⟩)]
  | .TR_STATUS => [(.ro, ⟨31, 31⟩), (.rw, ⟨26, 16⟩), (.ro, ⟨15, 8⟩), (.ro, ⟨3, 0⟩)]
  | .TR_ARG0 => [(.rw, ⟨63, 0⟩)]
  | .TR_ARG1 => [(.rw, ⟨63, 0⟩)]
  | .TR_ARG2 => [(.rw, ⟨63, 0⟩)]
  | .FQ_BASE => [(.rw, ⟨63, 12⟩)]
  | .HL_BASE => [(.rw, ⟨63, 12⟩)]
  | .FQ_CTRL => [(.rw, ⟨31, 31⟩), (.rw, ⟨30, 30⟩), (.rw, ⟨10, 0⟩)]
  | .HL_CTRL => [(.rw, ⟨31, 31⟩), (.rw, ⟨30, 30⟩), (.rw, ⟨10, 0⟩)]
  | .FQ_TAIL => [(.ro, ⟨11, 0⟩)]
  | .FQ_HEAD => [(.rw, ⟨11, 0⟩)]
  | .HL_TAIL => [(.ro, ⟨11, 0⟩)]
  | .HL_HEAD => [(.rw, ⟨9, 0⟩)]
  | .FQ_RESUME => [(.wo, ⟨31, 31⟩), (.wo, ⟨11, 0⟩)]
  | .FQ_STATUS => [(.ro, ⟨12, 1⟩), (.w1c, ⟨0, 0⟩)]
  | .FQ_OVERFLOW => [(.w1c, ⟨31, 0⟩)]
  | .HL_DROP => [(.w1c, ⟨31, 0⟩)]
  | .OT_REFUSALS => [(.w1c, ⟨31, 0⟩)]
  | .AC_CTRL => [(.rw, ⟨15, 0⟩)]
  | .OT_BASE => [(.rwl, ⟨42, 21⟩)]
  | .OT_FIRST => [(.w1c, ⟨63, 63⟩), (.ros, ⟨50, 43⟩), (.ros, ⟨42, 6⟩)]
  | .CTX_ENTRY0 _ => [(.ro, ⟨51, 12⟩)]
  | .CTX_ENTRY1 _ => [(.ro, ⟨37, 32⟩), (.ro, ⟨31, 31⟩), (.ro, ⟨27, 24⟩), (.ro, ⟨23, 16⟩), (.ro, ⟨12, 0⟩)]
  | .COH_CTRL => [(.rw, ⟨15, 0⟩)]
  | .COH_RECLAIM => [(.ro, ⟨31, 31⟩), (.wo, ⟨8, 8⟩), (.rw, ⟨7, 0⟩)]
  | .COH_DEAD _ => [(.w1c, ⟨31, 0⟩)]
  | .LL_BASE => [(.rw, ⟨42, 16⟩)]
  | .LL_CTRL => [(.rw, ⟨31, 31⟩), (.rw, ⟨10, 0⟩)]
  | .LL_TAIL => [(.ro, ⟨11, 0⟩)]
  | .LL_HEAD => [(.rw, ⟨11, 0⟩)]
  | .LL_OVERFLOW => [(.w1c, ⟨31, 0⟩)]
  | .BIAS_CMD => [(.wo, ⟨3, 0⟩)]
  | .BIAS_STATUS => [(.ro, ⟨31, 31⟩), (.ro, ⟨24, 4⟩), (.ro, ⟨3, 0⟩)]
  | .BIAS_ARG => [(.rw, ⟨53, 48⟩), (.rw, ⟨47, 24⟩), (.rw, ⟨23, 0⟩)]
  | .LOCK _ => [(.ro, ⟨63, 63⟩), (.ro, ⟨47, 24⟩), (.ro, ⟨23, 0⟩)]
  | .DIR_STATUS _ => [(.ro, ⟨23, 16⟩), (.ro, ⟨15, 7⟩), (.w1c, ⟨0, 0⟩)]
  | .DIR_ERRADDR _ => [(.ros, ⟨15, 4⟩), (.ros, ⟨3, 0⟩)]
  | .DIR_CECNT _ => [(.w1c, ⟨31, 0⟩)]
  | .DIR_STRAY _ => [(.w1c, ⟨31, 0⟩)]
  | .DIR_LOSTCNT _ => [(.ro, ⟨31, 0⟩)]
  | .DIR_PROBE _ => [(.wo, ⟨63, 63⟩), (.ro, ⟨62, 62⟩), (.rw, ⟨15, 4⟩), (.rw, ⟨3, 0⟩)]
  | .DIR_PROBE_DATA _ _ => [(.ro, ⟨31, 0⟩)]
  | .CUL_CTRL => [(.rw, ⟨31, 31⟩), (.rw, ⟨7, 0⟩)]
  | .CUL_BASE => [(.ro, ⟨42, 30⟩)]
  | .CUL_MOVE => [(.wo, ⟨63, 63⟩), (.rw, ⟨42, 30⟩)]
  | .CUL_STATUS => [(.ro, ⟨31, 31⟩), (.w1c, ⟨4, 4⟩), (.ro, ⟨3, 0⟩)]
  | .PG_ROLE => [(.rwl, ⟨11, 0⟩)]
  | .HF_CTRL => [(.rwl, ⟨13, 8⟩), (.rwl, ⟨0, 0⟩)]
  | .HF_SUBSYS => [(.rwl, ⟨31, 16⟩), (.rwl, ⟨15, 0⟩)]
  | .PG_STATUS _ => [(.ro, ⟨31, 30⟩), (.ro, ⟨29, 27⟩), (.ro, ⟨26, 22⟩), (.ro, ⟨21, 21⟩), (.ro, ⟨20, 20⟩), (.ro, ⟨19, 18⟩), (.ro, ⟨17, 17⟩), (.ro, ⟨16, 16⟩), (.w1c, ⟨2, 2⟩), (.w1c, ⟨1, 1⟩), (.w1c, ⟨0, 0⟩)]
  | .HF_WAKE => [(.wo, ⟨0, 0⟩)]
  | .HF_REVOKED _ => [(.ro, ⟨31, 0⟩)]
  | .HP_REFUSE => [(.w1c, ⟨31, 0⟩)]
  | .HP_REFFIRST => [(.w1c, ⟨63, 63⟩), (.ros, ⟨62, 62⟩), (.ros, ⟨61, 58⟩), (.ros, ⟨42, 6⟩)]
  | .AT_ID => [(.ro, ⟨31, 16⟩), (.ro, ⟨15, 0⟩)]
  | .AT_STATE => [(.ro, ⟨11, 8⟩), (.ro, ⟨7, 4⟩), (.ro, ⟨3, 2⟩), (.ro, ⟨1, 0⟩)]
  | .AT_GEN => [(.ro, ⟨31, 0⟩)]
  | .AT_TIME => [(.ro, ⟨63, 0⟩)]
  | .AT_ATTACH => [(.wo, ⟨31, 8⟩), (.wo, ⟨2, 2⟩), (.wo, ⟨1, 0⟩)]
  | .HGU_STATUS => [(.w1c, ⟨3, 3⟩), (.ro, ⟨2, 2⟩), (.w1c, ⟨1, 1⟩), (.w1c, ⟨0, 0⟩)]
  | .HR_BASE => [(.rwl, ⟨42, 21⟩)]
  | .HR_TAIL => [(.ro, ⟨16, 0⟩)]
  | .HR_HEAD => [(.rw, ⟨16, 0⟩)]
  | .HR_COUNT => [(.ro, ⟨16, 0⟩)]
  | .HR_ENTRY _ => [(.ro, ⟨63, 0⟩)]
  | .TO_REFUSE => [(.w1c, ⟨31, 0⟩)]
  | .TO_APER _ => [(.rw, ⟨33, 12⟩)]
  | .TO_CFG _ => [(.rw, ⟨31, 31⟩), (.rw, ⟨30, 30⟩), (.rw, ⟨29, 29⟩), (.rw, ⟨23, 16⟩)]
  | .TO_PAGES _ => [(.rw, ⟨22, 0⟩)]
  | .TO_VBASE _ => [(.rw, ⟨63, 12⟩)]
  | .HG_BASE _ => [(.rw, ⟨63, 12⟩)]
  | .HG_CFG _ => [(.rw, ⟨31, 31⟩), (.rw, ⟨30, 29⟩), (.rw, ⟨28, 24⟩), (.rw, ⟨23, 16⟩)]
  | .HG_BIND _ => [(.rw, ⟨31, 26⟩), (.rw, ⟨25, 20⟩), (.rw, ⟨10, 0⟩)]
  | .HG_STATUS _ => [(.ro, ⟨31, 30⟩), (.ro, ⟨29, 26⟩), (.w1c, ⟨25, 25⟩), (.ro, ⟨24, 17⟩), (.ro, ⟨16, 16⟩), (.ro, ⟨3, 0⟩)]
  | .HG_PTR _ => [(.ro, ⟨31, 16⟩), (.ro, ⟨15, 0⟩)]
  | .HG_ERRREC _ => [(.rw, ⟨63, 4⟩)]
  | .ES_CTRL _ => [(.rw, ⟨4, 4⟩), (.rw, ⟨3, 3⟩), (.wo, ⟨2, 2⟩), (.wo, ⟨1, 1⟩), (.rw, ⟨0, 0⟩)]
  | .ES_STATUS _ => [(.ro, ⟨31, 29⟩), (.ro, ⟨28, 26⟩), (.ro, ⟨25, 25⟩), (.ro, ⟨24, 24⟩), (.ro, ⟨23, 23⟩), (.ro, ⟨22, 22⟩), (.w1c, ⟨5, 5⟩), (.w1c, ⟨4, 4⟩), (.w1c, ⟨3, 3⟩), (.w1c, ⟨2, 2⟩), (.w1c, ⟨1, 1⟩)]
  | .ES_LINK _ => [(.ro, ⟨31, 29⟩), (.ro, ⟨28, 28⟩), (.ro, ⟨27, 27⟩)]
  | .ES_DESC _ _ => [(.ro, ⟨31, 0⟩)]
  | .ES_FIELD _ => [(.rwl, ⟨3, 0⟩)]
  | .ES_BIND _ => [(.rw, ⟨31, 26⟩), (.rw, ⟨10, 0⟩)]
  | .ES_PASID _ _ => [(.rw, ⟨31, 0⟩)]
  | .ES_LAT _ => [(.ro, ⟨15, 0⟩)]
  | .ES_MMIO_ADDR _ => [(.wo, ⟨63, 63⟩), (.rw, ⟨62, 62⟩), (.rw, ⟨50, 48⟩), (.rw, ⟨47, 2⟩)]
  | .ES_MMIO_DATA _ => [(.rw, ⟨31, 0⟩)]
  | .ES_MMIO_STAT _ => [(.ro, ⟨31, 31⟩), (.ro, ⟨1, 0⟩)]
  | .ES_GRANT _ _ => [(.rw, ⟨31, 30⟩), (.rw, ⟨15, 14⟩)]
  | .LV_CTRL => [(.ro, ⟨31, 31⟩), (.rwl, ⟨15, 8⟩), (.wo, ⟨0, 0⟩)]
  | .LV_FUNC _ => [(.rwl, ⟨31, 0⟩)]
  | .LV_TILE _ => [(.rwl, ⟨31, 0⟩)]
  | .LV_LINK _ => [(.rwl, ⟨31, 0⟩)]
  | .LV_TYPE => [(.rwl, ⟨19, 0⟩)]
  | .LV_PORTMASK => [(.rwl, ⟨31, 16⟩), (.rwl, ⟨15, 0⟩)]
  | .LV_DEBUG _ => [(.rwl, ⟨31, 0⟩)]
  | .LV_RIDER _ => [(.rwl, ⟨11, 8⟩), (.rwl, ⟨7, 0⟩)]
  | .BOOT_STATUS => [(.rw, ⟨31, 28⟩), (.rw, ⟨15, 8⟩)]
  | .LC_STATE => [(.ro, ⟨2, 0⟩)]
  | .DBG_CTRL => [(.wo, ⟨1, 1⟩), (.wo, ⟨0, 0⟩)]
  | .DBG_GRANT => [(.ro, ⟨31, 31⟩), (.ro, ⟨30, 29⟩), (.ro, ⟨27, 24⟩), (.ro, ⟨15, 0⟩)]
  | .DBG_LEFT => [(.ro, ⟨15, 0⟩)]
  | .DBG_NONCE => [(.ro, ⟨63, 0⟩)]
  | .LV_MEM _ => [(.rwl, ⟨63, 63⟩), (.rwl, ⟨59, 56⟩), (.rwl, ⟨52, 32⟩), (.rwl, ⟨20, 0⟩)]
  | .LV_KEY _ => [(.rwl, ⟨31, 8⟩), (.rwl, ⟨4, 4⟩), (.rwl, ⟨3, 0⟩)]
  | .RC_CTRL => [(.rw, ⟨7, 2⟩), (.rw, ⟨0, 0⟩)]
  | .RC_STATUS => [(.ro, ⟨7, 2⟩), (.w1c, ⟨0, 0⟩)]
  | .RC_ENTRY _ => [(.rw, ⟨63, 0⟩)]
  | .WM_STATE => [(.ro, ⟨31, 31⟩), (.ro, ⟨30, 30⟩), (.ro, ⟨29, 29⟩), (.ro, ⟨7, 0⟩)]
  | .WM_VECTOR => [(.rw, ⟨10, 0⟩)]
  | .WM_RAISE => [(.wo, ⟨7, 0⟩)]
  | .WM_DISCARD_HOST => [(.ro, ⟨31, 0⟩)]
  | .WM_DISCARD_CANAL => [(.ro, ⟨31, 0⟩)]
  | .WM_PEND _ => [(.ro, ⟨31, 0⟩)]
  | .WM_TILEMAP _ => [(.w1c, ⟨47, 0⟩)]
  | .WM_SLICEMAP _ => [(.w1c, ⟨31, 0⟩)]
  | .WM_SLOTMAP _ => [(.w1c, ⟨15, 0⟩)]
  | .TW_STATUS => [(.ro, ⟨31, 31⟩), (.ro, ⟨29, 15⟩), (.w1c, ⟨2, 2⟩), (.w1c, ⟨1, 1⟩), (.w1c, ⟨0, 0⟩)]
  | .TW_LAST => [(.ro, ⟨63, 0⟩)]
  | .WM_SRC _ => [(.w1c, ⟨31, 31⟩), (.rw, ⟨30, 30⟩), (.rw, ⟨29, 29⟩), (.ro, ⟨25, 24⟩), (.rw, ⟨1, 0⟩)]
  | .RST_CAUSE => [(.w1c, ⟨12, 0⟩)]
  | .RST_STATUS => [(.ro, ⟨31, 30⟩), (.ro, ⟨29, 29⟩), (.ro, ⟨28, 28⟩), (.ros, ⟨25, 25⟩), (.ros, ⟨24, 24⟩)]
  | .RST_CTRL => [(.wo, ⟨0, 0⟩)]
  | .RST_TILE => [(.w1s, ⟨47, 0⟩)]
  | .RST_LINK => [(.w1s, ⟨35, 0⟩)]
  | .RST_UNIT => [(.w1s, ⟨22, 21⟩), (.w1s, ⟨20, 20⟩), (.w1s, ⟨19, 16⟩), (.w1s, ⟨15, 0⟩)]
  | .RST_PARTILE => [(.w1c, ⟨47, 0⟩)]
  | .RST_WD => [(.rw, ⟨31, 31⟩), (.rw, ⟨23, 0⟩)]
  | .RST_WD_KICK => [(.wo, ⟨15, 0⟩)]
  | .RST_RETIRE => [(.wo, ⟨31, 31⟩), (.ro, ⟨30, 30⟩), (.ro, ⟨29, 28⟩), (.rw, ⟨5, 0⟩)]
  | .RST_RETIRED => [(.ro, ⟨49, 0⟩)]
  | .CLK_STATUS => [(.ro, ⟨31, 31⟩), (.ro, ⟨30, 30⟩), (.ro, ⟨15, 0⟩)]
  | .PW_STRETCH => [(.w1c, ⟨31, 31⟩), (.ro, ⟨29, 24⟩), (.ro, ⟨21, 16⟩), (.rw, ⟨5, 0⟩)]
  | .PW_STATE => [(.ro, ⟨31, 30⟩), (.ro, ⟨26, 16⟩), (.ro, ⟨4, 0⟩)]
  | .PW_TELEM => [(.ro, ⟨31, 16⟩), (.ro, ⟨15, 0⟩)]
  | .OBS_CTRL => [(.wo, ⟨31, 31⟩), (.rw, ⟨17, 16⟩), (.rw, ⟨15, 0⟩)]
  | .OBS_STATUS => [(.ro, ⟨31, 31⟩), (.ro, ⟨30, 29⟩), (.ro, ⟨24, 16⟩), (.w1c, ⟨3, 3⟩), (.w1c, ⟨2, 2⟩), (.w1c, ⟨1, 1⟩)]
  | .OBS_HALT => [(.wo, ⟨31, 31⟩), (.ro, ⟨15, 0⟩)]
  | .OBS_RESUME => [(.wo, ⟨63, 0⟩)]
  | .TR_TRIGTIME => [(.rw, ⟨63, 0⟩)]
  | .OBS_TAGFILT => [(.rw, ⟨63, 48⟩), (.rw, ⟨47, 32⟩), (.rw, ⟨31, 16⟩), (.rw, ⟨15, 0⟩)]
  | .SMP_BASE => [(.rw, ⟨42, 21⟩)]
  | .TR_BASE => [(.rw, ⟨42, 21⟩)]
  | .SMP_CTRL => [(.rw, ⟨31, 31⟩), (.rw, ⟨30, 30⟩), (.rw, ⟨29, 27⟩), (.rw, ⟨26, 22⟩), (.rw, ⟨19, 0⟩)]
  | .SMP_TAIL => [(.ro, ⟨23, 0⟩)]
  | .SMP_HEAD => [(.rw, ⟨23, 0⟩)]
  | .SMP_SKIP => [(.w1c, ⟨31, 0⟩)]
  | .TR_DROP => [(.w1c, ⟨31, 0⟩)]
  | .HR_FRAMES => [(.w1c, ⟨31, 0⟩)]
  | .HR_MISSING => [(.w1c, ⟨31, 0⟩)]
  | .HR_ERRORS => [(.w1c, ⟨31, 0⟩)]
  | .TR_CTRL => [(.rw, ⟨31, 31⟩), (.rw, ⟨30, 30⟩), (.rw, ⟨29, 29⟩), (.wo, ⟨28, 28⟩), (.rw, ⟨27, 23⟩), (.rw, ⟨5, 5⟩), (.rw, ⟨4, 4⟩), (.rw, ⟨3, 0⟩)]
  | .TR_MIN => [(.rw, ⟨15, 0⟩)]
  | .TR_TAIL => [(.ro, ⟨25, 0⟩)]
  | .TR_HEAD => [(.rw, ⟨25, 0⟩)]
  | .TR_COUNT => [(.ro, ⟨25, 0⟩)]
  | .TRACE_STATUS => [(.ro, ⟨31, 31⟩), (.ro, ⟨30, 30⟩), (.ro, ⟨24, 0⟩)]
  | .TR_TRIG => [(.rw, ⟨31, 31⟩), (.wo, ⟨30, 30⟩), (.rw, ⟨29, 27⟩), (.rw, ⟨7, 0⟩)]
  | .TR_TOTAL => [(.ro, ⟨63, 0⟩)]
  | .SNAP_BASE => [(.rw, ⟨42, 20⟩)]
  | .SNAP_CTRL => [(.wo, ⟨31, 31⟩), (.ro, ⟨30, 30⟩), (.ro, ⟨29, 28⟩)]
  | .RACE_CTRL => [(.rw, ⟨31, 30⟩)]
  | .RACE_STATUS => [(.ro, ⟨31, 30⟩), (.w1c, ⟨2, 2⟩), (.w1c, ⟨1, 1⟩), (.w1c, ⟨0, 0⟩)]
  | .HR_MAPADDR => [(.rw, ⟨31, 31⟩), (.rw, ⟨8, 0⟩)]
  | .HR_MAPDATA => [(.rw, ⟨15, 15⟩), (.rw, ⟨3, 0⟩)]
  | .DUMP_CTRL _ => [(.rw, ⟨31, 31⟩), (.ro, ⟨30, 28⟩), (.rw, ⟨27, 27⟩), (.rw, ⟨23, 0⟩)]
  | .DUMP_STEP _ => [(.rw, ⟨31, 0⟩)]
  | .DUMP_DEST _ => [(.rw, ⟨42, 8⟩)]
  | .DUMP_MAX _ => [(.rw, ⟨14, 0⟩)]
  | .HR_SCFG _ => [(.rw, ⟨31, 31⟩), (.rw, ⟨29, 24⟩), (.rw, ⟨23, 16⟩), (.rw, ⟨7, 4⟩), (.rw, ⟨1, 0⟩)]
  | .HR_SBASE _ => [(.rw, ⟨22, 8⟩)]
  | .HR_SLEN _ => [(.rw, ⟨13, 0⟩)]
  | .HR_SSTART _ _ => [(.rw, ⟨19, 0⟩)]
  | .OBS_DP_TAG _ => [(.rw, ⟨23, 0⟩)]
  | .OBS_DP_STEP _ => [(.rw, ⟨31, 0⟩)]
  | .OBS_DP_SRC _ => [(.rw, ⟨22, 8⟩)]
  | .OBS_DP_CTRL _ => [(.wo, ⟨31, 31⟩), (.ro, ⟨30, 30⟩), (.ro, ⟨29, 27⟩), (.rw, ⟨23, 16⟩), (.rw, ⟨14, 0⟩)]
  | .OBS_BP _ => [(.rw, ⟨31, 31⟩), (.ro, ⟨30, 30⟩), (.rw, ⟨15, 2⟩)]

/-- The reset severity of each watermaster source (R508). -/
def wmSeverity (n : Nat) : Nat :=
  if [0, 1, 5, 9, 11, 12, 13, 14, 17, 18, 22, 27, 31, 35, 39, 43, 47, 51, 55, 99, 101, 102, 120, 121, 129, 130, 132, 133, 134, 143, 144, 149, 150, 152, 153, 154].contains n then 3
  else if [6, 7, 8, 135, 136, 137, 138, 139, 140].contains n then 2
  else if [69, 72, 74, 77, 79, 82, 84, 87, 89, 92, 94, 97, 131, 142, 145, 148].contains n then 0
  else 1

/-- The reset ENABLE of each watermaster source (R508). -/
def wmEnable (n : Nat) : Nat :=
  if [21, 69, 72, 74, 77, 79, 82, 84, 87, 89, 92, 94, 97, 131, 145, 148].contains n then 0 else 1

/-- WM_SRC of source n at reset: ENABLE and SEVERITY of R508, LEVEL equal to SEVERITY. -/
def WM_SRC_reset (n : Nat) : BitVec 64 := BitVec.ofNat 64 (wmEnable n * 2 ^ 30 + wmSeverity n * 2 ^ 24 + wmSeverity n)

/-- The register's value at reset, from its table (R12). -/
def Reg.resetVal : Reg → BitVec 64
  | .ID_BLOCK => 0x4D020110#64
  | .ID_GEOMETRY => 0x68C3290#64
  | .ID_MEMORY => 0x1820CA8D#64
  | .ID_PORTS => 0x921A3900#64
  | .SQ_CTXMASK _ w => if w = 0 then 1 else 0
  | .TB_LATSIG => 0x700A059C#64
  | .TB_CHIP => 0xFF0000#64
  | .LK_PING _ => 0xFF0000#64
  | .CN_STREAM _ _ => 0xFFFFFFFF#64
  | .CTX_ENTRY1 n => if n = 0 then 0x80000000#64 else 0#64
  | .COH_CTRL => 0x64#64
  | .PG_ROLE => 0xAA5#64
  | .HF_SUBSYS => 0xAC211F3C#64
  | .AT_ID => 0xAC210001#64
  | .ES_FIELD _ => 0xF#64
  | .LV_CTRL => 0xFF00#64
  | .LV_FUNC k => if k = 0 then 0xFFFFFFF0#64 else 0xFFFFFFFF#64
  | .LV_TILE _ => 0xFFFFFFFF#64
  | .LV_LINK k => if k = 4 then 0x0000FFFF#64 else 0xFFFFFFFF#64
  | .LV_RIDER _ => 0xF00#64
  | .LV_MEM _ => 0xF00000000000000#64
  | .LV_KEY _ => 0xF#64
  | .RC_CTRL => 0x1#64
  | .TW_LAST => 0xFFFFFFFFFFFFFFFF#64
  | .WM_SRC n => WM_SRC_reset n
  | .RST_CAUSE => 0x1#64
  | .CLK_STATUS => 0xC0000000#64
  | .PW_STATE => 0x7D00014#64
  | .SMP_CTRL => 0x5400000#64
  | .TR_CTRL => 0xD000000#64
  | _ => 0#64

/-- A row of the offset map: where the register's first instance lies, its indices' counts and strides, its width in
bytes, and the register of given indices. -/
structure RegRow where
  base : Nat
  dims : List (Nat × Nat)
  bytes : Nat
  reg : Nat → Nat → Nat → Reg

/-- The indices of the instance that holds the byte at offset d past the row's base, if one does: the outermost index
first, the offset within the register last. -/
def RegRow.indices : List (Nat × Nat) → Nat → List Nat
  | [], d => [d]
  | (n, st) :: rest, d =>
    if d / st < n then d / st :: RegRow.indices rest (d % st) else (n - 1) :: RegRow.indices rest (d - (n - 1) * st)

/-- The register of the row that holds the byte at the offset, and the byte's place in it. -/
def RegRow.find (row : RegRow) (off : Nat) : Option (Reg × Nat) :=
  if off < row.base then none
  else
    let is := RegRow.indices row.dims (off - row.base)
    let at_ := is.getLastD 0
    if at_ < row.bytes then
      let a := is.dropLast
      some (row.reg (a.getD 0 0) (a.getD 1 0) (a.getD 2 0), at_)
    else none

/-- The rows of 00_scope.md. -/
def regRows00 : List RegRow := [
  ⟨0x0, [], 4, fun _ _ _ => .ID_BLOCK⟩,
  ⟨0x4, [], 4, fun _ _ _ => .ID_GEOMETRY⟩,
  ⟨0x8, [], 4, fun _ _ _ => .ID_MEMORY⟩,
  ⟨0xc, [], 4, fun _ _ _ => .ID_PORTS⟩]

/-- The rows of 03_tensor_array.md. -/
def regRows03 : List RegRow := [
  ⟨0x103000, [(48, 0x4000)], 4, fun t _ _ => .TA_STATUS t⟩,
  ⟨0x103004, [(48, 0x4000)], 4, fun t _ _ => .TA_FLAGS t⟩]

/-- The rows of 04_thread_groups.md. -/
def regRows04 : List RegRow := [
  ⟨0x102000, [(48, 0x4000), (4, 0x100)], 4, fun t v _ => .VC_STATUS t v⟩,
  ⟨0x102004, [(48, 0x4000), (4, 0x100)], 4, fun t v _ => .VC_OCC t v⟩,
  ⟨0x102008, [(48, 0x4000), (4, 0x100)], 4, fun t v _ => .VC_FLAGS t v⟩,
  ⟨0x10200c, [(48, 0x4000), (4, 0x100)], 4, fun t v _ => .VC_EXC t v⟩]

/-- The rows of 06_sequencers_and_sluices.md. -/
def regRows06 : List RegRow := [
  ⟨0x100000, [(48, 0x4000)], 4, fun t _ _ => .SQ_CTRL t⟩,
  ⟨0x100004, [(48, 0x4000)], 4, fun t _ _ => .SQ_STATUS t⟩,
  ⟨0x100008, [(48, 0x4000)], 4, fun t _ _ => .SQ_PC t⟩,
  ⟨0x10000c, [(48, 0x4000)], 4, fun t _ _ => .SQ_EXC t⟩,
  ⟨0x100010, [(48, 0x4000)], 4, fun t _ _ => .SQ_PROG t⟩,
  ⟨0x100018, [(48, 0x4000)], 8, fun t _ _ => .SQ_LATE t⟩,
  ⟨0x100020, [(48, 0x4000), (8, 0x4)], 4, fun t w _ => .SQ_CTXMASK t w⟩,
  ⟨0x100800, [(48, 0x4000), (64, 0x8)], 8, fun t n _ => .SQ_SIG t n⟩,
  ⟨0x101000, [(48, 0x4000), (8, 0x40)], 4, fun t c _ => .SL_STATUS t c⟩,
  ⟨0x101004, [(48, 0x4000), (8, 0x40)], 4, fun t c _ => .SL_DESC t c⟩,
  ⟨0x101008, [(48, 0x4000), (8, 0x40)], 4, fun t c _ => .SL_CTRL t c⟩,
  ⟨0x10100c, [(48, 0x4000), (8, 0x40)], 4, fun t c _ => .SL_COUNT t c⟩]

/-- The rows of 07_rotation.md. -/
def regRows07 : List RegRow := [
  ⟨0x90000, [], 4, fun _ _ _ => .ROT_CTRL⟩,
  ⟨0x90004, [], 4, fun _ _ _ => .ROT_STATUS⟩,
  ⟨0x90008, [], 4, fun _ _ _ => .ROT_PERIOD⟩,
  ⟨0x9000c, [], 4, fun _ _ _ => .ROT_LATSIG⟩,
  ⟨0x90010, [], 8, fun _ _ _ => .ROT_START⟩,
  ⟨0x90018, [], 8, fun _ _ _ => .ROT_STOP⟩,
  ⟨0x90020, [], 8, fun _ _ _ => .TB_TIME⟩,
  ⟨0x90028, [], 8, fun _ _ _ => .TB_TURN⟩,
  ⟨0x90030, [], 8, fun _ _ _ => .TB_RAW⟩,
  ⟨0x90038, [], 8, fun _ _ _ => .TB_OFFSET⟩,
  ⟨0x90040, [], 8, fun _ _ _ => .TB_EPOCH⟩,
  ⟨0x90048, [], 4, fun _ _ _ => .TB_CYCLE⟩,
  ⟨0x9004c, [], 4, fun _ _ _ => .TB_LATSIG⟩,
  ⟨0x90050, [], 4, fun _ _ _ => .TB_CHIP⟩,
  ⟨0x90100, [(36, 0x20)], 4, fun l _ _ => .LK_PING l⟩,
  ⟨0x90104, [(36, 0x20)], 4, fun l _ _ => .LK_RTT l⟩,
  ⟨0x90108, [(36, 0x20)], 8, fun l _ _ => .LK_DELTA l⟩,
  ⟨0x90110, [(36, 0x20)], 8, fun l _ _ => .LK_FAR l⟩,
  ⟨0x90118, [(36, 0x20)], 4, fun l _ _ => .LK_LAT l⟩]

/-- The rows of 08_canal_links.md. -/
def regRows08 : List RegRow := [
  ⟨0xa0000, [(36, 0x1000)], 4, fun l _ _ => .CN_CTRL l⟩,
  ⟨0xa0004, [(36, 0x1000)], 4, fun l _ _ => .CN_STATUS l⟩,
  ⟨0xa0008, [(36, 0x1000)], 4, fun l _ _ => .CN_MAPADDR l⟩,
  ⟨0xa000c, [(36, 0x1000)], 4, fun l _ _ => .CN_MAPDATA l⟩,
  ⟨0xa0010, [(36, 0x1000)], 4, fun l _ _ => .CN_SCHEDLEN l⟩,
  ⟨0xa0020, [(36, 0x1000), (16, 0x4)], 4, fun l k _ => .CN_REACH l k⟩,
  ⟨0xa0400, [(36, 0x1000), (64, 0x4)], 4, fun l k _ => .CN_STREAM l k⟩]

/-- The rows of 09_reservoir_and_tiers.md. -/
def regRows09 : List RegRow := [
  ⟨0xe0000, [(32, 0x1000)], 4, fun _ _ _ => .RSV_SCRATCH⟩,
  ⟨0xe0004, [(32, 0x1000)], 4, fun n _ _ => .RSV_WEIR n⟩,
  ⟨0xe0008, [(32, 0x1000)], 4, fun n _ _ => .RSV_WEIR_COUNT n⟩,
  ⟨0xe000c, [(32, 0x1000)], 4, fun n _ _ => .RSV_STATUS n⟩,
  ⟨0xe0010, [(32, 0x1000)], 8, fun n _ _ => .RSV_ERRADDR n⟩,
  ⟨0xe0018, [(32, 0x1000)], 4, fun n _ _ => .RSV_CECNT n⟩,
  ⟨0x1c0000, [(8, 0x1000)], 4, fun k _ _ => .HB_CTRL k⟩,
  ⟨0x1c0004, [(8, 0x1000)], 4, fun k _ _ => .HB_STATUS k⟩,
  ⟨0x1c0008, [(8, 0x1000)], 8, fun k _ _ => .HB_ERRADDR k⟩,
  ⟨0x1c0010, [(8, 0x1000)], 4, fun k _ _ => .HB_CECNT k⟩,
  ⟨0x1c0100, [(8, 0x1000), (64, 0x10), (4, 0x4)], 4, fun k p j => .HB_PAT k p j⟩,
  ⟨0x1c8000, [(4, 0x1000)], 4, fun g _ _ => .T2_CTRL g⟩,
  ⟨0x1c8004, [(4, 0x1000)], 4, fun g _ _ => .T2_STATUS g⟩,
  ⟨0x1c8008, [(4, 0x1000)], 4, fun g _ _ => .T2_SIZE g⟩,
  ⟨0x1c8010, [(4, 0x1000)], 8, fun g _ _ => .T2_ERRADDR g⟩,
  ⟨0x1c8018, [(4, 0x1000)], 4, fun g _ _ => .T2_DROP g⟩,
  ⟨0x103200, [(48, 0x4000), (24, 0x4)], 4, fun t u _ => .SLAB_OWN t u⟩,
  ⟨0x103260, [(48, 0x4000)], 4, fun t _ _ => .SLAB_STATUS t⟩,
  ⟨0x103268, [(48, 0x4000)], 4, fun t _ _ => .SLAB_ERRADDR t⟩]

/-- The rows of 10_translation.md. -/
def regRows10 : List RegRow := [
  ⟨0x50000, [], 4, fun _ _ _ => .TR_CMD⟩,
  ⟨0x50004, [], 4, fun _ _ _ => .TR_STATUS⟩,
  ⟨0x50008, [], 8, fun _ _ _ => .TR_ARG0⟩,
  ⟨0x50010, [], 8, fun _ _ _ => .TR_ARG1⟩,
  ⟨0x50018, [], 8, fun _ _ _ => .TR_ARG2⟩,
  ⟨0x50100, [], 8, fun _ _ _ => .FQ_BASE⟩,
  ⟨0x50140, [], 8, fun _ _ _ => .HL_BASE⟩,
  ⟨0x50108, [], 4, fun _ _ _ => .FQ_CTRL⟩,
  ⟨0x50148, [], 4, fun _ _ _ => .HL_CTRL⟩,
  ⟨0x5010c, [], 4, fun _ _ _ => .FQ_TAIL⟩,
  ⟨0x50110, [], 4, fun _ _ _ => .FQ_HEAD⟩,
  ⟨0x5014c, [], 4, fun _ _ _ => .HL_TAIL⟩,
  ⟨0x50150, [], 4, fun _ _ _ => .HL_HEAD⟩,
  ⟨0x50114, [], 4, fun _ _ _ => .FQ_RESUME⟩,
  ⟨0x50118, [], 4, fun _ _ _ => .FQ_STATUS⟩,
  ⟨0x5011c, [], 4, fun _ _ _ => .FQ_OVERFLOW⟩,
  ⟨0x5015c, [], 4, fun _ _ _ => .HL_DROP⟩,
  ⟨0x5020c, [], 4, fun _ _ _ => .OT_REFUSALS⟩,
  ⟨0x50160, [], 4, fun _ _ _ => .AC_CTRL⟩,
  ⟨0x50200, [], 8, fun _ _ _ => .OT_BASE⟩,
  ⟨0x50210, [], 8, fun _ _ _ => .OT_FIRST⟩,
  ⟨0x51000, [(256, 0x10)], 8, fun n _ _ => .CTX_ENTRY0 n⟩,
  ⟨0x51008, [(256, 0x10)], 8, fun n _ _ => .CTX_ENTRY1 n⟩]

/-- The rows of 11_directory_coherence.md. -/
def regRows11 : List RegRow := [
  ⟨0x80800, [], 4, fun _ _ _ => .COH_CTRL⟩,
  ⟨0x80804, [], 4, fun _ _ _ => .COH_RECLAIM⟩,
  ⟨0x80810, [(3, 0x4)], 4, fun k _ _ => .COH_DEAD k⟩,
  ⟨0x80820, [], 8, fun _ _ _ => .LL_BASE⟩,
  ⟨0x80828, [], 4, fun _ _ _ => .LL_CTRL⟩,
  ⟨0x8082c, [], 4, fun _ _ _ => .LL_TAIL⟩,
  ⟨0x80830, [], 4, fun _ _ _ => .LL_HEAD⟩,
  ⟨0x80834, [], 4, fun _ _ _ => .LL_OVERFLOW⟩,
  ⟨0x80840, [], 4, fun _ _ _ => .BIAS_CMD⟩,
  ⟨0x80844, [], 4, fun _ _ _ => .BIAS_STATUS⟩,
  ⟨0x80848, [], 8, fun _ _ _ => .BIAS_ARG⟩,
  ⟨0x80900, [(64, 0x8)], 8, fun n _ _ => .LOCK n⟩,
  ⟨0xe0100, [(32, 0x1000)], 4, fun n _ _ => .DIR_STATUS n⟩,
  ⟨0xe0104, [(32, 0x1000)], 4, fun n _ _ => .DIR_ERRADDR n⟩,
  ⟨0xe0108, [(32, 0x1000)], 4, fun n _ _ => .DIR_CECNT n⟩,
  ⟨0xe010c, [(32, 0x1000)], 4, fun n _ _ => .DIR_STRAY n⟩,
  ⟨0xe0110, [(32, 0x1000)], 4, fun n _ _ => .DIR_LOSTCNT n⟩,
  ⟨0xe0118, [(32, 0x1000)], 8, fun n _ _ => .DIR_PROBE n⟩,
  ⟨0xe0120, [(32, 0x1000), (4, 0x4)], 4, fun n k _ => .DIR_PROBE_DATA n k⟩]

/-- The rows of 13_host_function.md. -/
def regRows13 : List RegRow := [
  ⟨0x80000, [], 4, fun _ _ _ => .CUL_CTRL⟩,
  ⟨0x80008, [], 8, fun _ _ _ => .CUL_BASE⟩,
  ⟨0x80010, [], 8, fun _ _ _ => .CUL_MOVE⟩,
  ⟨0x80018, [], 4, fun _ _ _ => .CUL_STATUS⟩,
  ⟨0x80100, [], 4, fun _ _ _ => .PG_ROLE⟩,
  ⟨0x80104, [], 4, fun _ _ _ => .HF_CTRL⟩,
  ⟨0x80108, [], 4, fun _ _ _ => .HF_SUBSYS⟩,
  ⟨0x80140, [(6, 0x4)], 4, fun g _ _ => .PG_STATUS g⟩,
  ⟨0x80160, [], 4, fun _ _ _ => .HF_WAKE⟩,
  ⟨0x80180, [(8, 0x4)], 4, fun k _ _ => .HF_REVOKED k⟩,
  ⟨0x801a0, [], 4, fun _ _ _ => .HP_REFUSE⟩,
  ⟨0x801a8, [], 8, fun _ _ _ => .HP_REFFIRST⟩]

/-- The rows of 14_headgates_and_peers.md. -/
def regRows14 : List RegRow := [
  ⟨0x60000, [], 4, fun _ _ _ => .AT_ID⟩,
  ⟨0x60004, [], 4, fun _ _ _ => .AT_STATE⟩,
  ⟨0x60008, [], 4, fun _ _ _ => .AT_GEN⟩,
  ⟨0x60010, [], 8, fun _ _ _ => .AT_TIME⟩,
  ⟨0x60018, [], 4, fun _ _ _ => .AT_ATTACH⟩,
  ⟨0x60100, [], 4, fun _ _ _ => .HGU_STATUS⟩,
  ⟨0x60108, [], 8, fun _ _ _ => .HR_BASE⟩,
  ⟨0x60110, [], 4, fun _ _ _ => .HR_TAIL⟩,
  ⟨0x60114, [], 4, fun _ _ _ => .HR_HEAD⟩,
  ⟨0x60118, [], 4, fun _ _ _ => .HR_COUNT⟩,
  ⟨0x60120, [(4, 0x8)], 8, fun k _ _ => .HR_ENTRY k⟩,
  ⟨0x60140, [], 4, fun _ _ _ => .TO_REFUSE⟩,
  ⟨0x64000, [(256, 0x20)], 8, fun e _ _ => .TO_APER e⟩,
  ⟨0x64008, [(256, 0x20)], 4, fun e _ _ => .TO_CFG e⟩,
  ⟨0x6400c, [(256, 0x20)], 4, fun e _ _ => .TO_PAGES e⟩,
  ⟨0x64010, [(256, 0x20)], 8, fun e _ _ => .TO_VBASE e⟩,
  ⟨0x68000, [(1024, 0x20)], 8, fun h _ _ => .HG_BASE h⟩,
  ⟨0x68008, [(1024, 0x20)], 4, fun h _ _ => .HG_CFG h⟩,
  ⟨0x6800c, [(1024, 0x20)], 4, fun h _ _ => .HG_BIND h⟩,
  ⟨0x68010, [(1024, 0x20)], 4, fun h _ _ => .HG_STATUS h⟩,
  ⟨0x68014, [(1024, 0x20)], 4, fun h _ _ => .HG_PTR h⟩,
  ⟨0x68018, [(1024, 0x20)], 8, fun h _ _ => .HG_ERRREC h⟩]

/-- The rows of 15_engine_slots.md. -/
def regRows15 : List RegRow := [
  ⟨0xd0000, [(16, 0x1000)], 4, fun e _ _ => .ES_CTRL e⟩,
  ⟨0xd0004, [(16, 0x1000)], 4, fun e _ _ => .ES_STATUS e⟩,
  ⟨0xd0008, [(16, 0x1000)], 4, fun e _ _ => .ES_LINK e⟩,
  ⟨0xd0010, [(16, 0x1000), (4, 0x4)], 4, fun e k _ => .ES_DESC e k⟩,
  ⟨0xd0020, [(16, 0x1000)], 4, fun e _ _ => .ES_FIELD e⟩,
  ⟨0xd0024, [(16, 0x1000)], 4, fun e _ _ => .ES_BIND e⟩,
  ⟨0xd0040, [(16, 0x1000), (8, 0x4)], 4, fun e k _ => .ES_PASID e k⟩,
  ⟨0xd0060, [(16, 0x1000)], 4, fun e _ _ => .ES_LAT e⟩,
  ⟨0xd0070, [(16, 0x1000)], 8, fun e _ _ => .ES_MMIO_ADDR e⟩,
  ⟨0xd0078, [(16, 0x1000)], 4, fun e _ _ => .ES_MMIO_DATA e⟩,
  ⟨0xd007c, [(16, 0x1000)], 4, fun e _ _ => .ES_MMIO_STAT e⟩,
  ⟨0xd0400, [(16, 0x1000), (180, 0x4)], 4, fun e k _ => .ES_GRANT e k⟩]

/-- The rows of 16_boot_levee_lifecycle.md. -/
def regRows16 : List RegRow := [
  ⟨0x40000, [], 4, fun _ _ _ => .LV_CTRL⟩,
  ⟨0x40010, [(8, 0x4)], 4, fun k _ _ => .LV_FUNC k⟩,
  ⟨0x40030, [(6, 0x4)], 4, fun k _ _ => .LV_TILE k⟩,
  ⟨0x40048, [(5, 0x4)], 4, fun k _ _ => .LV_LINK k⟩,
  ⟨0x40060, [], 4, fun _ _ _ => .LV_TYPE⟩,
  ⟨0x40064, [], 4, fun _ _ _ => .LV_PORTMASK⟩,
  ⟨0x40068, [(2, 0x4)], 4, fun k _ _ => .LV_DEBUG k⟩,
  ⟨0x40070, [(8, 0x4)], 4, fun k _ _ => .LV_RIDER k⟩,
  ⟨0x400c0, [], 4, fun _ _ _ => .BOOT_STATUS⟩,
  ⟨0x400c4, [], 4, fun _ _ _ => .LC_STATE⟩,
  ⟨0x400d0, [], 4, fun _ _ _ => .DBG_CTRL⟩,
  ⟨0x400d4, [], 4, fun _ _ _ => .DBG_GRANT⟩,
  ⟨0x400d8, [], 4, fun _ _ _ => .DBG_LEFT⟩,
  ⟨0x400e0, [], 8, fun _ _ _ => .DBG_NONCE⟩,
  ⟨0x40100, [(32, 0x8)], 8, fun n _ _ => .LV_MEM n⟩,
  ⟨0x40200, [(64, 0x4)], 4, fun j _ _ => .LV_KEY j⟩,
  ⟨0x200000, [], 4, fun _ _ _ => .RC_CTRL⟩,
  ⟨0x200004, [], 4, fun _ _ _ => .RC_STATUS⟩,
  ⟨0x200100, [(8, 0x8)], 8, fun k _ _ => .RC_ENTRY k⟩]

/-- The rows of 17_faults_and_twin.md. -/
def regRows17 : List RegRow := [
  ⟨0x20000, [], 4, fun _ _ _ => .WM_STATE⟩,
  ⟨0x20004, [], 4, fun _ _ _ => .WM_VECTOR⟩,
  ⟨0x20008, [], 4, fun _ _ _ => .WM_RAISE⟩,
  ⟨0x20010, [], 4, fun _ _ _ => .WM_DISCARD_HOST⟩,
  ⟨0x20014, [], 4, fun _ _ _ => .WM_DISCARD_CANAL⟩,
  ⟨0x20020, [(6, 0x4)], 4, fun k _ _ => .WM_PEND k⟩,
  ⟨0x20100, [(14, 0x8)], 8, fun c _ _ => .WM_TILEMAP c⟩,
  ⟨0x20180, [(10, 0x4)], 4, fun c _ _ => .WM_SLICEMAP c⟩,
  ⟨0x201c0, [(5, 0x4)], 4, fun c _ _ => .WM_SLOTMAP c⟩,
  ⟨0x20200, [], 4, fun _ _ _ => .TW_STATUS⟩,
  ⟨0x20208, [], 8, fun _ _ _ => .TW_LAST⟩,
  ⟨0x21000, [(192, 0x4)], 4, fun n _ _ => .WM_SRC n⟩]

/-- The rows of 18_reset_clocks_power.md. -/
def regRows18 : List RegRow := [
  ⟨0x10000, [], 4, fun _ _ _ => .RST_CAUSE⟩,
  ⟨0x10004, [], 4, fun _ _ _ => .RST_STATUS⟩,
  ⟨0x10008, [], 4, fun _ _ _ => .RST_CTRL⟩,
  ⟨0x10010, [], 8, fun _ _ _ => .RST_TILE⟩,
  ⟨0x10018, [], 8, fun _ _ _ => .RST_LINK⟩,
  ⟨0x10020, [], 4, fun _ _ _ => .RST_UNIT⟩,
  ⟨0x10028, [], 8, fun _ _ _ => .RST_PARTILE⟩,
  ⟨0x10030, [], 4, fun _ _ _ => .RST_WD⟩,
  ⟨0x10034, [], 4, fun _ _ _ => .RST_WD_KICK⟩,
  ⟨0x10040, [], 4, fun _ _ _ => .RST_RETIRE⟩,
  ⟨0x10048, [], 8, fun _ _ _ => .RST_RETIRED⟩,
  ⟨0x30000, [], 4, fun _ _ _ => .CLK_STATUS⟩,
  ⟨0x30010, [], 4, fun _ _ _ => .PW_STRETCH⟩,
  ⟨0x30014, [], 4, fun _ _ _ => .PW_STATE⟩,
  ⟨0x30018, [], 4, fun _ _ _ => .PW_TELEM⟩]

/-- The rows of 19_observation.md. -/
def regRows19 : List RegRow := [
  ⟨0x1d0000, [], 4, fun _ _ _ => .OBS_CTRL⟩,
  ⟨0x1d0004, [], 4, fun _ _ _ => .OBS_STATUS⟩,
  ⟨0x1d0008, [], 4, fun _ _ _ => .OBS_HALT⟩,
  ⟨0x1d0010, [], 8, fun _ _ _ => .OBS_RESUME⟩,
  ⟨0x1d0068, [], 8, fun _ _ _ => .TR_TRIGTIME⟩,
  ⟨0x1d0018, [], 8, fun _ _ _ => .OBS_TAGFILT⟩,
  ⟨0x1d0020, [], 8, fun _ _ _ => .SMP_BASE⟩,
  ⟨0x1d0040, [], 8, fun _ _ _ => .TR_BASE⟩,
  ⟨0x1d0028, [], 4, fun _ _ _ => .SMP_CTRL⟩,
  ⟨0x1d002c, [], 4, fun _ _ _ => .SMP_TAIL⟩,
  ⟨0x1d0030, [], 4, fun _ _ _ => .SMP_HEAD⟩,
  ⟨0x1d0034, [], 4, fun _ _ _ => .SMP_SKIP⟩,
  ⟨0x1d0064, [], 4, fun _ _ _ => .TR_DROP⟩,
  ⟨0x1d00a0, [], 4, fun _ _ _ => .HR_FRAMES⟩,
  ⟨0x1d00a4, [], 4, fun _ _ _ => .HR_MISSING⟩,
  ⟨0x1d00a8, [], 4, fun _ _ _ => .HR_ERRORS⟩,
  ⟨0x1d0048, [], 4, fun _ _ _ => .TR_CTRL⟩,
  ⟨0x1d004c, [], 4, fun _ _ _ => .TR_MIN⟩,
  ⟨0x1d0050, [], 4, fun _ _ _ => .TR_TAIL⟩,
  ⟨0x1d0054, [], 4, fun _ _ _ => .TR_HEAD⟩,
  ⟨0x1d0058, [], 4, fun _ _ _ => .TR_COUNT⟩,
  ⟨0x1d005c, [], 4, fun _ _ _ => .TRACE_STATUS⟩,
  ⟨0x1d0060, [], 4, fun _ _ _ => .TR_TRIG⟩,
  ⟨0x1d0070, [], 8, fun _ _ _ => .TR_TOTAL⟩,
  ⟨0x1d0080, [], 8, fun _ _ _ => .SNAP_BASE⟩,
  ⟨0x1d0088, [], 4, fun _ _ _ => .SNAP_CTRL⟩,
  ⟨0x1d0090, [], 4, fun _ _ _ => .RACE_CTRL⟩,
  ⟨0x1d0094, [], 4, fun _ _ _ => .RACE_STATUS⟩,
  ⟨0x1d0098, [], 4, fun _ _ _ => .HR_MAPADDR⟩,
  ⟨0x1d009c, [], 4, fun _ _ _ => .HR_MAPDATA⟩,
  ⟨0x1d0100, [(16, 0x20)], 4, fun n _ _ => .DUMP_CTRL n⟩,
  ⟨0x1d0104, [(16, 0x20)], 4, fun n _ _ => .DUMP_STEP n⟩,
  ⟨0x1d0108, [(16, 0x20)], 8, fun n _ _ => .DUMP_DEST n⟩,
  ⟨0x1d0110, [(16, 0x20)], 4, fun n _ _ => .DUMP_MAX n⟩,
  ⟨0x1d0400, [(16, 0x20)], 4, fun s _ _ => .HR_SCFG s⟩,
  ⟨0x1d0404, [(16, 0x20)], 4, fun s _ _ => .HR_SBASE s⟩,
  ⟨0x1d0408, [(16, 0x20)], 4, fun s _ _ => .HR_SLEN s⟩,
  ⟨0x1d040c, [(16, 0x20), (4, 0x4)], 4, fun s j _ => .HR_SSTART s j⟩,
  ⟨0x103800, [(48, 0x4000)], 4, fun t _ _ => .OBS_DP_TAG t⟩,
  ⟨0x103804, [(48, 0x4000)], 4, fun t _ _ => .OBS_DP_STEP t⟩,
  ⟨0x103808, [(48, 0x4000)], 4, fun t _ _ => .OBS_DP_SRC t⟩,
  ⟨0x10380c, [(48, 0x4000)], 4, fun t _ _ => .OBS_DP_CTRL t⟩,
  ⟨0x103810, [(48, 0x4000)], 4, fun t _ _ => .OBS_BP t⟩]

/-- Every register of BAR0. -/
def regRows : List RegRow :=
  regRows00 ++ regRows03 ++ regRows04 ++ regRows06 ++ regRows07 ++ regRows08 ++ regRows09 ++ regRows10 ++ regRows11 ++ regRows13 ++ regRows14 ++ regRows15 ++ regRows16 ++ regRows17 ++ regRows18 ++ regRows19

/-- The register that holds the byte at a BAR0 offset, and the byte's place in it; none where no register stands
(R14). -/
def Reg.atOffset (off : Nat) : Option (Reg × Nat) := regRows.findSome? (fun row => row.find off)

/-- The fields of the registers, named by register and field. -/
def F.whole : Fld := ⟨63, 0⟩
abbrev F.ID_BLOCK_ARCH : Fld := ⟨31, 24⟩
abbrev F.ID_BLOCK_DESIGN_MAJOR : Fld := ⟨23, 16⟩
abbrev F.ID_BLOCK_DESIGN_MINOR : Fld := ⟨15, 8⟩
abbrev F.ID_BLOCK_STEP_LETTER : Fld := ⟨7, 4⟩
abbrev F.ID_BLOCK_STEP_NUMBER : Fld := ⟨3, 0⟩
abbrev F.ID_GEOMETRY_MESH_ROWS : Fld := ⟨27, 24⟩
abbrev F.ID_GEOMETRY_MESH_COLS : Fld := ⟨23, 20⟩
abbrev F.ID_GEOMETRY_LOGICAL_TILES : Fld := ⟨19, 14⟩
abbrev F.ID_GEOMETRY_PHYSICAL_TILES : Fld := ⟨13, 8⟩
abbrev F.ID_GEOMETRY_VCORES : Fld := ⟨7, 5⟩
abbrev F.ID_GEOMETRY_TENSOR : Fld := ⟨4, 4⟩
abbrev F.ID_MEMORY_SLAB_UNITS : Fld := ⟨31, 24⟩
abbrev F.ID_MEMORY_SLICES : Fld := ⟨23, 16⟩
abbrev F.ID_MEMORY_WAYS : Fld := ⟨15, 12⟩
abbrev F.ID_MEMORY_SCRATCH_WAYS : Fld := ⟨11, 8⟩
abbrev F.ID_MEMORY_HBM_STACKS : Fld := ⟨7, 4⟩
abbrev F.ID_MEMORY_SETS_LOG2 : Fld := ⟨3, 0⟩
abbrev F.ID_PORTS_CANAL_LINKS : Fld := ⟨31, 26⟩
abbrev F.ID_PORTS_ENGINE_SLOTS : Fld := ⟨25, 21⟩
abbrev F.ID_PORTS_PORT_GROUPS : Fld := ⟨20, 18⟩
abbrev F.ID_PORTS_RIDER_CORES : Fld := ⟨17, 14⟩
abbrev F.ID_PORTS_RACE_PORT : Fld := ⟨13, 13⟩
abbrev F.ID_PORTS_TWIN : Fld := ⟨12, 12⟩
abbrev F.ID_PORTS_DOMAIN_BITS : Fld := ⟨11, 8⟩
abbrev F.TA_STATUS_MQ_COUNT : Fld := ⟨23, 20⟩
abbrev F.TA_STATUS_TQ_COUNT : Fld := ⟨19, 16⟩
abbrev F.TA_STATUS_CLEARING : Fld := ⟨2, 2⟩
abbrev F.TA_STATUS_T_BUSY : Fld := ⟨1, 1⟩
abbrev F.TA_STATUS_M_BUSY : Fld := ⟨0, 0⟩
abbrev F.TA_FLAGS_ERR_SEEN : Fld := ⟨8, 8⟩
abbrev F.TA_FLAGS_NV : Fld := ⟨3, 3⟩
abbrev F.TA_FLAGS_OF : Fld := ⟨2, 2⟩
abbrev F.TA_FLAGS_UF : Fld := ⟨1, 1⟩
abbrev F.TA_FLAGS_NX : Fld := ⟨0, 0⟩
abbrev F.VC_STATUS_MODE : Fld := ⟨29, 29⟩
abbrev F.VC_STATUS_RUNNING : Fld := ⟨28, 28⟩
abbrev F.VC_STATUS_RESIDENT_GROUPS : Fld := ⟨21, 16⟩
abbrev F.VC_STATUS_ACTIVE_GROUPS : Fld := ⟨11, 8⟩
abbrev F.VC_STATUS_RESIDENT_BLOCKS : Fld := ⟨3, 0⟩
abbrev F.VC_OCC_ALLOC_ROWS : Fld := ⟨27, 19⟩
abbrev F.VC_OCC_LIMIT : Fld := ⟨18, 16⟩
abbrev F.VC_OCC_BLOCK_LIMIT : Fld := ⟨3, 0⟩
abbrev F.VC_FLAGS_NV : Fld := ⟨4, 4⟩
abbrev F.VC_FLAGS_DZ : Fld := ⟨3, 3⟩
abbrev F.VC_FLAGS_OF : Fld := ⟨2, 2⟩
abbrev F.VC_FLAGS_UF : Fld := ⟨1, 1⟩
abbrev F.VC_FLAGS_NX : Fld := ⟨0, 0⟩
abbrev F.VC_EXC_VALID : Fld := ⟨31, 31⟩
abbrev F.VC_EXC_SLOT : Fld := ⟨12, 8⟩
abbrev F.VC_EXC_CODE : Fld := ⟨7, 0⟩
abbrev F.SQ_CTRL_MARK_GAP : Fld := ⟨31, 24⟩
abbrev F.SQ_CTRL_STOP : Fld := ⟨1, 1⟩
abbrev F.SQ_CTRL_START : Fld := ⟨0, 0⟩
abbrev F.SQ_STATUS_STATE : Fld := ⟨31, 30⟩
abbrev F.SQ_STATUS_WAITING : Fld := ⟨29, 29⟩
abbrev F.SQ_STATUS_KERNEL : Fld := ⟨28, 28⟩
abbrev F.SQ_STATUS_MODE : Fld := ⟨27, 27⟩
abbrev F.SQ_STATUS_PM_ERR : Fld := ⟨3, 3⟩
abbrev F.SQ_STATUS_OVERRUN : Fld := ⟨2, 2⟩
abbrev F.SQ_STATUS_LATE_WAIT : Fld := ⟨1, 1⟩
abbrev F.SQ_PC_PC : Fld := ⟨15, 0⟩
abbrev F.SQ_EXC_VALID : Fld := ⟨31, 31⟩
abbrev F.SQ_EXC_CODE : Fld := ⟨7, 0⟩
abbrev F.SQ_PROG_SIZE : Fld := ⟨24, 16⟩
abbrev F.SQ_PROG_BASE : Fld := ⟨14, 0⟩
abbrev F.SQ_LATE_TURN : Fld := ⟨63, 32⟩
abbrev F.SQ_LATE_CYCLE : Fld := ⟨11, 0⟩
abbrev F.SQ_CTXMASK_ALLOW : Fld := ⟨31, 0⟩
abbrev F.SQ_SIG_VALUE : Fld := ⟨63, 0⟩
abbrev F.SL_STATUS_STATE : Fld := ⟨31, 30⟩
abbrev F.SL_STATUS_MODE : Fld := ⟨29, 29⟩
abbrev F.SL_STATUS_STATUS : Fld := ⟨28, 24⟩
abbrev F.SL_STATUS_CTX : Fld := ⟨23, 16⟩
abbrev F.SL_DESC_DESC : Fld := ⟨22, 0⟩
abbrev F.SL_CTRL_ABORT : Fld := ⟨0, 0⟩
abbrev F.SL_COUNT_DONE : Fld := ⟨31, 0⟩
abbrev F.ROT_CTRL_EPOCH_ARM : Fld := ⟨2, 2⟩
abbrev F.ROT_CTRL_STOP_ARM : Fld := ⟨1, 1⟩
abbrev F.ROT_CTRL_START_ARM : Fld := ⟨0, 0⟩
abbrev F.ROT_STATUS_STATE : Fld := ⟨31, 30⟩
abbrev F.ROT_STATUS_STRETCH : Fld := ⟨29, 24⟩
abbrev F.ROT_STATUS_REQUEST : Fld := ⟨23, 18⟩
abbrev F.ROT_STATUS_EPOCH_PEND : Fld := ⟨8, 8⟩
abbrev F.ROT_STATUS_ARM_ERR : Fld := ⟨7, 4⟩
abbrev F.ROT_STATUS_EPOCH_VALID : Fld := ⟨3, 3⟩
abbrev F.ROT_STATUS_CLIPPED : Fld := ⟨2, 2⟩
abbrev F.ROT_STATUS_DISAGREE : Fld := ⟨1, 1⟩
abbrev F.ROT_STATUS_COLLISION : Fld := ⟨0, 0⟩
abbrev F.ROT_PERIOD_PERIOD_M1 : Fld := ⟨19, 0⟩
abbrev F.ROT_LATSIG_EXPECTED : Fld := ⟨31, 0⟩
abbrev F.ROT_START_TURN : Fld := ⟨63, 0⟩
abbrev F.ROT_STOP_TURN : Fld := ⟨63, 0⟩
abbrev F.TB_TIME_VALUE : Fld := ⟨63, 0⟩
abbrev F.TB_TURN_VALUE : Fld := ⟨63, 0⟩
abbrev F.TB_RAW_VALUE : Fld := ⟨63, 0⟩
abbrev F.TB_OFFSET_VALUE : Fld := ⟨63, 0⟩
abbrev F.TB_EPOCH_VALUE : Fld := ⟨63, 0⟩
abbrev F.TB_CYCLE_CYCLE : Fld := ⟨11, 0⟩
abbrev F.TB_LATSIG_SIG : Fld := ⟨31, 0⟩
abbrev F.TB_CHIP_OFFSET_VALID : Fld := ⟨24, 24⟩
abbrev F.TB_CHIP_DEPTH : Fld := ⟨23, 16⟩
abbrev F.TB_CHIP_IN_DOMAIN : Fld := ⟨11, 11⟩
abbrev F.TB_CHIP_TWIN : Fld := ⟨10, 10⟩
abbrev F.TB_CHIP_SIDE : Fld := ⟨9, 9⟩
abbrev F.TB_CHIP_CHIP_ID : Fld := ⟨8, 0⟩
abbrev F.LK_PING_PSTATE : Fld := ⟨31, 30⟩
abbrev F.LK_PING_FAIL : Fld := ⟨29, 28⟩
abbrev F.LK_PING_LAT_VALID : Fld := ⟨27, 27⟩
abbrev F.LK_PING_FAR_VALID : Fld := ⟨26, 26⟩
abbrev F.LK_PING_FAR_DEPTH : Fld := ⟨23, 16⟩
abbrev F.LK_PING_GO : Fld := ⟨0, 0⟩
abbrev F.LK_RTT_FAR_RTT : Fld := ⟨31, 16⟩
abbrev F.LK_RTT_RTT : Fld := ⟨15, 0⟩
abbrev F.LK_DELTA_VALUE : Fld := ⟨63, 0⟩
abbrev F.LK_FAR_VALUE : Fld := ⟨63, 0⟩
abbrev F.LK_LAT_IN : Fld := ⟨31, 16⟩
abbrev F.LK_LAT_OUT : Fld := ⟨15, 0⟩
abbrev F.CN_CTRL_RETRAIN : Fld := ⟨1, 1⟩
abbrev F.CN_CTRL_ENABLE : Fld := ⟨0, 0⟩
abbrev F.CN_STATUS_LSTATE : Fld := ⟨31, 30⟩
abbrev F.CN_STATUS_S_BLOCKED : Fld := ⟨29, 29⟩
abbrev F.CN_STATUS_HALT_CHIP : Fld := ⟨24, 16⟩
abbrev F.CN_STATUS_MAP_WERR : Fld := ⟨7, 7⟩
abbrev F.CN_STATUS_MISROUTE : Fld := ⟨6, 6⟩
abbrev F.CN_STATUS_RELAY_OVF : Fld := ⟨5, 5⟩
abbrev F.CN_STATUS_HALT_RX : Fld := ⟨4, 4⟩
abbrev F.CN_STATUS_LAT_CHG : Fld := ⟨3, 3⟩
abbrev F.CN_STATUS_C_RETRY : Fld := ⟨2, 2⟩
abbrev F.CN_STATUS_S_ERR : Fld := ⟨1, 1⟩
abbrev F.CN_STATUS_DOWN_SEEN : Fld := ⟨0, 0⟩
abbrev F.CN_MAPADDR_AUTOINC : Fld := ⟨31, 31⟩
abbrev F.CN_MAPADDR_SEL : Fld := ⟨16, 16⟩
abbrev F.CN_MAPADDR_INDEX : Fld := ⟨12, 0⟩
abbrev F.CN_MAPDATA_DATA : Fld := ⟨31, 0⟩
abbrev F.CN_SCHEDLEN_LAST : Fld := ⟨7, 0⟩
abbrev F.CN_REACH_CHIPS : Fld := ⟨31, 0⟩
abbrev F.CN_STREAM_S3 : Fld := ⟨31, 24⟩
abbrev F.CN_STREAM_S2 : Fld := ⟨23, 16⟩
abbrev F.CN_STREAM_S1 : Fld := ⟨15, 8⟩
abbrev F.CN_STREAM_S0 : Fld := ⟨7, 0⟩
abbrev F.RSV_SCRATCH_BUSY : Fld := ⟨31, 31⟩
abbrev F.RSV_SCRATCH_ERR : Fld := ⟨30, 30⟩
abbrev F.RSV_SCRATCH_WAYS : Fld := ⟨3, 0⟩
abbrev F.RSV_WEIR_CAP : Fld := ⟨9, 0⟩
abbrev F.RSV_WEIR_COUNT_BYTES : Fld := ⟨21, 0⟩
abbrev F.RSV_STATUS_WEIR_HELD : Fld := ⟨3, 3⟩
abbrev F.RSV_STATUS_SCRUB_UE : Fld := ⟨2, 2⟩
abbrev F.RSV_STATUS_UE : Fld := ⟨1, 1⟩
abbrev F.RSV_STATUS_DIRTY_PAR : Fld := ⟨0, 0⟩
abbrev F.RSV_ERRADDR_LINE : Fld := ⟨42, 6⟩
abbrev F.RSV_CECNT_COUNT : Fld := ⟨31, 0⟩
abbrev F.HB_CTRL_LOAD : Fld := ⟨0, 0⟩
abbrev F.HB_STATUS_PATTERN_VALID : Fld := ⟨31, 31⟩
abbrev F.HB_STATUS_BAD_PC : Fld := ⟨15, 10⟩
abbrev F.HB_STATUS_REASON : Fld := ⟨9, 8⟩
abbrev F.HB_STATUS_SCRUB_UE : Fld := ⟨2, 2⟩
abbrev F.HB_STATUS_UE : Fld := ⟨1, 1⟩
abbrev F.HB_STATUS_LOAD_ERR : Fld := ⟨0, 0⟩
abbrev F.HB_ERRADDR_LINE : Fld := ⟨42, 6⟩
abbrev F.HB_CECNT_COUNT : Fld := ⟨31, 0⟩
abbrev F.HB_PAT_CODES : Fld := ⟨31, 0⟩
abbrev F.T2_CTRL_ENABLE : Fld := ⟨0, 0⟩
abbrev F.T2_STATUS_STATE : Fld := ⟨31, 30⟩
abbrev F.T2_STATUS_SCRUB_UE : Fld := ⟨2, 2⟩
abbrev F.T2_STATUS_UE : Fld := ⟨1, 1⟩
abbrev F.T2_STATUS_LOST_SEEN : Fld := ⟨0, 0⟩
abbrev F.T2_SIZE_GIB : Fld := ⟨9, 0⟩
abbrev F.T2_ERRADDR_LINE : Fld := ⟨42, 6⟩
abbrev F.T2_DROP_COUNT : Fld := ⟨31, 0⟩
abbrev F.SLAB_OWN_ANY : Fld := ⟨8, 8⟩
abbrev F.SLAB_OWN_CTX : Fld := ⟨7, 0⟩
abbrev F.SLAB_STATUS_FILL : Fld := ⟨31, 31⟩
abbrev F.SLAB_STATUS_SCRUB_UE : Fld := ⟨2, 2⟩
abbrev F.SLAB_STATUS_UE : Fld := ⟨1, 1⟩
abbrev F.SLAB_STATUS_OWN_ERR : Fld := ⟨0, 0⟩
abbrev F.SLAB_ERRADDR_WORD : Fld := ⟨22, 3⟩
abbrev F.TR_CMD_OP : Fld := ⟨3, 0⟩
abbrev F.TR_STATUS_BUSY : Fld := ⟨31, 31⟩
abbrev F.TR_STATUS_VECTOR : Fld := ⟨26, 16⟩
abbrev F.TR_STATUS_ID : Fld := ⟨15, 8⟩
abbrev F.TR_STATUS_RESULT : Fld := ⟨3, 0⟩
abbrev F.TR_ARG0_VALUE : Fld := ⟨63, 0⟩
abbrev F.TR_ARG1_VALUE : Fld := ⟨63, 0⟩
abbrev F.TR_ARG2_VALUE : Fld := ⟨63, 0⟩
abbrev F.FQ_BASE_ADDR : Fld := ⟨63, 12⟩
abbrev F.HL_BASE_ADDR : Fld := ⟨63, 12⟩
abbrev F.FQ_CTRL_ENABLE : Fld := ⟨31, 31⟩
abbrev F.FQ_CTRL_PORT : Fld := ⟨30, 30⟩
abbrev F.FQ_CTRL_VECTOR : Fld := ⟨10, 0⟩
abbrev F.HL_CTRL_ENABLE : Fld := ⟨31, 31⟩
abbrev F.HL_CTRL_PORT : Fld := ⟨30, 30⟩
abbrev F.HL_CTRL_VECTOR : Fld := ⟨10, 0⟩
abbrev F.FQ_TAIL_INDEX : Fld := ⟨11, 0⟩
abbrev F.FQ_HEAD_INDEX : Fld := ⟨11, 0⟩
abbrev F.HL_TAIL_INDEX : Fld := ⟨11, 0⟩
abbrev F.HL_HEAD_INDEX : Fld := ⟨11, 0⟩
abbrev F.FQ_RESUME_ABORT : Fld := ⟨31, 31⟩
abbrev F.FQ_RESUME_FAULT_ID : Fld := ⟨11, 0⟩
abbrev F.FQ_STATUS_PENDING : Fld := ⟨12, 1⟩
abbrev F.FQ_STATUS_BAD_RESUME : Fld := ⟨0, 0⟩
abbrev F.FQ_OVERFLOW_COUNT : Fld := ⟨31, 0⟩
abbrev F.HL_DROP_COUNT : Fld := ⟨31, 0⟩
abbrev F.OT_REFUSALS_COUNT : Fld := ⟨31, 0⟩
abbrev F.AC_CTRL_THRESH : Fld := ⟨15, 0⟩
abbrev F.OT_BASE_REGION : Fld := ⟨42, 21⟩
abbrev F.OT_FIRST_VALID : Fld := ⟨63, 63⟩
abbrev F.OT_FIRST_CTX : Fld := ⟨50, 43⟩
abbrev F.OT_FIRST_LINE : Fld := ⟨42, 6⟩
abbrev F.CTX_ENTRY0_RT_BASE : Fld := ⟨51, 12⟩
abbrev F.CTX_ENTRY1_FUNCTION : Fld := ⟨37, 32⟩
abbrev F.CTX_ENTRY1_VALID : Fld := ⟨31, 31⟩
abbrev F.CTX_ENTRY1_FIELD : Fld := ⟨27, 24⟩
abbrev F.CTX_ENTRY1_KEYSLOT : Fld := ⟨23, 16⟩
abbrev F.CTX_ENTRY1_RT_COUNT : Fld := ⟨12, 0⟩
abbrev F.COH_CTRL_HOST_TMO : Fld := ⟨15, 0⟩
abbrev F.COH_RECLAIM_BUSY : Fld := ⟨31, 31⟩
abbrev F.COH_RECLAIM_START : Fld := ⟨8, 8⟩
abbrev F.COH_RECLAIM_AGENT : Fld := ⟨7, 0⟩
abbrev F.COH_DEAD_DEAD : Fld := ⟨31, 0⟩
abbrev F.LL_BASE_ADDR : Fld := ⟨42, 16⟩
abbrev F.LL_CTRL_ENABLE : Fld := ⟨31, 31⟩
abbrev F.LL_CTRL_VECTOR : Fld := ⟨10, 0⟩
abbrev F.LL_TAIL_INDEX : Fld := ⟨11, 0⟩
abbrev F.LL_HEAD_INDEX : Fld := ⟨11, 0⟩
abbrev F.LL_OVERFLOW_COUNT : Fld := ⟨31, 0⟩
abbrev F.BIAS_CMD_OP : Fld := ⟨3, 0⟩
abbrev F.BIAS_STATUS_BUSY : Fld := ⟨31, 31⟩
abbrev F.BIAS_STATUS_HOST_GRANULES : Fld := ⟨24, 4⟩
abbrev F.BIAS_STATUS_RESULT : Fld := ⟨3, 0⟩
abbrev F.BIAS_ARG_ENTRY : Fld := ⟨53, 48⟩
abbrev F.BIAS_ARG_COUNT : Fld := ⟨47, 24⟩
abbrev F.BIAS_ARG_START : Fld := ⟨23, 0⟩
abbrev F.LOCK_VALID : Fld := ⟨63, 63⟩
abbrev F.LOCK_COUNT : Fld := ⟨47, 24⟩
abbrev F.LOCK_START : Fld := ⟨23, 0⟩
abbrev F.DIR_STATUS_RETRY : Fld := ⟨23, 16⟩
abbrev F.DIR_STATUS_OPEN : Fld := ⟨15, 7⟩
abbrev F.DIR_STATUS_UE : Fld := ⟨0, 0⟩
abbrev F.DIR_ERRADDR_SET : Fld := ⟨15, 4⟩
abbrev F.DIR_ERRADDR_WAY : Fld := ⟨3, 0⟩
abbrev F.DIR_CECNT_COUNT : Fld := ⟨31, 0⟩
abbrev F.DIR_STRAY_COUNT : Fld := ⟨31, 0⟩
abbrev F.DIR_LOSTCNT_COUNT : Fld := ⟨31, 0⟩
abbrev F.DIR_PROBE_NEXT_LOST : Fld := ⟨63, 63⟩
abbrev F.DIR_PROBE_NONE : Fld := ⟨62, 62⟩
abbrev F.DIR_PROBE_SET : Fld := ⟨15, 4⟩
abbrev F.DIR_PROBE_WAY : Fld := ⟨3, 0⟩
abbrev F.DIR_PROBE_DATA_ENTRY : Fld := ⟨31, 0⟩
abbrev F.CUL_CTRL_ENABLE : Fld := ⟨31, 31⟩
abbrev F.CUL_CTRL_CTX : Fld := ⟨7, 0⟩
abbrev F.CUL_BASE_GIB : Fld := ⟨42, 30⟩
abbrev F.CUL_MOVE_GO : Fld := ⟨63, 63⟩
abbrev F.CUL_MOVE_TARGET : Fld := ⟨42, 30⟩
abbrev F.CUL_STATUS_BUSY : Fld := ⟨31, 31⟩
abbrev F.CUL_STATUS_ERR : Fld := ⟨4, 4⟩
abbrev F.CUL_STATUS_RESULT : Fld := ⟨3, 0⟩
abbrev F.PG_ROLE_ROLE : Fld := ⟨11, 0⟩
abbrev F.HF_CTRL_IDE_REQ : Fld := ⟨13, 8⟩
abbrev F.HF_CTRL_HR0 : Fld := ⟨0, 0⟩
abbrev F.HF_SUBSYS_SSID : Fld := ⟨31, 16⟩
abbrev F.HF_SUBSYS_SSVID : Fld := ⟨15, 0⟩
abbrev F.PG_STATUS_LSTATE : Fld := ⟨31, 30⟩
abbrev F.PG_STATUS_SPEED : Fld := ⟨29, 27⟩
abbrev F.PG_STATUS_WIDTH : Fld := ⟨26, 22⟩
abbrev F.PG_STATUS_FLIT256 : Fld := ⟨21, 21⟩
abbrev F.PG_STATUS_CXL : Fld := ⟨20, 20⟩
abbrev F.PG_STATUS_IDE : Fld := ⟨19, 18⟩
abbrev F.PG_STATUS_VIRAL_TX : Fld := ⟨17, 17⟩
abbrev F.PG_STATUS_VIRAL_RX : Fld := ⟨16, 16⟩
abbrev F.PG_STATUS_IDE_FAIL : Fld := ⟨2, 2⟩
abbrev F.PG_STATUS_VIRAL_SEEN : Fld := ⟨1, 1⟩
abbrev F.PG_STATUS_DOWN_SEEN : Fld := ⟨0, 0⟩
abbrev F.HF_WAKE_REQ : Fld := ⟨0, 0⟩
abbrev F.HF_REVOKED_CTX : Fld := ⟨31, 0⟩
abbrev F.HP_REFUSE_COUNT : Fld := ⟨31, 0⟩
abbrev F.HP_REFFIRST_VALID : Fld := ⟨63, 63⟩
abbrev F.HP_REFFIRST_PORT : Fld := ⟨62, 62⟩
abbrev F.HP_REFFIRST_CAUSE : Fld := ⟨61, 58⟩
abbrev F.HP_REFFIRST_LINE : Fld := ⟨42, 6⟩
abbrev F.AT_ID_DEVICE : Fld := ⟨31, 16⟩
abbrev F.AT_ID_VERSION : Fld := ⟨15, 0⟩
abbrev F.AT_STATE_CAUSE1 : Fld := ⟨11, 8⟩
abbrev F.AT_STATE_CAUSE0 : Fld := ⟨7, 4⟩
abbrev F.AT_STATE_PORT1 : Fld := ⟨3, 2⟩
abbrev F.AT_STATE_PORT0 : Fld := ⟨1, 0⟩
abbrev F.AT_GEN_GEN : Fld := ⟨31, 0⟩
abbrev F.AT_TIME_TIME : Fld := ⟨63, 0⟩
abbrev F.AT_ATTACH_GEN : Fld := ⟨31, 8⟩
abbrev F.AT_ATTACH_PORT : Fld := ⟨2, 2⟩
abbrev F.AT_ATTACH_MODE : Fld := ⟨1, 0⟩
abbrev F.HGU_STATUS_AT_ERR : Fld := ⟨3, 3⟩
abbrev F.HGU_STATUS_HR_FULL : Fld := ⟨2, 2⟩
abbrev F.HGU_STATUS_TO_ERR : Fld := ⟨1, 1⟩
abbrev F.HGU_STATUS_CFG_ERR : Fld := ⟨0, 0⟩
abbrev F.HR_BASE_REGION : Fld := ⟨42, 21⟩
abbrev F.HR_TAIL_VALUE : Fld := ⟨16, 0⟩
abbrev F.HR_HEAD_VALUE : Fld := ⟨16, 0⟩
abbrev F.HR_COUNT_VALUE : Fld := ⟨16, 0⟩
abbrev F.HR_ENTRY_DATA : Fld := ⟨63, 0⟩
abbrev F.TO_REFUSE_COUNT : Fld := ⟨31, 0⟩
abbrev F.TO_APER_START : Fld := ⟨33, 12⟩
abbrev F.TO_CFG_ENABLE : Fld := ⟨31, 31⟩
abbrev F.TO_CFG_W : Fld := ⟨30, 30⟩
abbrev F.TO_CFG_RD : Fld := ⟨29, 29⟩
abbrev F.TO_CFG_CTX : Fld := ⟨23, 16⟩
abbrev F.TO_PAGES_PAGES : Fld := ⟨22, 0⟩
abbrev F.TO_VBASE_VA : Fld := ⟨63, 12⟩
abbrev F.HG_BASE_ADDR : Fld := ⟨63, 12⟩
abbrev F.HG_CFG_ENABLE : Fld := ⟨31, 31⟩
abbrev F.HG_CFG_LOC : Fld := ⟨30, 29⟩
abbrev F.HG_CFG_LOG2N : Fld := ⟨28, 24⟩
abbrev F.HG_CFG_CTX : Fld := ⟨23, 16⟩
abbrev F.HG_BIND_FUNCTION : Fld := ⟨31, 26⟩
abbrev F.HG_BIND_VFPAGE : Fld := ⟨25, 20⟩
abbrev F.HG_BIND_VECTOR : Fld := ⟨10, 0⟩
abbrev F.HG_STATUS_STATE : Fld := ⟨31, 30⟩
abbrev F.HG_STATUS_CAUSE : Fld := ⟨29, 26⟩
abbrev F.HG_STATUS_BAD_DB : Fld := ⟨25, 25⟩
abbrev F.HG_STATUS_EXPSEQ : Fld := ⟨24, 17⟩
abbrev F.HG_STATUS_EXPPHASE : Fld := ⟨16, 16⟩
abbrev F.HG_STATUS_INFLIGHT : Fld := ⟨3, 0⟩
abbrev F.HG_PTR_TAIL : Fld := ⟨31, 16⟩
abbrev F.HG_PTR_HEAD : Fld := ⟨15, 0⟩
abbrev F.HG_ERRREC_VA : Fld := ⟨63, 4⟩
abbrev F.ES_CTRL_HOLD : Fld := ⟨4, 4⟩
abbrev F.ES_CTRL_SCHED_REQ : Fld := ⟨3, 3⟩
abbrev F.ES_CTRL_RESET : Fld := ⟨2, 2⟩
abbrev F.ES_CTRL_ADMIT : Fld := ⟨1, 1⟩
abbrev F.ES_CTRL_ENABLE : Fld := ⟨0, 0⟩
abbrev F.ES_STATUS_STATE : Fld := ⟨31, 29⟩
abbrev F.ES_STATUS_ADMIT_ERR : Fld := ⟨28, 26⟩
abbrev F.ES_STATUS_SCHED : Fld := ⟨25, 25⟩
abbrev F.ES_STATUS_VIRAL_TX : Fld := ⟨24, 24⟩
abbrev F.ES_STATUS_VIRAL_RX : Fld := ⟨23, 23⟩
abbrev F.ES_STATUS_HOLD_ACK : Fld := ⟨22, 22⟩
abbrev F.ES_STATUS_BIND_ERR : Fld := ⟨5, 5⟩
abbrev F.ES_STATUS_LAT_CHG : Fld := ⟨4, 4⟩
abbrev F.ES_STATUS_GRANT_ERR : Fld := ⟨3, 3⟩
abbrev F.ES_STATUS_ATS_TMO : Fld := ⟨2, 2⟩
abbrev F.ES_STATUS_LOST_SEEN : Fld := ⟨1, 1⟩
abbrev F.ES_LINK_RATE : Fld := ⟨31, 29⟩
abbrev F.ES_LINK_WIDTH : Fld := ⟨28, 28⟩
abbrev F.ES_LINK_LOPT : Fld := ⟨27, 27⟩
abbrev F.ES_DESC_WORD : Fld := ⟨31, 0⟩
abbrev F.ES_FIELD_FIELD : Fld := ⟨3, 0⟩
abbrev F.ES_BIND_FUNCTION : Fld := ⟨31, 26⟩
abbrev F.ES_BIND_VEC_BASE : Fld := ⟨10, 0⟩
abbrev F.ES_PASID_BOUND : Fld := ⟨31, 0⟩
abbrev F.ES_LAT_RTT : Fld := ⟨15, 0⟩
abbrev F.ES_MMIO_ADDR_GO : Fld := ⟨63, 63⟩
abbrev F.ES_MMIO_ADDR_WRITE : Fld := ⟨62, 62⟩
abbrev F.ES_MMIO_ADDR_BAR : Fld := ⟨50, 48⟩
abbrev F.ES_MMIO_ADDR_OFFSET : Fld := ⟨47, 2⟩
abbrev F.ES_MMIO_DATA_DATA : Fld := ⟨31, 0⟩
abbrev F.ES_MMIO_STAT_BUSY : Fld := ⟨31, 31⟩
abbrev F.ES_MMIO_STAT_RESULT : Fld := ⟨1, 0⟩
abbrev F.ES_GRANT_KIND_HI : Fld := ⟨31, 30⟩
abbrev F.ES_GRANT_KIND_LO : Fld := ⟨15, 14⟩
abbrev F.LV_CTRL_CLOSED : Fld := ⟨31, 31⟩
abbrev F.LV_CTRL_KEY0 : Fld := ⟨15, 8⟩
abbrev F.LV_CTRL_LEVEE_CLOSE : Fld := ⟨0, 0⟩
abbrev F.LV_FUNC_FIELDS : Fld := ⟨31, 0⟩
abbrev F.LV_TILE_FIELDS : Fld := ⟨31, 0⟩
abbrev F.LV_LINK_FIELDS : Fld := ⟨31, 0⟩
abbrev F.LV_TYPE_TYPES : Fld := ⟨19, 0⟩
abbrev F.LV_PORTMASK_PORT1 : Fld := ⟨31, 16⟩
abbrev F.LV_PORTMASK_PORT0 : Fld := ⟨15, 0⟩
abbrev F.LV_DEBUG_CAPS : Fld := ⟨31, 0⟩
abbrev F.LV_RIDER_FIELD : Fld := ⟨11, 8⟩
abbrev F.LV_RIDER_CTX : Fld := ⟨7, 0⟩
abbrev F.BOOT_STATUS_STAGE : Fld := ⟨31, 28⟩
abbrev F.BOOT_STATUS_FAIL : Fld := ⟨15, 8⟩
abbrev F.LC_STATE_STATE : Fld := ⟨2, 0⟩
abbrev F.DBG_CTRL_REVOKE : Fld := ⟨1, 1⟩
abbrev F.DBG_CTRL_CHALLENGE : Fld := ⟨0, 0⟩
abbrev F.DBG_GRANT_VALID : Fld := ⟨31, 31⟩
abbrev F.DBG_GRANT_SIGNER : Fld := ⟨30, 29⟩
abbrev F.DBG_GRANT_CAPS : Fld := ⟨27, 24⟩
abbrev F.DBG_GRANT_FIELDS : Fld := ⟨15, 0⟩
abbrev F.DBG_LEFT_SECONDS : Fld := ⟨15, 0⟩
abbrev F.DBG_NONCE_NONCE : Fld := ⟨63, 0⟩
abbrev F.LV_MEM_VALID : Fld := ⟨63, 63⟩
abbrev F.LV_MEM_FIELD : Fld := ⟨59, 56⟩
abbrev F.LV_MEM_LAST : Fld := ⟨52, 32⟩
abbrev F.LV_MEM_FIRST : Fld := ⟨20, 0⟩
abbrev F.LV_KEY_LABEL : Fld := ⟨31, 8⟩
abbrev F.LV_KEY_PERSIST : Fld := ⟨4, 4⟩
abbrev F.LV_KEY_FIELD : Fld := ⟨3, 0⟩
abbrev F.RC_CTRL_RUN : Fld := ⟨7, 2⟩
abbrev F.RC_CTRL_L2SRAM : Fld := ⟨0, 0⟩
abbrev F.RC_STATUS_RUNNING : Fld := ⟨7, 2⟩
abbrev F.RC_STATUS_ERR : Fld := ⟨0, 0⟩
abbrev F.RC_ENTRY_ADDR : Fld := ⟨63, 0⟩
abbrev F.WM_STATE_SAFE : Fld := ⟨31, 31⟩
abbrev F.WM_STATE_DRAINED : Fld := ⟨30, 30⟩
abbrev F.WM_STATE_ALIVE : Fld := ⟨29, 29⟩
abbrev F.WM_STATE_FATAL_SRC : Fld := ⟨7, 0⟩
abbrev F.WM_VECTOR_VECTOR : Fld := ⟨10, 0⟩
abbrev F.WM_RAISE_SOURCE : Fld := ⟨7, 0⟩
abbrev F.WM_DISCARD_HOST_COUNT : Fld := ⟨31, 0⟩
abbrev F.WM_DISCARD_CANAL_COUNT : Fld := ⟨31, 0⟩
abbrev F.WM_PEND_STATUS : Fld := ⟨31, 0⟩
abbrev F.WM_TILEMAP_TILES : Fld := ⟨47, 0⟩
abbrev F.WM_SLICEMAP_SLICES : Fld := ⟨31, 0⟩
abbrev F.WM_SLOTMAP_SLOTS : Fld := ⟨15, 0⟩
abbrev F.TW_STATUS_ACTIVE : Fld := ⟨31, 31⟩
abbrev F.TW_STATUS_RB_ENTRIES : Fld := ⟨29, 15⟩
abbrev F.TW_STATUS_LATE : Fld := ⟨2, 2⟩
abbrev F.TW_STATUS_MISSING : Fld := ⟨1, 1⟩
abbrev F.TW_STATUS_MISMATCH : Fld := ⟨0, 0⟩
abbrev F.TW_LAST_TURN : Fld := ⟨63, 0⟩
abbrev F.WM_SRC_STATUS : Fld := ⟨31, 31⟩
abbrev F.WM_SRC_ENABLE : Fld := ⟨30, 30⟩
abbrev F.WM_SRC_FORCE : Fld := ⟨29, 29⟩
abbrev F.WM_SRC_LEVEL : Fld := ⟨25, 24⟩
abbrev F.WM_SRC_SEVERITY : Fld := ⟨1, 0⟩
abbrev F.RST_CAUSE_CAUSE : Fld := ⟨12, 0⟩
abbrev F.RST_STATUS_SCOPE : Fld := ⟨31, 30⟩
abbrev F.RST_STATUS_T1_KEPT : Fld := ⟨29, 29⟩
abbrev F.RST_STATUS_OTP_BUSY : Fld := ⟨28, 28⟩
abbrev F.RST_STATUS_REF_LOST : Fld := ⟨25, 25⟩
abbrev F.RST_STATUS_ROOT_LOST : Fld := ⟨24, 24⟩
abbrev F.RST_CTRL_WARM : Fld := ⟨0, 0⟩
abbrev F.RST_TILE_UNITS : Fld := ⟨47, 0⟩
abbrev F.RST_LINK_UNITS : Fld := ⟨35, 0⟩
abbrev F.RST_UNIT_RIDER : Fld := ⟨22, 21⟩
abbrev F.RST_UNIT_OBS : Fld := ⟨20, 20⟩
abbrev F.RST_UNIT_T2 : Fld := ⟨19, 16⟩
abbrev F.RST_UNIT_SLOTS : Fld := ⟨15, 0⟩
abbrev F.RST_PARTILE_PAR_TILE : Fld := ⟨47, 0⟩
abbrev F.RST_WD_ENABLE : Fld := ⟨31, 31⟩
abbrev F.RST_WD_TIMEOUT : Fld := ⟨23, 0⟩
abbrev F.RST_WD_KICK_KEY : Fld := ⟨15, 0⟩
abbrev F.RST_RETIRE_GO : Fld := ⟨31, 31⟩
abbrev F.RST_RETIRE_BUSY : Fld := ⟨30, 30⟩
abbrev F.RST_RETIRE_RESULT : Fld := ⟨29, 28⟩
abbrev F.RST_RETIRE_PTILE : Fld := ⟨5, 0⟩
abbrev F.RST_RETIRED_FUSED : Fld := ⟨49, 0⟩
abbrev F.CLK_STATUS_CG_ROOT : Fld := ⟨31, 31⟩
abbrev F.CLK_STATUS_CG_REF : Fld := ⟨30, 30⟩
abbrev F.CLK_STATUS_LOSSES : Fld := ⟨15, 0⟩
abbrev F.PW_STRETCH_IF_ERR : Fld := ⟨31, 31⟩
abbrev F.PW_STRETCH_MGR : Fld := ⟨29, 24⟩
abbrev F.PW_STRETCH_EFFECTIVE : Fld := ⟨21, 16⟩
abbrev F.PW_STRETCH_FLOOR : Fld := ⟨5, 0⟩
abbrev F.PW_STATE_WINDOW : Fld := ⟨31, 30⟩
abbrev F.PW_STATE_BOOST_LEFT : Fld := ⟨26, 16⟩
abbrev F.PW_STATE_PEAK_LEFT : Fld := ⟨4, 0⟩
abbrev F.PW_TELEM_POWER : Fld := ⟨31, 16⟩
abbrev F.PW_TELEM_ENERGY : Fld := ⟨15, 0⟩
abbrev F.OBS_CTRL_CLEAR : Fld := ⟨31, 31⟩
abbrev F.OBS_CTRL_RST_MODE : Fld := ⟨17, 16⟩
abbrev F.OBS_CTRL_HALTFIELDS : Fld := ⟨15, 0⟩
abbrev F.OBS_STATUS_HALTED : Fld := ⟨31, 31⟩
abbrev F.OBS_STATUS_CAUSE : Fld := ⟨30, 29⟩
abbrev F.OBS_STATUS_ORIGIN : Fld := ⟨24, 16⟩
abbrev F.OBS_STATUS_RESUME_LATE : Fld := ⟨3, 3⟩
abbrev F.OBS_STATUS_GATED_SEEN : Fld := ⟨2, 2⟩
abbrev F.OBS_STATUS_REFUSED : Fld := ⟨1, 1⟩
abbrev F.OBS_HALT_GO : Fld := ⟨31, 31⟩
abbrev F.OBS_HALT_NUMBER : Fld := ⟨15, 0⟩
abbrev F.OBS_RESUME_VALUE : Fld := ⟨63, 0⟩
abbrev F.TR_TRIGTIME_VALUE : Fld := ⟨63, 0⟩
abbrev F.OBS_TAGFILT_OMASK : Fld := ⟨63, 48⟩
abbrev F.OBS_TAGFILT_OPERATOR : Fld := ⟨47, 32⟩
abbrev F.OBS_TAGFILT_LMASK : Fld := ⟨31, 16⟩
abbrev F.OBS_TAGFILT_LAYER : Fld := ⟨15, 0⟩
abbrev F.SMP_BASE_REGION : Fld := ⟨42, 21⟩
abbrev F.TR_BASE_REGION : Fld := ⟨42, 21⟩
abbrev F.SMP_CTRL_ENABLE : Fld := ⟨31, 31⟩
abbrev F.SMP_CTRL_MODE : Fld := ⟨30, 30⟩
abbrev F.SMP_CTRL_GROUPS : Fld := ⟨29, 27⟩
abbrev F.SMP_CTRL_LOG2SIZE : Fld := ⟨26, 22⟩
abbrev F.SMP_CTRL_PERIOD : Fld := ⟨19, 0⟩
abbrev F.SMP_TAIL_INDEX : Fld := ⟨23, 0⟩
abbrev F.SMP_HEAD_INDEX : Fld := ⟨23, 0⟩
abbrev F.SMP_SKIP_COUNT : Fld := ⟨31, 0⟩
abbrev F.TR_DROP_COUNT : Fld := ⟨31, 0⟩
abbrev F.HR_FRAMES_COUNT : Fld := ⟨31, 0⟩
abbrev F.HR_MISSING_COUNT : Fld := ⟨31, 0⟩
abbrev F.HR_ERRORS_COUNT : Fld := ⟨31, 0⟩
abbrev F.TR_CTRL_ENABLE : Fld := ⟨31, 31⟩
abbrev F.TR_CTRL_KEEP : Fld := ⟨30, 30⟩
abbrev F.TR_CTRL_DRAIN : Fld := ⟨29, 29⟩
abbrev F.TR_CTRL_REARM : Fld := ⟨28, 28⟩
abbrev F.TR_CTRL_LOG2SIZE : Fld := ⟨27, 23⟩
abbrev F.TR_CTRL_COMMAND : Fld := ⟨5, 5⟩
abbrev F.TR_CTRL_KERNEL : Fld := ⟨4, 4⟩
abbrev F.TR_CTRL_SYNC : Fld := ⟨3, 0⟩
abbrev F.TR_MIN_MIN : Fld := ⟨15, 0⟩
abbrev F.TR_TAIL_VALUE : Fld := ⟨25, 0⟩
abbrev F.TR_HEAD_VALUE : Fld := ⟨25, 0⟩
abbrev F.TR_COUNT_VALUE : Fld := ⟨25, 0⟩
abbrev F.TRACE_STATUS_TRIGGERED : Fld := ⟨31, 31⟩
abbrev F.TRACE_STATUS_FROZEN : Fld := ⟨30, 30⟩
abbrev F.TRACE_STATUS_TRIGIDX : Fld := ⟨24, 0⟩
abbrev F.TR_TRIG_ARM : Fld := ⟨31, 31⟩
abbrev F.TR_TRIG_FIRE : Fld := ⟨30, 30⟩
abbrev F.TR_TRIG_KIND : Fld := ⟨29, 27⟩
abbrev F.TR_TRIG_SRC : Fld := ⟨7, 0⟩
abbrev F.TR_TOTAL_INDEX : Fld := ⟨63, 0⟩
abbrev F.SNAP_BASE_REGION : Fld := ⟨42, 20⟩
abbrev F.SNAP_CTRL_GO : Fld := ⟨31, 31⟩
abbrev F.SNAP_CTRL_BUSY : Fld := ⟨30, 30⟩
abbrev F.SNAP_CTRL_RESULT : Fld := ⟨29, 28⟩
abbrev F.RACE_CTRL_MODE : Fld := ⟨31, 30⟩
abbrev F.RACE_STATUS_LSTATE : Fld := ⟨31, 30⟩
abbrev F.RACE_STATUS_MAP_WERR : Fld := ⟨2, 2⟩
abbrev F.RACE_STATUS_OVERRUN : Fld := ⟨1, 1⟩
abbrev F.RACE_STATUS_FRAME_ERR : Fld := ⟨0, 0⟩
abbrev F.HR_MAPADDR_AUTOINC : Fld := ⟨31, 31⟩
abbrev F.HR_MAPADDR_SLOT : Fld := ⟨8, 0⟩
abbrev F.HR_MAPDATA_VALID : Fld := ⟨15, 15⟩
abbrev F.HR_MAPDATA_STREAM : Fld := ⟨3, 0⟩
abbrev F.DUMP_CTRL_ARM : Fld := ⟨31, 31⟩
abbrev F.DUMP_CTRL_RESULT : Fld := ⟨30, 28⟩
abbrev F.DUMP_CTRL_ANYSTEP : Fld := ⟨27, 27⟩
abbrev F.DUMP_CTRL_TAG : Fld := ⟨23, 0⟩
abbrev F.DUMP_STEP_STEP : Fld := ⟨31, 0⟩
abbrev F.DUMP_DEST_LINE : Fld := ⟨42, 8⟩
abbrev F.DUMP_MAX_LINES : Fld := ⟨14, 0⟩
abbrev F.HR_SCFG_ENABLE : Fld := ⟨31, 31⟩
abbrev F.HR_SCFG_TILE : Fld := ⟨29, 24⟩
abbrev F.HR_SCFG_CTX : Fld := ⟨23, 16⟩
abbrev F.HR_SCFG_NBUF_M1 : Fld := ⟨7, 4⟩
abbrev F.HR_SCFG_NSTART_M1 : Fld := ⟨1, 0⟩
abbrev F.HR_SBASE_LINE : Fld := ⟨22, 8⟩
abbrev F.HR_SLEN_LINES : Fld := ⟨13, 0⟩
abbrev F.HR_SSTART_INDEX : Fld := ⟨19, 0⟩
abbrev F.OBS_DP_TAG_TAG : Fld := ⟨23, 0⟩
abbrev F.OBS_DP_STEP_STEP : Fld := ⟨31, 0⟩
abbrev F.OBS_DP_SRC_LINE : Fld := ⟨22, 8⟩
abbrev F.OBS_DP_CTRL_GO : Fld := ⟨31, 31⟩
abbrev F.OBS_DP_CTRL_BUSY : Fld := ⟨30, 30⟩
abbrev F.OBS_DP_CTRL_RESULT : Fld := ⟨29, 27⟩
abbrev F.OBS_DP_CTRL_PACE : Fld := ⟨23, 16⟩
abbrev F.OBS_DP_CTRL_LINES : Fld := ⟨14, 0⟩
abbrev F.OBS_BP_ENABLE : Fld := ⟨31, 31⟩
abbrev F.OBS_BP_HALTED : Fld := ⟨30, 30⟩
abbrev F.OBS_BP_ADDR : Fld := ⟨15, 2⟩

end Sys2Proof.Machine
end

