-- ==== Sys2Proof/Machine/State.lean ====
section
/-! DEFINITION. The state of the block as plain data: the register file, memory, and what each unit holds beyond its
registers. Registers that no program has changed are not listed and read their reset value. -/

namespace Sys2Proof.Machine

/-! ### Reasons to stop -/

/-- Faults of the model: the block itself has none (every refusal of the spec is recorded in its registers and the
block goes on), so this type has no constructor that a meaning answers with. -/
inductive Fault where
  /-- No meaning raises it; kept so that the type is inhabited. Safe. -/
  | never
deriving DecidableEq, Repr

/-- Refusals of the model. -/
inductive Refusal where
  /-- Raised by an arm of exec whose command has no meaning yet. Safe. -/
  | notModelled (mnemonic : String)
deriving DecidableEq, Repr

/-! ### Addresses after translation -/

/-- Target class of a range (R318). -/
inductive TClass where
  | localMem | host0 | host1 | peer
deriving DecidableEq, Repr, Inhabited

/-- Effective type of an access (R318, R387). -/
inductive MemType where
  | normal | stream | device
deriving DecidableEq, Repr, Inhabited

/-- A translated address: for localMem a 52-bit device physical address, otherwise a host or bus address. -/
structure Target where
  cls : TClass
  addr : Nat
  typ : MemType
deriving DecidableEq, Repr, Inhabited

/-- A copy of a range entry in a range cache (R322, R323). -/
structure RCEntry where
  ctx : Byte
  vstart : Nat
  pstart : Nat
  pages : Nat
  cls : TClass
  /-- PERM: R [0], W [1], X [2], A [3] -/
  perm : BitVec 4
  count : Bool
  typ : BitVec 2
  pinned : Bool
deriving DecidableEq, Repr, Inhabited

/-! ### Vector cores -/

/-- A path of a group: where it continues and its threads (R103). -/
structure Path where
  pc : Word64
  mask : Word64
deriving DecidableEq, Repr, Inhabited

/-- An entry of the reconvergence stack (R128, R129). -/
structure RecEntry where
  rpc : Word64
  mask : Word64
  parked : Word64
  pending : List Path
deriving DecidableEq, Repr, Inhabited

/-- A completion token with the status word of R99. -/
structure Token where
  done : Bool
  word : Word64
deriving DecidableEq, Repr, Inhabited

/-- What the exception record of a late report carries (R150, R178, R179). -/
structure LateRec where
  cause : Byte
  pc : Word64
  addr : Word64
  failMask : Word64
  active : Word64
  word : Word64
  write : Bool
  atomic : Bool
deriving DecidableEq, Repr, Inhabited

/-- What a group outside the active set, or held at a fence, waits for (R119, R391, R392). -/
inductive GWait where
  | token (n : Fin 16)
  | queue (u : MxUnit)
  | barrier
  | load
  | walk (va : Word64) (access : BitVec 4) (word : Word64)
  | fault (id : Nat) (va : Word64) (access : BitVec 4) (word : Word64)
  | refusedFault (va : Word64) (access : BitVec 4) (word : Word64)
  | fence (toEnd : Bool)
deriving DecidableEq, Repr, Inhabited

/-- One thread's part of an outstanding load or atomic: its address, its operands, whether its request has been sent
(R389), and the value once it is known. -/
structure Lane where
  thread : Nat
  va : Word64
  tgt : Target
  opA : Nat
  opB : Nat
  sent : Bool
  val : Option Nat
deriving DecidableEq, Repr, Inhabited

/-- A line of the L1 data cache (R141): its device physical or host address and its 64 bytes. -/
structure DLine where
  cls : TClass
  addr : Nat
  bytes : List Byte
  /-- the line has a parity error, which its next read finds (R144) -/
  parity : Bool
deriving DecidableEq, Repr, Inhabited

/-- An outstanding load or atomic of a group (R119, R380): its threads, the destination registers with the threads that
still receive their word, the atomic operation, the bytes of the group's own earlier stores in flight (R381), the lines
that have come for it, and the bytes that the core has stored since (R141, R382). -/
structure PendLoad where
  id : Nat
  ctx : Byte
  lanes : List Lane
  vd : Nat
  sz : BitVec 3
  live : List (Nat × Word64)
  atomic : Option (BitVec 4)
  forward : List (Nat × Byte)
  lines : List DLine
  later : List (Nat × Byte)
  late : LateRec
deriving DecidableEq, Repr, Inhabited

/-- A write in flight of a group (R379, R399): its bytes, by address in its target class. -/
structure PendWrite where
  id : Nat
  ctx : Byte
  tgt : Target
  bytes : List (Nat × Byte)
  sent : Bool
  performed : Bool
  acked : Bool
  late : LateRec
  /-- the number of the group's block, once a barrier of it that the write preceded has been released (R137) -/
  barrier : Option Nat
deriving DecidableEq, Repr, Inhabited

/-- Registers that a late report marked (R150). -/
structure Mark where
  reg : Nat
  threads : Word64
  late : LateRec
deriving DecidableEq, Repr, Inhabited

/-- An entry of the register cache (R108): the register, the threads whose word the entry holds, which is the word that the main
file holds, and whether it has a parity error, which its next read finds (R109). -/
structure RegLine where
  reg : Nat
  words : Word64
  parity : Bool
deriving DecidableEq, Repr, Inhabited

/-- A resident group (R103). v holds the ALLOC rows that exist (R105). -/
structure Group where
  block : Nat
  num : Nat
  blockSlot : Nat
  v : List Row
  u : Vector Word64 64
  p : Vector Word64 8
  tok : Vector Token 16
  pc : Word64
  mask : Word64
  stack : List RecEntry
  exited : Word64
  fflags : FFlags
  halted : Bool
  wait : Option GWait
  /-- When the group became ready to return to the active set, in the core's count of readiness events. -/
  readyAt : Option Nat
  loads : List PendLoad
  writes : List PendWrite
  marks : List Mark
  late : Option LateRec
  /-- Words of the register file with an uncorrectable error: register and thread (R110). -/
  rfUE : List (Nat × Nat)
  /-- the register cache of its active slot, most recent first; empty outside the active set (R108, R109) -/
  cache : List RegLine
  /-- its last instruction took a backward branch (R121) -/
  back : Bool
deriving DecidableEq, Repr, Inhabited

/-- A line of the L1 instruction cache (R143). -/
structure ILine where
  addr : Nat
  bytes : List Byte
  /-- the line has a parity error, which its next read finds (R144) -/
  parity : Bool
deriving DecidableEq, Repr, Inhabited

/-- An entry of the merge buffer (R388): its line, its context, the bytes merged so far, and the groups whose stores it
holds. -/
structure MergeEntry where
  tgt : Target
  ctx : Byte
  bytes : List (Nat × Byte)
  slots : List (Fin 32)
  late : LateRec
  /-- the virtual address of a line toward host memory whose requests are counted (R332) -/
  count : Option Nat
deriving DecidableEq, Repr, Inhabited

/-- A vector core (R102, R118, R126, R141, R143). The caches list their lines most recently used first. -/
structure Core where
  groups : Vector (Option Group) 32
  active : Vector (Option (Fin 32)) 8
  clock : Nat
  blocks : Vector (Option Nat) 8
  nextBlock : Nat
  l1d : List DLine
  l1i : List ILine
  merge : List MergeEntry
  /-- writes in flight of groups that have ended (R196) -/
  orphans : List PendWrite
  /-- atomics in flight of groups that have ended -/
  orphanLoads : List PendLoad
  /-- the next name for an access in flight: the model's own field -/
  nextId : Nat
deriving DecidableEq, Repr, Inhabited

/-- A running kernel (R193). -/
structure Kernel where
  entry : Word64
  arg0 : Word64
  arg1 : Word64
  nblocks : Nat
  ctx : Byte
  g : Nat
  cspace : Bool
  vregs : Nat
  localUnits : Nat
  excBase : Nat
  layer : Word16
  operator : Word16
  poolBase : Vector Nat 4
  poolSize : Vector Nat 4
  desc : Nat
  sched : Bool
  /-- the first groups have been created, or the launch has failed (R194, R195) -/
  started : Bool
  failed : Bool
  status : Nat
  startTime : Word64
deriving DecidableEq, Repr, Inhabited

/-! ### Tensor array -/

/-- The matrix operations of R75. -/
inductive MxOp where
  | mxma | mxld | mxst
deriving DecidableEq, Repr, Inhabited

/-- A data descriptor (R81). -/
structure DataDesc where
  base : Nat
  stride : Nat
  fmt : Nat
  scaled : Bool
  rm : Nat
  sat : Bool
  rows : Nat
  cols : Nat
  scaleBase : Nat
deriving DecidableEq, Repr, Inhabited

/-- An accumulator descriptor (R82). -/
structure AccDesc where
  region : Nat
  init : Bool
  add : Bool
  anchor : BitVec 16
  k : Nat
deriving DecidableEq, Repr, Inhabited

/-- A matrix instruction: issued, accepted, or ended and waiting for its token (R78, R96, R99). -/
structure MxInstr where
  op : MxOp
  group : GroupId
  ctx : Byte
  tok : Fin 16
  /-- block and group number of the issuing group -/
  block : Nat
  num : Nat
  a : Word64
  b : Word64
  c : Word64
  seq : Nat
  da : DataDesc
  db : DataDesc
  dc : AccDesc
  word : Word64
deriving DecidableEq, Repr, Inhabited

/-- The tensor array of a tile (R78, R92). The accumulator memory lists the entries that are not cleared. -/
structure Tensor where
  issued : List MxInstr
  mq : List MxInstr
  tq : List MxInstr
  ended : List MxInstr
  seq : Nat
  clearing : Bool
  acc : List (Nat × Wide)
  /-- the 7-bit residue that the residue channel keeps for each entry, where it is not 0 (R68) -/
  residue : List (Nat × Nat)
  accUE : List Nat
deriving DecidableEq, Repr, Inhabited

/-! ### Sequencer and sluice -/

/-- A wait of the sequencer (R181, R182): a WAIT for a point, a DELAY, or an instruction whose condition does not hold
yet, kept as its word. -/
inductive SeqWait where
  | point (turn : Word64) (cycle : Nat)
  | delay
  | instr (w : Word32)
deriving DecidableEq, Repr, Inhabited

/-- The fields of a sluice descriptor (R200, R201). -/
structure SlDesc where
  op : Nat
  ends : Bool
  ctx : Byte
  ssp : Nat
  dsp : Nat
  link : Nat
  stream : Nat
  pace : Nat
  a : Vector Word64 7
  off : Nat
deriving DecidableEq, Repr, Inhabited

/-- What a piece of a sluice descriptor is for: a copy, one of the two inputs of a WREDUCE, or a part of its sums (R203). -/
inductive MoveRole where
  | copy | first | second | sum
deriving DecidableEq, Repr, Inhabited

/-- A piece of a sluice descriptor: a read and the write that carries its bytes on (R207, R612). -/
structure SlMove where
  id : Nat
  /-- its index among the pieces of its descriptor, and the index of the first piece of its sub-descriptor (R207) -/
  idx : Nat
  sub : Nat
  /-- slab offset of its descriptor -/
  desc : Nat
  ctx : Byte
  role : MoveRole
  src : Option Target
  dst : Option Target
  /-- the source, or the destination, is a SLAB operand (R202, R292) -/
  srcSlab : Bool
  dstSlab : Bool
  /-- the virtual address of a source, or of a destination, in host memory whose range counts its accesses (R332) -/
  srcCount : Option Nat
  dstCount : Option Nat
  /-- LINK of its descriptor (R214) -/
  link : Nat
  bytes : Nat
  data : List Byte
  /-- the bytes are there -/
  arrived : Bool
  /-- the write has been issued -/
  sent : Bool
  performed : Bool
  /-- the count of TB_RAW at which a write toward another chip that has left in its S slot is performed there (R204, R225) -/
  due : Option Word64
deriving DecidableEq, Repr, Inhabited

/-- A descriptor fetched ahead of execution, with the first check that stops its channel, 0 for none (R207, R613). -/
structure SlAhead where
  desc : SlDesc
  status : Nat
deriving DecidableEq, Repr, Inhabited

/-- A sluice channel beyond its registers (R199, R203, R207). -/
structure Chan where
  lc : Nat
  next : Nat
  desc : Option SlDesc
  /-- descriptors fetched ahead, in the order of the chain (R207) -/
  ahead : List SlAhead
  /-- pieces of the descriptor that have entered the queue of sub-descriptors (R207) -/
  enq : Nat
  /-- pieces of the descriptor that are in the queue and have not issued yet -/
  todo : List SlMove
  /-- its queued pieces are translated again before one issues (R336) -/
  tagged : Bool
  /-- pieces issued and not yet performed -/
  flight : List SlMove
  nextId : Nat
  /-- the status with which the channel stops -/
  ending : Option Nat
  walk : Option (Word64 × BitVec 4)
  fault : Option Nat
  refused : Bool
deriving DecidableEq, Repr, Inhabited

/-- A line of a tile's atomic store (R348). -/
structure AtomLine where
  addr : Nat
  /-- the context of the kernel whose request acquired it (R314) -/
  ctx : Byte
  bytes : List Byte
  dirty : Bool
  /-- its eviction has been sent and not yet acknowledged (R359) -/
  evicting : Bool
  /-- a shared copy, left by a forward (R356) -/
  shared : Bool
deriving DecidableEq, Repr, Inhabited

/-- What a tile's coherent request is for (R353 to R359). -/
inductive ReqKind where
  | load (c : CoreId) (id : Nat)
  | write (c : CoreId) (id : Nat)
  | atomic (c : CoreId) (id : Nat)
  | acquire
  | evict
  | chan (c : ChanId) (i : Nat)
deriving DecidableEq, Repr, Inhabited

/-- A request of a tile that awaits its response: its transaction tag, its kind and its address (R353). -/
structure TileReq where
  tag : BitVec 12
  kind : ReqKind
  addr : Nat
deriving DecidableEq, Repr, Inhabited

/-- A signal word queued at a tile, with its link (R192). -/
structure SigWord where
  link : LinkId
  word : Word64
deriving DecidableEq, Repr, Inhabited

/-- A tile beyond its registers. -/
structure Tile where
  /-- s1 to s31 in their places; place 0 is never read (R172) -/
  s : Vector Word64 32
  /-- the sequencer's program counter, in full -/
  pc : Word64
  /-- program memory, by word; unlisted words are 0 -/
  pmem : List (Nat × Word32)
  progBase : Nat
  progSize : Nat
  starting : Bool
  wait : Option SeqWait
  delayLeft : Nat
  markGap : Nat
  /-- a late MARK whose fault is raised in cycle 0 of the next turn (R186) -/
  lateMark : Bool
  rx : List SigWord
  /-- a switch toward scheduled mode has begun and the slab drains (R37) -/
  draining : Bool
  kernel : Option Kernel
  /-- end status of the most recent kernel (R195) -/
  endStatus : Nat
  prevCtx : Option Byte
  cores : Vector Core 4
  ta : Tensor
  chans : Vector Chan 8
  rcV : List RCEntry
  rcS : List RCEntry
  atoms : List AtomLine
  /-- coherent requests that await their response -/
  reqs : List TileReq
  fill : Option (Nat × Word32)
  /-- held by a halt of the observation unit (R595) -/
  held : Bool
  inReset : Bool
  layer : Word16
  operator : Word16
deriving DecidableEq, Repr, Inhabited

/-! ### Canal links -/

/-- What a slot of a canal link carries (R252). -/
inductive Parcel where
  | idle
  | data (p : DataParcel)
  | signal (p : SignalParcel)
  | stretch (p : StretchParcel)
  | ping (m : PingMsg)
  | digest (d : DigestParcel)
  | halt (chip : BitVec 9) (side : Bool) (source : Byte)
  | container (c : Container)
deriving DecidableEq, Repr

/-- A ping in progress on a link (R233, R239): which side this block is, the message it sends in its next slot 1, and the
times it has taken. -/
structure PingState where
  busy : Bool
  /-- GO has been written here -/
  asked : Bool
  initiator : Bool
  auto : Bool
  /-- number of the message that leaves in the next slot 1 -/
  due : Option Nat
  a1 : Word64
  /-- the raw count at which M1 left -/
  a1Raw : Word64
  b1 : Word64
  a2 : Word64
  b2 : Word64
  a3 : Word64
  b3 : Word64
  valid : Bool
  /-- arrival minus the far side's send time of the first message received -/
  inLat : Nat
  farIn : Nat
  rtt : Nat
  farRtt : Nat
  /-- what the last message of the far side carried: its chip, its side, its EPOCH_VALID -/
  farChip : BitVec 9
  farSide : Bool
  farEpoch : Bool
  /-- turns that have begun since this side last sent, received or began to wait -/
  waited : Nat
deriving DecidableEq, Repr, Inhabited

/-- A flit that waits at a link's stop (R260). -/
structure SendFlit where
  arrival : Nat
  tile : TileId
  piece : Option (ChanId × Nat)
  stream : Byte
  parcel : DataParcel ⊕ SignalParcel
deriving DecidableEq, Repr

/-- A received S parcel and the point of R262, in cycles 0 to 1,799 of the turns since the epoch, at which it is handed over or
has reached the outbound stop. -/
structure Arrival where
  point : Nat
  parcel : DataParcel ⊕ SignalParcel
deriving DecidableEq, Repr

/-- A canal link beyond its registers. -/
structure Link where
  /-- the credit for a signal word to each far tile (R266) -/
  sigCredit : Vector Bool 48
  /-- signal words accepted from CNSIG and not yet sent in a C slot, oldest first (R192) -/
  sigOut : List (Nat × Word64)
  /-- signal words whose tile queue is full (R266) -/
  sigHeld : List (TileId × Word64)
  /-- slot entries of the map memory that are not 0, by page and slot (R257) -/
  slotMap : List (Nat × Word16)
  /-- page-schedule entries that are not 0 (R258) -/
  sched : List (Nat × Word32)
  /-- the page-schedule entry in use, and how many of its turns have begun -/
  entry : Nat
  entryTurns : Nat
  sendQ : List SendFlit
  relayQ : List Arrival
  /-- S parcels received and not yet handed over (R262) -/
  arrivals : List Arrival
  /-- entries of the map memory with an uncorrectable error, by page and slot (R259) -/
  mapUE : List Nat
  /-- a HALT parcel has been received (R270) -/
  halted : Bool
  /-- coherent flits that wait for a C slot, oldest first -/
  cOut : List CohMsg
  /-- requests that the link carried and that await a response (R269) -/
  carried : List CohMsg
  /-- sequence number of the next container (R265) -/
  seq : Nat
  /-- last container number received in order -/
  lastRx : Nat
  nak : Bool
  /-- containers sent and not acknowledged, oldest first -/
  retry : List Container
  /-- how many containers of the retry buffer the next C slots send again -/
  replaying : Nat
  replays : Nat
  /-- flit credits held, by class (R266) -/
  credReq : Nat
  credSnp : Nat
  credRsp : Nat
  /-- flit credits to return -/
  oweReq : Nat
  oweSnp : Nat
  oweRsp : Nat
  oweSig : List TileId
  /-- consecutive parcels that arrived errored (R269) -/
  errored : Nat
  ping : PingState
deriving DecidableEq, Repr

/-- The rotation unit beyond its registers: the turns latched by START_ARM and STOP_ARM, the epoch latched by EPOCH_ARM,
and the stretch values M[T] to M[T + 8] (R222, R223, R235, R240). -/
structure Rot where
  start : Word64
  stop : Option Word64
  /-- the epoch that occurred (R231) -/
  epoch : Word64
  m : Vector Nat 9
deriving DecidableEq, Repr, Inhabited

/-! ### Functions of the host ports -/

/-- The bits of a function's configuration space, MSI-X table and pending-bit array that the block's rules read (R405 to
R412, R424 to R427). -/
structure Func where
  memSpace : Bool
  busMaster : Bool
  cacheEnable : Bool
  msixEnable : Bool
  msixMask : Bool
  d3 : Bool
  pmeEn : Bool
  pmeStatus : Bool
  numVfs : Nat
  vfEnable : Bool
  cplTimeout : BitVec 4
  viralStatus : Bool
  cacheInvalid : Bool
  bars : Vector Word64 3
  hdmBase : Word64
  /-- vectors whose mask bit is 0 -/
  unmasked : List Nat
  /-- vectors whose pending bit is 1 -/
  pend : List Nat
  /-- words of the MSI-X table that are not 0, by byte offset -/
  table : List (Nat × Word32)
  /-- a function-level reset runs (R433) -/
  flr : Bool
deriving DecidableEq, Repr, Inhabited

/-- Which unit holds a write toward host memory (R379, R399). -/
inductive HostSrc where
  | write (t : TileId) (c : CoreId) (id : Nat)
  | atomic (t : TileId) (c : CoreId) (id : Nat)
  | chan (t : TileId) (c : ChanId) (i : Nat)
  | head (h : HeadId) (slot : Nat)
  | engine (e : EngineId)
  | rider (k : RiderId)
  | block
deriving DecidableEq, Repr, Inhabited

/-- A write toward host memory that has been sent to its port and awaits the host's GO (R379, R421). -/
structure HostWr where
  id : Nat
  port : HostPortId
  ctx : Byte
  src : HostSrc
  addr : Nat
  bytes : List (Nat × Byte)
  /-- it has left the block: with twin checking it first waits in the release buffer (R529), and in the safe state it is
  discarded (R520) -/
  released : Bool
  /-- a write toward a peer, which is performed as it leaves (R379) -/
  peer : Bool
deriving DecidableEq, Repr, Inhabited

/-- An MSI-X request that waits for writes of its unit to be performed: their names (R426). -/
structure MsixWait where
  function : FunctionId
  vector : Nat
  after : List Nat
deriving DecidableEq, Repr

/-- An entry of the access-counter cache (R332). -/
structure AccCount where
  ctx : Byte
  page : Nat
  count : Nat
deriving DecidableEq, Repr, Inhabited

/-! ### Keys of tier 1 and tier 2 -/

/-- A key of the hub security block (R499): derived from the device secret, LABEL, the slot and the life-cycle class, or fresh
at a levee opening. -/
inductive KeyName where
  | persist (label slot cls : Nat)
  | random (n : Nat)
deriving DecidableEq, Repr

/-- The lines L from lo to below hi, of one HBM stack when one is named, stand in external memory under a key, or as plaintext
(R305). -/
structure KeyTag where
  lo : Nat
  hi : Nat
  stack : Option Nat
  key : Option KeyName
deriving DecidableEq, Repr

/-- Addresses from lo to below hi, of one HBM stack when one is named, whose contents a reset has left unspecified, with the stamp
of their free value, or none where they have been filled since. -/
structure Pad where
  lo : Nat
  hi : Nat
  stack : Option Nat
  stamp : Option Nat
deriving DecidableEq, Repr

/-! ### Homes -/

/-- A line of the reservoir (R278): its physical way in its set (R277), its bytes, its dirty state, whether the two copies of
its valid and dirty state agree (R281), and whether its bytes or its tag hold a parity error (R282, R283). -/
structure RLine where
  addr : Nat
  bytes : List Byte
  dirty : Bool
  way : Nat
  agree : Bool := true
  parity : Bool := false
deriving DecidableEq, Repr, Inhabited

/-- The state of a directory entry that is in use (R352). -/
inductive DirState where
  | shared | owned | lost
deriving DecidableEq, Repr, Inhabited

/-- A directory entry in use (R351, R352): the line, its way, the agents that hold or may hold it. -/
structure DirEntry where
  line : Nat
  way : Nat
  state : DirState
  presence : List Byte
deriving DecidableEq, Repr, Inhabited

/-- What a transaction of a home waits for (R357 to R361): snoop replies and evictions, data of the tier, the performing
of a write by an HBM controller (R40), or the requester's ACK; done is closed but for its conflict chain. -/
inductive TxnStage where
  | snoop | mem | tierWrite | ack | done
deriving DecidableEq, Repr, Inhabited

/-- An open transaction of a home (R357): its line, the request it serves (none for a back-invalidation of the block),
whether it frees a way for that request (R363), what it waits for, the data that came back, and the conflict chain. -/
structure Txn where
  line : Nat
  req : Option CohMsg
  victim : Bool
  stage : TxnStage
  owed : List Byte
  evict : List Byte
  data : Option (List Byte)
  /-- the owner has forwarded the line to the requester -/
  forwarded : Bool
  chain : List CohMsg
deriving DecidableEq, Repr

/-- A refill of a reservoir line: which half comes first, and the halves that have come, with what completed requests have written to
them (R280). -/
structure Refill where
  line : Nat
  secondFirst : Bool
  halves : List (Bool × List Byte)
  ue : Bool
  dirty : Bool
deriving DecidableEq, Repr, Inhabited

/-- A coherent-plane access that an HBM controller has to issue (R301): a read of a line, or a write to a rotation-locked
granule (R40). -/
structure TierOp where
  line : Nat
  write : Option (List (Nat × Byte))
  issued : Bool
  ue : Bool
deriving DecidableEq, Repr, Inhabited

/-- A line that the rider cluster holds for a core (R350). -/
structure RiderLine where
  core : RiderId
  addr : Nat
  bytes : List Byte
  dirty : Bool
  /-- a shared copy, whose drop needs no eviction -/
  shared : Bool
  /-- an eviction of it awaits EVICT_ACK (R359) -/
  evicting : Bool
deriving DecidableEq, Repr, Inhabited

/-- A granule that flips to host bias, the host requests that asked for it, and the device requests that wait (R367). -/
structure Flip where
  granule : Nat
  host : List CohMsg
  waiting : List CohMsg
deriving DecidableEq, Repr

/-- A running bias command: SET_DEVICE of window granules, or LOCK of an entry (R368, R370). -/
inductive BiasOp where
  | setDevice (start count : Nat)
  | lock (entry start count : Nat)
deriving DecidableEq, Repr, Inhabited

/-- A position that a scheduled request has taken (R297): its stack, pseudo-channel, window and position, and the request's arrival
and rank. -/
structure HbmTaken where
  stack : StackId
  pc : Nat
  window : Nat
  position : Nat
  arrival : Int
  rank : Nat
deriving DecidableEq, Repr

/-- A scheduled read that a controller has performed (R226): who asked, with which context, the 256-byte line's address and bytes as
the command found them, whether the owner check refused it, when its data is at the controller's stop, in FCLK of the scheduled
plane, and whether it has come. -/
structure HbmRead where
  source : HbmSource
  ctx : Byte
  line : Nat
  bytes : List Byte
  refused : Bool
  due : Nat
  arrived : Bool
deriving DecidableEq, Repr

/-- The homes of the block: reservoir lines most recently used first, the directory entries in use most recently used
first, open transactions, retry queues, owner caches, and the state of bias, locks and the culvert. -/
structure Home where
  resv : List RLine
  dir : List DirEntry
  txns : List Txn
  /-- requests that wait for a way, oldest first, of all slices (R364, R279) -/
  retry : List CohMsg
  /-- owner-cache entries of each slice: slice and entry, most recently used first (R340) -/
  owners : List (SliceId × Nat)
  ownerWait : List (Nat × CohMsg)
  refills : List Refill
  tierOps : List TierOp
  /-- sets of a slice with an uncorrectable directory entry (R376) -/
  dirUE : List (SliceId × Nat)
  riderLines : List RiderLine
  /-- granules of the culvert's window in host bias (R366) -/
  hostBias : List Nat
  flips : List Flip
  bias : Option BiasOp
  /-- a culvert move to a GiB, or a disable, that runs (R417) -/
  culvert : Option (Option Nat)
  /-- the ways that a running conversion of scratch ways started from (R286) -/
  scratchFrom : Nat
  /-- coherent requests that stay in the mesh's request channel before their homes, in order of arrival (R31, R284, R364) -/
  held : List CohMsg
  /-- positions of SCHEDULED windows that requests of the running turn have taken (R297) -/
  taken : List HbmTaken
  /-- scheduled reads of tier 1 whose command has been issued, oldest first (R226) -/
  hbmReads : List HbmRead
  /-- slices whose conversion is done -/
  scratchDone : List SliceId
deriving DecidableEq, Repr

/-! ### Twin checking -/

/-- A host-bound write in the release buffer (R529). -/
structure TwinWrite where
  issue : Word64
  addr : Word64
  target : BitVec 2
  mask : Word64
  line : List Byte
deriving DecidableEq, Repr, Inhabited

/-- Twin checking (R524 to R529): the sum and the count of the running turn's items, whether one was late, the closed
digest and whether it has been compared, the first valid copy received, and the release buffer. -/
structure Twin where
  sum : Word64
  items : Word32
  late : Bool
  own : Option DigestParcel
  copy : Option DigestParcel
  rb : List TwinWrite
  /-- MSI-X messages that wait for the release of their writes -/
  msix : List (FunctionId × Nat)
deriving DecidableEq, Repr

/-! ### Translation unit (R314 to R345) -/

/-- A pending fault (R327): its index, what it covers, and who waits on it, each with its address and access kind. -/
structure PendFault where
  id : Nat
  ctx : Byte
  /-- 64 KiB page of the virtual address -/
  page : Nat
  access : BitVec 4
  waiters : List (Walker × Word64 × BitVec 4)
deriving DecidableEq, Repr

/-- A fault that was refused a posting (R329): its requester and the FCLK of its first refusal. -/
structure RefusedFault where
  who : Walker
  ctx : Byte
  va : Word64
  access : BitVec 4
  since : Word64
deriving DecidableEq, Repr

/-- An access in flight that an UNMAP waits for (R336). -/
inductive OldAccess where
  | load (t : TileId) (c : CoreId) (id : Nat)
  | write (t : TileId) (c : CoreId) (id : Nat)
  | move (t : TileId) (c : ChanId) (id : Nat)
  | engine (e : EngineId) (tag : BitVec 12)
  /-- a STREAM line in a core's merge buffer, or on its way from it -/
  | merge (t : TileId) (c : CoreId) (tgt : Target)
  /-- a write of the headgate unit -/
  | unit (tag : BitVec 12)
  /-- a write toward the host of the headgate unit, an engine or a rider core, by its name -/
  | host (id : Nat)
deriving DecidableEq, Repr

/-- The running command of the translation unit (R343): a table check of CTX_CREATE or of REBASE, an UNMAP or the withdrawal
of a CTX_DESTROY with the accesses it waits for, or an OWN with its next region and the regions left. -/
inductive TrRun where
  | create (c : Byte) (field keyslot function : Nat) (base : Word64) (count : Nat)
  | rebase (c : Byte) (base : Word64) (count : Nat)
  | unmap (c : Byte) (left : List OldAccess)
  | destroy (c : Byte) (left : List OldAccess)
  | own (owner : Byte) (shared : Bool) (region : Nat) (left : Nat)
deriving DecidableEq, Repr

/-- The translation unit beyond its registers. -/
structure Xl where
  run : Option TrRun
  faults : List PendFault
  refused : List RefusedFault
  fqPhase : Bool
  hlPhase : Bool
  /-- context and page of accesses whose count reached the threshold, posted by HOT_LIST_POST (R332) -/
  hot : List (Byte × Nat)
deriving DecidableEq, Repr

/-! ### Engine slots (R466 to R484) -/

/-- A coherent request of an engine that awaits its answer; the answer to one of an engine that has since been lost is
discarded (R481). -/
structure EngineReq where
  tag : BitVec 12
  ctx : Byte
  kind : D2HKind
  addr : Nat
  live : Bool
  /-- the engine sent it translated (R334) -/
  translated : Bool
deriving DecidableEq, Repr

/-- An engine slot beyond its registers: its range cache, untranslated requests that wait for a walk, page requests that wait
for their answer, ATS invalidations that the engine owes with whether a PASID is being unbound, contexts refused after R337,
the valid descriptor, the PING that awaits its ECHO with the turns it has waited, and the next PING sequence. -/
structure ESlot where
  rc : List RCEntry
  walks : List (Byte × EngineD2H)
  reqs : List EngineReq
  owes : List (Byte × Bool)
  atsRefused : List Byte
  descOk : Bool
  ping : Option (Word16 × Word64)
  seq : Word16
  /-- HOLD was sent because of a halt (R595) -/
  halted : Bool
deriving DecidableEq, Repr

/-! ### Headgates and the turnout (R438 to R463) -/

/-- A consumed command of a headgate (R445): its slot and bytes, when it was started, the mark of R456, the bytes of a COPY
moved so far, what it still waits for, its end, and the host ports that carried its data, in order of their last write. -/
structure HgCmd where
  slot : Nat
  bytes : List Byte
  started : Bool
  start : Word64
  hostLost : Bool
  done : Nat
  /-- tiles whose kernels a KERNEL command waits for, with the tiles that failed so far and their end statuses -/
  tiles : List TileId
  failed : List (TileId × Nat)
  /-- STATUS, failing tile and DETAIL once the command's work has ended (R451) -/
  result : Option (Nat × Nat × Nat)
  ports : List HostPortId
  /-- the record has been sent -/
  record : Bool
deriving DecidableEq, Repr

/-- A headgate beyond its registers: where it fetches, the re-fetches of the slot so far (R443), consumed commands in ring
order, and the stops it has been asked for. -/
structure Head where
  fetching : Bool
  refetches : Nat
  /-- the last fetch returned an invalid slot, and a re-fetch is due -/
  torn : Bool
  cmds : List HgCmd
  /-- RESET waits for the commands in flight (R444) -/
  resetting : Bool
  /-- a TORN record that waits for room in the holding ring: its port, its address and its bytes (R458) -/
  tornRec : Option (HostPortId × Nat × List Byte)
  /-- the vector of a TORN record is requested once its write in device memory is performed (R453) -/
  tornIrq : Bool
deriving DecidableEq, Repr

/-- A write of the headgate unit on the coherent plane that awaits its answer: its place among the unit's writes, its tag, its
headgate (1024 for the turnout) and slot, its context and target. -/
structure UnitWrite where
  seq : Nat
  tag : BitVec 12
  head : Nat
  slot : Nat
  ctx : Byte
  tgt : Target
deriving DecidableEq, Repr, Inhabited

/-- What host port 0 acts on only after the turnout writes that it received earlier: a doorbell (R441) and a read (R462). -/
inductive PortOp where
  | doorbell (h : HeadId) (v : Word32)
  | read (off : BitVec 34) (len : Nat) (outside : List Byte)
deriving DecidableEq, Repr, Inhabited

/-- The headgate unit: the headgates that differ from their reset, its range cache, the headgate that started a command last
(R447), the attach mode of each port (R459: 0 none, 1 DELIVER, 2 COLLECT), DELIVER's write under way, the unit's
writes on the coherent plane, and whether the next entry of
the holding ring wakes the host (R428). -/
structure Heads where
  list : List (Nat × Head)
  rc : List RCEntry
  last : Nat
  mode : Vector Nat 2
  delivering : Option Nat
  writes : List UnitWrite
  wakeDue : Bool
  /-- the number of the next write of the unit -/
  seq : Nat
  /-- what host port 0 holds back, each with the first number of a write that came after it (R441, R462) -/
  held : List (Nat × PortOp)
deriving DecidableEq, Repr

/-! ### Port groups -/

/-- IDE of a port group: the keys of its CXL.io and CXL.cachemem streams and whether each is secure (R434). -/
structure Ide where
  ioKey : Option (BitVec 256)
  cxlKey : Option (BitVec 256)
  ioSecure : Bool
  cxlSecure : Bool
deriving DecidableEq, Repr

/-! ### Riders, boot and levee -/

/-- A rider core: whether it is out of reset, where it started, whether a halt holds it (R595), and its last access fault
(R486). -/
structure Rider where
  running : Bool
  entry : Word64
  halted : Bool
  fault : Option (Word64 × BitVec 2)
  /-- uncached writes and atomics that await their answer, by tag (R395) -/
  writes : List (BitVec 12)
  /-- the core waits at a FENCE, whose predecessor set includes i or o or does not (R395) -/
  fence : Option Bool
deriving DecidableEq, Repr

/-- The levee unit and the rider cluster beyond their registers: the boot SRAM's image, key slots loaded, whether the security
block loads keys, whether the entry scrub runs (R488), the riders' range cache, and the lines of host memory that the rider
cluster holds for a core (R422, R486). -/
structure Boot where
  image : List Byte
  keys : List (Nat × KeyName)
  loading : Bool
  scrub : Bool
  rcRider : List RCEntry
  hostLines : List (HostPortId × RiderLine)
deriving DecidableEq, Repr

/-! ### Reset controller -/

/-- Where a block reset stands (R548, R549): not in reset; a source detected and reset to be asserted; asserted and counting
steady clocks; the register bus, watermaster and reset controller released; the units released and slices initializing; all
released but mirrors that reload. -/
inductive RstPhase where
  | none | detected | asserted | released | units | mirrors
deriving DecidableEq, Repr

/-- The reset controller beyond its registers: the phase, whether the scope is cold and tier 1 is kept, whether a clock fell,
whether the twin is among the sources, the level of TWIN_RST_IN, a fuse write in progress, and units whose reset has not
ended. -/
structure Rst where
  phase : RstPhase
  cold : Bool
  keep : Bool
  powerOn : Bool
  twin : Bool
  twinOut : Bool
  refDown : Bool
  rootDown : Bool
  fuse : Option (Nat × Nat)
  units : List ResetUnit
  lifecycle : Nat
  /-- physical tiles that the spare mapping of the last reset leaves out (R556) -/
  spared : Nat
  /-- the raw time from which the watchdog counts (R554) -/
  wdStart : Word64
deriving DecidableEq, Repr

/-! ### Observation (R565 to R611) -/

/-- A tensor dump that runs on a tile (R589 to R593): the matched request; the data lines of the point and of the dump; the next
flit; when GO fell, in counted cycles, and its time; when the last flit was issued; the tag of the tile; how it ends, once that
is known. -/
structure Dump where
  request : Option Nat
  sched : Bool
  src : Nat
  dest : Nat
  lines : Nat
  count : Nat
  next : Nat
  go : Nat
  time : Word64
  last : Word64
  tag : Nat
  step : Nat
  layer : Word16
  operator : Word16
  result : Option Nat
deriving DecidableEq, Repr

/-- What a snapshot captured (R599, R600): the stamp of the bytes whose place the layout leaves open, the ranges that are 0, and
the bytes that the layout places. -/
structure Capture where
  stamp : Nat
  zeros : List (Nat × Nat)
  bytes : List (Nat × Byte)
deriving DecidableEq, Repr

/-- A halt of the block (R594 to R597): its cause, origin and number, when it began, whether it has taken effect, and the
turn in which it resumes. -/
structure Halt where
  cause : Nat
  origin : Nat
  number : Nat
  began : Word64
  /-- the turn in which it began -/
  turn : Word64
  effect : Bool
  resume : Option Word64
deriving DecidableEq, Repr

/-- A frame of the headrace (R603): its number, its bytes so far, and when its last byte arrived. -/
structure Frame where
  number : Word16
  bytes : List Byte
  time : Word64
deriving DecidableEq, Repr

/-- A delivery of a stream that has begun (R605): its number, its buffer's frame if it is not MISSING, the next line, and the
turn of its first slot. -/
structure Delivery where
  number : Nat
  frame : Option Frame
  next : Nat
  turn : Word64
deriving DecidableEq, Repr

/-- A stream of the headrace: the frame being assembled, complete frames oldest first, the delivery under way, how many
deliveries have begun, and the turn of the latest start that has begun. -/
structure Stream where
  part : Option Frame
  /-- packets of a discarded frame still arrive -/
  bad : Bool
  ready : List Frame
  delivery : Option Delivery
  count : Nat
  started : Option Word64
deriving DecidableEq, Repr

/-- The observation unit beyond its registers. -/
structure Obs where
  /-- counters that are not 0, by register offset, as R566 lays them out -/
  counts : List (Nat × Word64)
  /-- latches since ENABLE, samples skipped since the last written record, and the start of the MODE FCLK count -/
  smpSeq : Nat
  smpSkipped : Nat
  smpStart : Word64
  /-- offsets of counters reset last, with the value before, and the raw time of that reset (R576) -/
  boundary : List (Nat × Word64)
  boundaryAt : Word64
  /-- records still to write before the ring freezes (R583) -/
  trigLeft : Option Nat
  /-- records dropped since the last GAP record of a unit: unit, count, first and last time -/
  gaps : List (Nat × Nat × Word64 × Word64)
  /-- trigger events of the watermaster, launches and halts that TRIGGER takes: kind, source and time (R584) -/
  triggers : List (Nat × Nat × Word64)
  dumps : Vector (Option Dump) 48
  halt : Option Halt
  /-- by origin chip, the last halt number acted on (R596) -/
  seen : List (Nat × Nat)
  /-- sequencers that a breakpoint hit holds -/
  bpHeld : List TileId
  /-- sequencers that continue with the instruction of their breakpoint (R597) -/
  bpPass : List TileId
  /-- a snapshot has been asked for, and what it captured (R599) -/
  snap : Bool
  captured : Option Capture
  /-- headrace slot map entries that are not 0 -/
  hrMap : List (Nat × Word16)
  streams : Vector Stream 16
deriving DecidableEq, Repr

/-! ### What leaves the block -/

/-- Signals of a host port's link: CXL viral (R424), an AER Uncorrectable Internal Error message (R520), PM_PME (R428), and
data of a host read with the all-ones refusal (R423) or the value read. -/
inductive PortSignal where
  | viral | aer | pme | unsupported | cmp
  | readData (bytes : List Byte)
  | snoopRsp (bytes : Option (List Byte))
  | refused
deriving DecidableEq, Repr

/-- What a slot sends on its engine's link: viral (R473), the messages of R475, responses to its requests (R356, R335, R479),
translations and invalidations (R334, R336), answers to page requests (R335), a link reset (R481) and CXL.io requests
(R474). -/
inductive EngineSignal where
  | viral | hold | release | linkReset
  | turn (stretch : Nat) (turn : Word64)
  | ping (seq : Word16)
  | go (m : CohMsg)
  | goI
  | unsupported
  | hostData (bytes : List Byte)
  | translation (addr size : Nat) (perm : BitVec 4) (untranslated : Bool)
  | invalidate (ctx : Byte) (lo len : Nat)
  | prgSuccess | prgInvalid | prgFailure
  | mmioRead (bar off : Nat)
  | mmioWrite (bar off : Nat) (v : Word32)
  | response (status : Nat) (bytes : List Byte)
deriving DecidableEq, Repr

/-- Messages and transfers that leave the block, or that a unit hands to a mesh for a command to deliver. -/
inductive Output where
  | coh (m : CohMsg)
  | linkFlit (l : LinkId) (f : LinkFlit)
  /-- a parcel and its 272 bytes (R251) -/
  | parcel (l : LinkId) (slot : Nat) (p : Parcel) (bytes : List Byte)
  | schedFlit (f : SchedFlit)
  | schedHbm (k : StackId) (q : HbmRequest)
  | hostWrite (port : HostPortId) (bytes : List (Nat × Byte))
  | hostRead (port : HostPortId) (addr : Nat) (len : Nat)
  /-- the host port takes ownership of a line of host memory for an atomic (R348) -/
  | hostOwn (port : HostPortId) (addr : Nat)
  | peerWrite (bytes : List (Nat × Byte))
  | peerRead (addr : Nat) (len : Nat)
  | msix (function : FunctionId) (vector : Nat)
  | port (g : Nat) (x : PortSignal)
  | engine (e : EngineId) (x : EngineSignal)
  | activity (energy : Word16)
  | race (bytes : List Byte)
  /-- an access of the register bus completes as Unsupported Request (R13, R412) -/
  | unsupported (by_ : Requester)
deriving DecidableEq, Repr

/-- An event on its way to the watermaster (R509): the source, the contexts it carries, the instance. -/
structure WmEvent where
  source : Nat
  ctxs : List Byte
  map : Option Nat
deriving DecidableEq, Repr, Inhabited

/-! ### The whole block -/

/-- The block. -/
structure State where
  /-- registers that differ from their reset value, by offset -/
  regs : List (Reg × Word64)
  /-- tier 1, tier 2, slabs and scratch, by local address (R42) -/
  mem : Memory
  /-- bytes stored by the command that runs, newest first, and whether the store is counted (R570); empty between commands -/
  journal : List (Nat × (Byte × Bool))
  /-- memory whose contents a reset has left unspecified (R294, R546), newest first: a byte of it is its stored byte combined
  with a free one -/
  pads : List Pad
  /-- local addresses of 8-byte words with an uncorrectable error (R289, R290, R302, R308) -/
  memUE : List Nat
  /-- local addresses of scratch words with a correctable error (R289) -/
  memCE : List Nat
  /-- the keys under which external memory holds lines, the newest first; a line of no entry is plaintext (R305) -/
  keyTags : List KeyTag
  tiles : Vector Tile 48
  /-- events detected and not yet taken by the watermaster, oldest first -/
  wmEvents : List WmEvent
  links : Vector Link 36
  rot : Rot
  home : Home
  /-- committed window patterns, as CODES words that are not 0, by 256 × stack + 4 × pseudo-channel + j (R300) -/
  patterns : List (Nat × Word32)
  /-- an HBM controller writes zeros to its stack and accepts no access yet (R501) -/
  zeroing : List StackId
  twin : Twin
  msixWait : List MsixWait
  pf0 : Func
  companion : Func
  vfs : Vector Func 64
  /-- writes toward host memory that await their GO -/
  hostWrites : List HostWr
  ide : Vector Ide 6
  /-- host CXL.mem requests that wait in their port while the culvert moves (R417) -/
  hostWait : List CohMsg
  xl : Xl
  eslots : Vector ESlot 16
  heads : Heads
  riders : Vector Rider 8
  boot : Boot
  rst : Rst
  obs : Obs
  accCounts : List AccCount
  /-- what left the block, oldest first -/
  out : List Output
  /-- the next name for a write toward the host: the model's own field -/
  ioNext : Nat
  /-- how many free values have been used: the model's own field -/
  fresh : Nat
  /-- commands that wait, first in, first out: the model's own field -/
  pending : List Instr
deriving DecidableEq, Repr

/-! ### Reset -/

/-- A row of zeros. -/
def Row.zero : Row := Vector.replicate 64 0

def Core.reset : Core where
  groups := Vector.replicate 32 none
  active := Vector.replicate 8 none
  clock := 0
  blocks := Vector.replicate 8 none
  nextBlock := 0
  l1d := []
  l1i := []
  merge := []
  orphans := []
  orphanLoads := []
  nextId := 0

def Tensor.reset : Tensor where
  issued := []
  mq := []
  tq := []
  ended := []
  seq := 0
  clearing := false
  acc := []
  residue := []
  accUE := []

def Chan.reset : Chan where
  lc := 0
  next := 0
  desc := none
  ahead := []
  enq := 0
  todo := []
  tagged := false
  flight := []
  nextId := 0
  ending := none
  walk := none
  fault := none
  refused := false

def Tile.reset : Tile where
  s := Vector.replicate 32 0
  pc := 0
  pmem := []
  progBase := 0
  progSize := 0
  starting := false
  wait := none
  delayLeft := 0
  markGap := 0
  lateMark := false
  rx := []
  draining := false
  kernel := none
  endStatus := 0
  prevCtx := none
  cores := Vector.replicate 4 Core.reset
  ta := Tensor.reset
  chans := Vector.replicate 8 Chan.reset
  rcV := []
  rcS := []
  atoms := []
  reqs := []
  fill := none
  held := false
  inReset := false
  layer := 0xFFFF
  operator := 0xFFFF

def PingState.reset : PingState where
  busy := false
  asked := false
  initiator := false
  auto := false
  due := none
  a1 := 0
  a1Raw := 0
  b1 := 0
  a2 := 0
  b2 := 0
  a3 := 0
  b3 := 0
  valid := false
  inLat := 0
  farIn := 0
  rtt := 0
  farRtt := 0
  farChip := 0
  farSide := false
  farEpoch := false
  waited := 0

def Link.reset : Link where
  sigCredit := Vector.replicate 48 false
  sigOut := []
  sigHeld := []
  slotMap := []
  sched := []
  entry := 0
  entryTurns := 0
  sendQ := []
  relayQ := []
  arrivals := []
  mapUE := []
  halted := false
  carried := []
  cOut := []
  seq := 1
  lastRx := 0
  nak := false
  retry := []
  replaying := 0
  replays := 0
  credReq := 0
  credSnp := 0
  credRsp := 0
  oweReq := 0
  oweSnp := 0
  oweRsp := 0
  oweSig := []
  errored := 0
  ping := PingState.reset

def Rot.reset : Rot where
  start := 0
  stop := none
  epoch := 0
  m := Vector.replicate 9 0

def Func.reset : Func where
  memSpace := false
  busMaster := false
  cacheEnable := false
  msixEnable := false
  msixMask := false
  d3 := false
  pmeEn := false
  pmeStatus := false
  numVfs := 0
  vfEnable := false
  cplTimeout := 0
  viralStatus := false
  cacheInvalid := false
  bars := Vector.replicate 3 0
  hdmBase := 0
  unmasked := []
  pend := []
  table := []
  flr := false

def Home.reset : Home where
  resv := []
  dir := []
  txns := []
  retry := []
  owners := []
  ownerWait := []
  refills := []
  tierOps := []
  dirUE := []
  riderLines := []
  hostBias := []
  flips := []
  bias := none
  culvert := none
  scratchFrom := 0
  held := []
  taken := []
  hbmReads := []
  scratchDone := []

def Twin.reset : Twin where
  sum := 0
  items := 0
  late := false
  own := none
  copy := none
  rb := []
  msix := []

def Xl.reset : Xl where
  run := none
  faults := []
  refused := []
  fqPhase := true
  hlPhase := true
  hot := []

def ESlot.reset : ESlot where
  rc := []
  walks := []
  reqs := []
  owes := []
  atsRefused := []
  descOk := false
  ping := none
  seq := 0
  halted := false

def Head.reset : Head where
  fetching := false
  refetches := 0
  torn := false
  cmds := []
  resetting := false
  tornRec := none
  tornIrq := false

def Heads.reset : Heads where
  list := []
  rc := []
  last := 1023
  mode := Vector.replicate 2 0
  delivering := none
  writes := []
  wakeDue := false
  seq := 0
  held := []

def Ide.reset : Ide where
  ioKey := none
  cxlKey := none
  ioSecure := false
  cxlSecure := false

def Rider.reset : Rider where
  running := false
  entry := 0
  halted := false
  fault := none
  writes := []
  fence := none

/-- Where rider core 0 starts: the first boot ROM instruction (R488). -/
def bootRom : Word64 := 0xF1000000000000#64

def Boot.reset : Boot where
  image := []
  keys := []
  loading := false
  scrub := false
  rcRider := []
  hostLines := []

def Rst.reset : Rst where
  phase := .none
  cold := true
  keep := false
  powerOn := true
  twin := false
  twinOut := false
  refDown := false
  rootDown := false
  fuse := none
  units := []
  lifecycle := 0
  spared := 0
  wdStart := 0

def Stream.reset : Stream where
  part := none
  bad := false
  ready := []
  delivery := none
  count := 0
  started := none

def Obs.reset : Obs where
  counts := []
  smpSeq := 0
  smpSkipped := 0
  smpStart := 0
  boundary := []
  boundaryAt := 0
  trigLeft := none
  gaps := []
  triggers := []
  dumps := Vector.replicate 48 none
  halt := none
  seen := []
  bpHeld := []
  bpPass := []
  snap := false
  captured := none
  hrMap := []
  streams := Vector.replicate 16 Stream.reset

/-- The block right after reset (R12): registers at their tables' values, memory with nothing listed. -/
def State.reset : State where
  regs := []
  mem := []
  journal := []
  pads := []
  memUE := []
  memCE := []
  keyTags := []
  tiles := Vector.replicate 48 Tile.reset
  wmEvents := []
  links := Vector.replicate 36 Link.reset
  rot := Rot.reset
  home := Home.reset
  patterns := []
  zeroing := []
  twin := Twin.reset
  msixWait := []
  pf0 := Func.reset
  companion := Func.reset
  vfs := Vector.replicate 64 Func.reset
  hostWrites := []
  ide := Vector.replicate 6 Ide.reset
  hostWait := []
  xl := Xl.reset
  eslots := Vector.replicate 16 ESlot.reset
  heads := Heads.reset
  riders := (Vector.replicate 8 Rider.reset).set 0 { Rider.reset with running := true, entry := bootRom }
  boot := Boot.reset
  rst := Rst.reset
  obs := Obs.reset
  accCounts := []
  out := []
  ioNext := 0
  fresh := 0
  pending := []

end Sys2Proof.Machine
end

