-- ==== Sys2Proof/Machine/Ops.lean ====
section
/-! DEFINITION. The named operations every meaning is built from: registers and their fields, memory by bytes, tiles
and their parts, events for the watermaster, free values, and the commitment of a command's stores. -/

namespace Sys2Proof.Machine

/-! ### Bits and bytes -/

/-- Bits hi to lo of a word, as a number. -/
def bitsOf {w : Nat} (x : BitVec w) (hi lo : Nat) : Nat := x.toNat / 2 ^ lo % 2 ^ (hi + 1 - lo)

/-- One bit of a word. -/
def bitOf {w : Nat} (x : BitVec w) (i : Nat) : Bool := x.toNat / 2 ^ i % 2 == 1

/-- The sign extension of the low n bits of a number to 64 bits. -/
def sext64 (n x : Nat) : Word64 :=
  let v := x % 2 ^ n
  if v < 2 ^ (n - 1) then BitVec.ofNat 64 v else BitVec.ofInt 64 ((v : Int) - 2 ^ n)

/-- The number that little-endian bytes spell (R9). -/
def leNat : List Byte → Nat
  | [] => 0
  | b :: r => b.toNat + 256 * leNat r

/-- The n little-endian bytes of a number (R9). -/
def leBytes : Nat → Nat → List Byte
  | 0, _ => []
  | n + 1, x => BitVec.ofNat 8 x :: leBytes n (x / 256)

/-- Bits hi down to lo of a number. -/
def natBits (x hi lo : Nat) : Nat := x / 2 ^ lo % 2 ^ (hi + 1 - lo)

/-- The mask of the threads that satisfy a condition. -/
def maskOf (p : Nat → Bool) : Word64 :=
  BitVec.ofNat 64 ((List.range 64).foldl (fun a i => if p i then a + 2 ^ i else a) 0)

/-- The threads of a mask, ascending. -/
def threadsOf (m : Word64) : List Nat := (List.range 64).filter (fun i => m.getLsbD i)

/-! ### Registers -/

/-- The place of a register in the list of registers. -/
def Reg.rank (r : Reg) : Nat := r.offset

/-- The stored word of a register. -/
def State.rd (s : State) (r : Reg) : Word64 := (Assoc.get? s.regs r).getD r.resetVal

/-- A register set to a word. -/
def State.wr (s : State) (r : Reg) (v : Word64) : State :=
  { s with regs := Assoc.put Reg.rank r.resetVal s.regs r v }

/-- A field of a register. -/
def State.fld (s : State) (r : Reg) (f : Fld) : Nat := f.get (s.rd r)

/-- A field of a register set to a value. -/
def State.setFld (s : State) (r : Reg) (f : Fld) (v : Nat) : State := s.wr r (f.set (s.rd r) v)

/-- Status bits of a register set: what a hardware set does (R10, R17). -/
def State.orReg (s : State) (r : Reg) (v : Word64) : State := s.wr r (s.rd r ||| v)

/-- A counter field that saturates at all ones, one higher. -/
def State.countUp (s : State) (r : Reg) (f : Fld) : State :=
  let top := 2 ^ (f.hi + 1 - f.lo) - 1
  s.setFld r f (min top (s.fld r f + 1))

/-! ### The local map (R42 to R44) -/

/-- What a local address names (R42). -/
inductive Place where
  | tier1
  | tier2 (g : Fin 4)
  | slab (t : TileId) (off : Nat)
  | scratch (off : Nat)
  | reserved
deriving DecidableEq, Repr

/-- The local part of a device physical address (R42). -/
def localOf (a : Nat) : Nat := a % 2 ^ 43

/-- The chip ID of a device physical address (R42). -/
def chipOf (a : Nat) : Nat := a / 2 ^ 43 % 2 ^ 9

/-- Base of the slab windows (R42). -/
def slabBase : Nat := 0x40000000000

/-- Size of the backed part of a slab (R42). -/
def slabSize : Nat := 0x600000

/-- Base of the scratch window (R42). -/
def scratchBase : Nat := 0x40200000000

/-- The local address of an offset in a tile's slab window (R42). -/
def slabAddr (t : TileId) (off : Nat) : Nat := slabBase + t.val * 0x800000 + off

/-- The place of a local address (R42). -/
def placeOf (a : Nat) : Place :=
  if a < 0x9000000000 then .tier1
  else if 0x10000000000 ≤ a && a < 0x30000000000 then
    .tier2 ⟨(a - 0x10000000000) / 0x8000000000 % 4, Nat.mod_lt _ (by decide)⟩
  else if slabBase ≤ a && a < 0x40018000000 then
    .slab ⟨(a - slabBase) / 0x800000 % 48, Nat.mod_lt _ (by decide)⟩ ((a - slabBase) % 0x800000)
  else if scratchBase ≤ a && a < 0x4020A000000 then .scratch (a - scratchBase)
  else .reserved

/-- Index of the owner-table entry of a local address; slabs have none (R339). -/
def ownerIndex (a : Nat) : Option Nat :=
  match placeOf a with
  | .tier1 => some (a / 0x200000)
  | .tier2 _ => some (294912 + (a - 0x10000000000) / 0x200000)
  | .scratch off => some (1343488 + off / 0x200000)
  | _ => none

/-! ### Keys of tier 1 and tier 2 (R305, R306, R499) -/

/-- Local address of the owner table's first byte (R339). -/
def State.otBase (s : State) : Nat := s.fld .OT_BASE F.OT_BASE_REGION * 2 ^ 21

/-- Whether a local address lies in one of the three regions that hold the owner table (R339). -/
def State.inOwnerTable (s : State) (a : Nat) : Bool :=
  s.otBase ≤ a && a < s.otBase + 3 * 0x200000

/-- The bits of a key: those of the data in the lower half, of the tweak in the upper. -/
def KeyName.bits : KeyName → BitVec 512
  | .persist label slot cls => Config.persistKey label slot cls
  | .random n => Config.randomKey n

/-- The key that a key slot holds, none for a slot that is not loaded and for 0xFF (R494, R499). -/
def State.slotKey (s : State) (j : Nat) : Option KeyName := (s.boot.keys.find? (fun x => x.1 == j)).map (fun x => x.2)

/-- The key of the regions of a context: LV_CTRL.KEY0 names the slot of context 0, KEYSLOT another's (R316, R499). -/
def State.ctxKey (s : State) (c : Nat) : Option KeyName :=
  s.slotKey (if c == 0 then s.fld .LV_CTRL F.LV_CTRL_KEY0 else s.fld (.CTX_ENTRY1 c) F.CTX_ENTRY1_KEYSLOT)

/-! ### Memory -/

/-- The reservoir line that holds a local address, when one does (R278). -/
def State.resLine (s : State) (a : Nat) : Option RLine := s.home.resv.find? (fun l => l.addr == a / 64 * 64)

/-- The free byte under a stored one, 0 outside the pads (R294, R546). -/
def State.pad (s : State) (a : Nat) : Byte :=
  match s.pads.find? (fun p => p.lo ≤ a && a < p.hi && p.stack.all (fun k => a / 256 % 8 == k)) with
  | some ⟨_, _, _, some n⟩ => BitVec.ofNat 8 (Config.freeBits n a)
  | _ => 0

/-- The addresses of a span, of one HBM stack when one is named, become unspecified, or known again where no stamp is given. -/
def State.padSet (s : State) (lo hi : Nat) (stack stamp : Option Nat) : State :=
  let kept := s.pads.filter (fun p => !(lo ≤ p.lo && p.hi ≤ hi && (stack.isNone || stack == p.stack)))
  { s with pads := if kept.isEmpty && stamp.isNone then [] else ⟨lo, hi, stack, stamp⟩ :: kept }

/-- A byte below the reservoir as it was written, whatever the key: the running command's own stores first. -/
def State.storedByte (s : State) (a : Nat) : Byte :=
  (match Assoc.get? s.journal a with
   | some b => b.1
   | none => s.mem.get a) ^^^ s.pad a

/-- The key under which external memory holds a line, none for plaintext (R305). -/
def State.lineTag (s : State) (line : Nat) : Option KeyName :=
  ((s.keyTags.find? (fun t => t.lo ≤ line && line < t.hi && (t.stack.all (fun k => line / 4 % 8 == k)))).map
    (fun t => t.key)).getD none

/-- The bytes of line L as a port reads them under a key: what external memory holds is the line under the key it was written
with (R305, R306). -/
def State.lineUnder (s : State) (key : Option KeyName) (line : Nat) : List Byte :=
  let held := (List.range 64).map (fun i => s.storedByte (64 * line + i))
  let tag := s.lineTag line
  if tag = key then held
  else
    let outside := match tag with
      | some k => xtsEncrypt k.bits line held
      | none => held
    match key with
    | some k => xtsDecrypt k.bits line outside
    | none => outside

/-- The owner of a region, as its entry of the owner table reads under the key of context 0, in whose regions the table lies
(R339). -/
def State.entryOwner (s : State) (e : Nat) : Nat :=
  let a := s.otBase + 4 * e
  (match s.resLine a with
   | some l => l.bytes.getD (a % 64) 0
   | none => (s.lineUnder (s.ctxKey 0) (a / 64)).getD (a % 64) 0).toNat

/-- The key of a line: that of the owner of its region (R305). Slabs and scratch hold plaintext (R306). -/
def State.lineKey (s : State) (line : Nat) : Option KeyName :=
  if s.boot.keys.isEmpty then none
  else
    let of_ (_ : Unit) : Option KeyName :=
      if s.inOwnerTable (64 * line) then s.ctxKey 0 else s.ctxKey (s.entryOwner ((ownerIndex (64 * line)).getD 0))
    match placeOf (64 * line) with
    | .tier1 => of_ ()
    | .tier2 _ => of_ ()
    | _ => none

/-- A byte below the reservoir as a home slice, a controller or a tier-2 port reads it (R306). -/
def State.tierByte (s : State) (a : Nat) : Byte :=
  if s.boot.keys.isEmpty && s.keyTags.isEmpty then s.storedByte a
  else (s.lineUnder (s.lineKey (a / 64)) (a / 64)).getD (a % 64) 0

/-- A byte of memory as the running command sees it: the reservoir line when one is present, otherwise the tier
(R352). -/
def State.rdByte (s : State) (a : Nat) : Byte :=
  match s.resLine a with
  | some l => l.bytes.getD (a % 64) 0
  | none => s.tierByte a

/-- n bytes of memory from an address. -/
def State.rdBytes (s : State) (a n : Nat) : List Byte := (List.range n).map (fun i => s.rdByte (a + i))

/-- The little-endian number in n bytes of memory. -/
def State.rdNat (s : State) (a n : Nat) : Nat := leNat (s.rdBytes a n)

/-- Bytes that enter the journal, counted as stores or not. -/
def State.journalPut (s : State) (cs : List (Nat × Byte)) (counted : Bool) : State :=
  { s with journal := (cs.map (fun c => (c.1, (c.2 ^^^ s.pad c.1, counted)))).reverse ++ s.journal }

/-- Lines that external memory holds under another key than their region's are written again under it, whole: the write of a
part of one reads it, merges and writes it under the key it now has (R298, R305). -/
def State.rekeyLines (s : State) (ls : List Nat) : State :=
  if s.boot.keys.isEmpty && s.keyTags.isEmpty then s
  else
    (ls.filter (fun l => s.lineTag l != s.lineKey l)).foldl (fun (s : State) l =>
      let bytes := s.lineUnder (s.lineKey l) l
      { s.journalPut (bytes.mapIdx (fun i b => (64 * l + i, b))) false with
        keyTags := ⟨l, l + 1, none, s.lineKey l⟩ :: s.keyTags.filter (fun t => !(t.lo == l && t.hi == l + 1)) }) s

/-- Bytes stored below the reservoir. A word that is written whole has new check bits (R302). -/
def State.tierWrite (s : State) (cs : List (Nat × Byte)) : State :=
  let s := (s.rekeyLines ((cs.map (fun c => c.1 / 64)).dedup)).journalPut cs true
  if s.memUE.isEmpty && s.memCE.isEmpty then s
  else
    let whole (w : Nat) : Bool := (List.range 8).all (fun i => cs.any (fun c => c.1 == w + i))
    { s with memUE := s.memUE.filter (fun w => !whole w), memCE := s.memCE.filter (fun w => !whole w) }

/-- A line of bytes with some of them replaced, by address. -/
def mergeLine (addr : Nat) (bytes : List Byte) (cs : List (Nat × Byte)) : List Byte :=
  bytes.mapIdx (fun i b =>
    match cs.reverse.find? (fun c => c.1 == addr + i) with
    | some c => c.2
    | none => b)

/-- Bytes stored at given addresses: a reservoir line that is present takes them and is dirty (R278). -/
def State.wrCells (s : State) (cs : List (Nat × Byte)) : State :=
  if s.home.resv.isEmpty then s.tierWrite cs
  else
    let hit (c : Nat × Byte) : Bool := (s.resLine c.1).isSome
    { s.tierWrite (cs.filter (fun c => !hit c)) with
      home := { s.home with resv := s.home.resv.map (fun l =>
        if cs.any (fun c => c.1 / 64 * 64 == l.addr) then { l with bytes := mergeLine l.addr l.bytes cs, dirty := true }
        else l) } }

/-- One byte stored. -/
def State.wrByte (s : State) (a : Nat) (b : Byte) : State := s.wrCells [(a, b)]

/-- Bytes stored from an address on, without a check of the words they fall in. -/
def State.wrBytes (s : State) (a : Nat) (bs : List Byte) : State :=
  s.wrCells (bs.mapIdx (fun i b => (a + i, b)))

/-- Every byte at an address that satisfies a condition becomes 0, below the reservoir. Only listed bytes differ from 0. -/
def State.zeroWhere (s : State) (p : Nat → Bool) : State :=
  { s with
    journal := (((s.mem.map (fun c => c.1) ++ s.journal.map (fun c => c.1)).filter p).map (fun a => (a, (0, false)))) ++ s.journal
    memUE := s.memUE.filter (fun w => !p w) }

/-- Every byte of a span, of one HBM stack when one is named, becomes 0, below the reservoir. -/
def State.zeroSpan (s : State) (lo hi : Nat) (stack : Option Nat) : State :=
  (s.zeroWhere (fun a => lo ≤ a && a < hi && stack.all (fun k => a / 256 % 8 == k))).padSet lo hi stack none

/-- What a zero fill leaves of keys: the lines from lo to below hi, of one stack when one is named, are held under a key. -/
def State.fillTag (s : State) (lo hi : Nat) (stack : Option Nat) (key : Option KeyName) : State :=
  if key.isNone && s.keyTags.isEmpty then s
  else { s with keyTags := ⟨lo, hi, stack, key⟩ :: s.keyTags.filter (fun t => !(lo ≤ t.lo && t.hi ≤ hi && stack.isNone)) }

/-- The lowest word with an uncorrectable error that a byte range touches. -/
def State.ueIn (s : State) (a n : Nat) : Option Nat :=
  (s.memUE.filter (fun w => w < a + n && a < w + 8)).min?

/-- The words with an uncorrectable error, without those that a store of n bytes at a replaces whole (R616). -/
def State.clearUE (s : State) (a n : Nat) : State :=
  { s with memUE := s.memUE.filter (fun w => !(a ≤ w && w + 8 ≤ a + n)) }

/-! ### Levee nibbles and capabilities -/

/-- A nibble of a levee register file: field of VF, tile or link i (R492, R506). -/
def State.leveeNibble (s : State) (r : Nat → Reg) (i : Nat) : Nat := (s.rd (r (i / 8))).toNat / 2 ^ (4 * (i % 8)) % 16

/-- The life-cycle state (R500). -/
def State.lifecycle (s : State) : Nat := s.fld .LC_STATE F.LC_STATE_STATE

/-- The capabilities of a debugger: HALT 0, DUMP 1, TRACE 2, INSPECT 3 (R502). -/
def Cap.HALT : Nat := 0
def Cap.DUMP : Nat := 1
def Cap.TRACE : Nat := 2
def Cap.INSPECT : Nat := 3

/-- Whether a capability is enabled on a field (R503). -/
def State.capOn (s : State) (cap field : Nat) : Bool :=
  let granted := s.fld .DBG_GRANT F.DBG_GRANT_VALID == 1 && (s.rd .DBG_GRANT).getLsbD (24 + cap) &&
    (s.rd .DBG_GRANT).getLsbD field
  match s.lifecycle with
  | 0 => true
  | 3 => granted
  | _ => granted && s.leveeNibble .LV_DEBUG field / 2 ^ cap % 2 == 1

/-! ### Counters (R565 to R572) -/

/-- The stored word of the counter at a register offset (R566). -/
def State.counter (s : State) (off : Nat) : Word64 := (Assoc.get? s.obs.counts off).getD 0

/-- A counter n higher; past its top it stays there with OVF set (R565). -/
def State.countAt (s : State) (off n : Nat) : State :=
  if n = 0 then s
  else
    let v := s.counter off
    let x := v.toNat % 2 ^ 48 + n
    let w := if v.getLsbD 63 || 2 ^ 48 ≤ x then 2 ^ 63 + (2 ^ 48 - 1) else x
    { s with obs := { s.obs with counts := Assoc.put id 0 s.obs.counts off (BitVec.ofNat 64 w) } }

/-- Always-on counter k of a tile (R567). -/
def State.tileCount (s : State) (t : TileId) (k n : Nat) : State := s.countAt (0x1D1000 + 0x80 * t.val + 8 * k) n

/-- Always-on counter k of link i: canal links, then port groups, then engine slots (R568). -/
def State.linkCount (s : State) (i k n : Nat) : State := s.countAt (0x1D2800 + 0x20 * i + 8 * k) n

/-- The field of full counter n (R571). -/
def State.fullField (s : State) (n : Nat) : Nat :=
  if n < 96 then s.leveeNibble .LV_TILE (n / 2)
  else if n < 188 then 15
  else if n < 284 then s.leveeNibble .LV_TILE ((n - 188) / 2)
  else if n < 380 then s.leveeNibble .LV_TILE ((n - 284) / 2)
  else if n < 452 then s.leveeNibble .LV_LINK ((n - 380) / 2)
  else s.fld (.ES_FIELD ((n - 452) / 2)) F.ES_FIELD_FIELD

/-- The tag of a tile matches the filter (R572). -/
def State.tagMatches (s : State) (layer operator : Word16) : Bool :=
  let f := s.rd .OBS_TAGFILT
  let lm := BitVec.ofNat 16 (f.toNat / 2 ^ 16)
  let om := BitVec.ofNat 16 (f.toNat / 2 ^ 48)
  (layer &&& lm) == (BitVec.ofNat 16 f.toNat &&& lm) && (operator &&& om) == (BitVec.ofNat 16 (f.toNat / 2 ^ 32) &&& om)

/-- The tile to which full counter n is attributed (R570). -/
def fullTile (n : Nat) : Option Nat :=
  if n < 96 then some (n / 2)
  else if 188 ≤ n && n < 284 then some ((n - 188) / 2)
  else if 284 ≤ n && n < 380 then some ((n - 284) / 2)
  else none

/-- Full counter n is higher by some bytes: only while TRACE is enabled on its field, and for a tile's events when their tag
matches the filter (R570 to R572). -/
def State.fullCount (s : State) (n bytes : Nat) : State :=
  let tagOk := match fullTile n with
    | some t =>
      match s.tiles.toList[t]? with
      | some x => s.tagMatches x.layer x.operator
      | none => true
    | none => true
  if tagOk && s.capOn Cap.TRACE (s.fullField n) then s.countAt (0x1D4000 + 8 * n) bytes else s

/-- Full counters that satisfy a condition are reset; what they held is remembered for a sample of the same FCLK (R573,
R576). -/
def State.clearCounts (s : State) (p : Nat → Bool) : State :=
  let hit (x : Nat × Word64) : Bool := 0x1D4000 ≤ x.1 && p ((x.1 - 0x1D4000) / 8)
  { s with obs := { s.obs with
      boundary := s.obs.counts.filter hit
      boundaryAt := s.rd .TB_RAW
      counts := s.obs.counts.filter (fun x => !hit x) } }

/-- Bytes stored below the reservoir by a command are counted where they lie: slabs, HBM stacks and tier-2 groups (R570). -/
def State.countStores (s : State) : State :=
  let at_ (p : Nat → Option Nat) : List Nat := (s.journal.filterMap (fun c => if c.2.2 then p c.1 else none))
  let ns := at_ (fun a =>
    if a < 0x9000000000 then some (161 + 2 * (a / 256 % 8))
    else if 0x10000000000 ≤ a && a < 0x30000000000 then some (177 + 2 * ((a - 0x10000000000) / 0x8000000000 % 4))
    else if 0x40000000000 ≤ a && a < 0x40018000000 then some (1 + 2 * ((a - 0x40000000000) / 0x800000))
    else none)
  ns.dedup.foldl (fun s n => s.fullCount n (ns.filter (fun m => m == n)).length) s

/-- Block reset is asserted in every unit, or the units have no clock (R548). -/
def State.dark (s : State) : Bool := s.rst.phase == .asserted || s.rst.rootDown

/-- No unit runs, or only the register bus, the watermaster and the reset controller have been released (R548, R549). -/
def State.inReset (s : State) : Bool := s.dark || s.rst.phase == .released

/-- What a command has done is committed: its stores enter memory, in order, and the queue stays as it was. -/
def State.commitAlways (s : State) (f : State → State) : Host.Outcome State Fault Refusal :=
  let t := (f { s with journal := [] }).countStores
  .next { t with
    mem := s.mem.setAll (t.journal.reverse.map (fun c => (c.1, c.2.1)))
    journal := []
    pending := s.pending }

/-- A command of a unit that a block reset holds does nothing (R548). Every meaning answers through this or, where the unit is
the reset controller, the watermaster or the register bus, through commitAlways or commitBus. -/
def State.commit (s : State) (f : State → State) : Host.Outcome State Fault Refusal :=
  if s.inReset then .next s else s.commitAlways f

/-- A command of the watermaster or the register bus, which a block reset releases first (R549). -/
def State.commitBus (s : State) (f : State → State) : Host.Outcome State Fault Refusal :=
  if s.dark then .next s else s.commitAlways f

/-! ### Free values, what leaves, and events -/

/-- A number for the next free value. -/
def State.takeFresh (s : State) : Nat × State := (s.fresh, { s with fresh := s.fresh + 1 })

/-- The data bytes of what leaves are counted where they leave (R566, R568, R570). -/
def State.account (s : State) (o : Output) : State :=
  match o with
  | .coh m => if m.hasData && m.srcAgent.toNat < 48 then s.fullCount (284 + 2 * m.srcAgent.toNat) 64 else s
  | .schedFlit f =>
    match f.stop with
    | .tile t => s.fullCount (188 + 2 * t.val) f.data.length
    | _ => s
  | .hostWrite p bytes => (s.linkCount (36 + p.val) 0 bytes.length).fullCount (184 + 2 * p.val) bytes.length
  | .peerWrite bytes => (s.linkCount 36 0 bytes.length).fullCount 184 bytes.length
  | .port g (.readData bytes) => (s.linkCount (36 + g) 0 bytes.length).fullCount (184 + 2 * g) bytes.length
  | .engine e (.go m) => if m.hasData then (s.linkCount (42 + e.val) 0 64).fullCount (452 + 2 * e.val) 64 else s
  | .engine e (.hostData bytes) => (s.linkCount (42 + e.val) 0 bytes.length).fullCount (452 + 2 * e.val) bytes.length
  | .engine e (.response _ bytes) => (s.linkCount (42 + e.val) 0 bytes.length).fullCount (452 + 2 * e.val) bytes.length
  | .parcel l _ (.data p) _ => (s.linkCount l.val 0 p.data.length).fullCount (380 + 2 * l.val) 256
  | .parcel l _ (.signal _) _ => (s.linkCount l.val 0 8).fullCount (380 + 2 * l.val) 256
  | .parcel l _ (.container c) _ =>
    let n := c.flits.foldl (fun a m => if m.hasData then a + 128 else a + 64) 0
    (s.linkCount l.val 0 n).fullCount (381 + 2 * l.val) n
  | _ => s

/-- Something leaves the block. -/
def State.emit (s : State) (o : Output) : State := { s.account o with out := s.out ++ [o] }

def State.emits (s : State) (os : List Output) : State := os.foldl State.emit s

/-- A unit detects an event of a watermaster source: it is on its way to the watermaster (R509), which takes it with
SOURCE_EVENT. ctxs are the contexts that the event carries, map the instance. -/
def State.wmEvent (s : State) (source : Nat) (ctxs : List Byte) (map : Option Nat) : State :=
  { s with wmEvents := s.wmEvents ++ [⟨source, ctxs, map⟩] }

/-! ### Pending faults and triggers -/

/-- The pending faults and the remembered refusals of the translation unit, with FQ_STATUS.PENDING (R327, R329, R344). -/
def State.setFaults (s : State) (fs : List PendFault) (rs : List RefusedFault) : State :=
  { s with xl := { s.xl with faults := fs, refused := rs } }.setFld .FQ_STATUS F.FQ_STATUS_PENDING (min 4095 fs.length)

/-- Requesters are abandoned: they leave their pending faults, which end when nobody waits (R331). -/
def State.leaveFaults (s : State) (p : Walker → Bool) : State :=
  if s.xl.faults.isEmpty && s.xl.refused.isEmpty then s
  else
    s.setFaults ((s.xl.faults.map (fun f => { f with waiters := f.waiters.filter (fun w => !p w.1) })).filter
      (fun f => !f.waiters.isEmpty)) (s.xl.refused.filter (fun r => !p r.who))

/-- The timestamp TB_TIME (R231): from the epoch on, the corrected time less the epoch that occurred. -/
def State.timestamp (s : State) : Word64 :=
  if s.fld .ROT_STATUS F.ROT_STATUS_EPOCH_VALID = 1 then s.rd .TB_RAW + s.rd .TB_OFFSET - s.rot.epoch
  else s.rd .TB_RAW

/-- An event that the armed trigger may take (R584). -/
def State.trigEvent (s : State) (kind source : Nat) : State :=
  if s.fld .TR_TRIG F.TR_TRIG_ARM == 1 && s.fld .TR_TRIG F.TR_TRIG_KIND == kind &&
      (kind != 1 || s.fld .TR_TRIG F.TR_TRIG_SRC == source) then
    { s with obs := { s.obs with triggers := s.obs.triggers ++ [(kind, source, s.timestamp)] } }
  else s

/-! ### Tiles -/

def State.tile (s : State) (t : TileId) : Tile := s.tiles[t.val]'(t.isLt)

def State.setTile (s : State) (t : TileId) (x : Tile) : State := { s with tiles := s.tiles.set t.val x t.isLt }

def State.updTile (s : State) (t : TileId) (f : Tile → Tile) : State := s.setTile t (f (s.tile t))

def Tile.core (x : Tile) (c : CoreId) : Core := x.cores[c.val]'(c.isLt)

def Tile.updCore (x : Tile) (c : CoreId) (f : Core → Core) : Tile :=
  { x with cores := x.cores.set c.val (f (x.core c)) c.isLt }

def Core.group (c : Core) (i : SlotId) : Option Group := c.groups[i.val]'(i.isLt)

def Core.setGroup (c : Core) (i : SlotId) (g : Option Group) : Core := { c with groups := c.groups.set i.val g i.isLt }

def State.core (s : State) (t : TileId) (c : CoreId) : Core := (s.tile t).core c

def State.updCore (s : State) (t : TileId) (c : CoreId) (f : Core → Core) : State :=
  s.updTile t (fun x => x.updCore c f)

def State.group (s : State) (g : GroupId) : Option Group := (s.core g.tile g.core).group g.slot

def State.setGroup (s : State) (g : GroupId) (x : Option Group) : State :=
  s.updCore g.tile g.core (fun c => c.setGroup g.slot x)

def State.updGroup (s : State) (g : GroupId) (f : Group → Group) : State :=
  match s.group g with
  | some x => s.setGroup g (some (f x))
  | none => s

def Tile.chan (x : Tile) (c : ChanId) : Chan := x.chans[c.val]'(c.isLt)

def Tile.setChan (x : Tile) (c : ChanId) (ch : Chan) : Tile := { x with chans := x.chans.set c.val ch c.isLt }

def State.chan (s : State) (t : TileId) (c : ChanId) : Chan := (s.tile t).chan c

def State.updChan (s : State) (t : TileId) (c : ChanId) (f : Chan → Chan) : State :=
  s.updTile t (fun x => x.setChan c (f (x.chan c)))

/-! ### Links and engine slots -/

def State.updEslot (s : State) (e : EngineId) (f : ESlot → ESlot) : State :=
  { s with eslots := s.eslots.set e.val (f (s.eslots[e.val]'(e.isLt))) e.isLt }

def State.eslot (s : State) (e : EngineId) : ESlot := s.eslots[e.val]'(e.isLt)

/-- State of an engine slot (R467). -/
def State.esState (s : State) (e : EngineId) : Nat := s.fld (.ES_STATUS e.val) F.ES_STATUS_STATE

/-- A context is bound in an engine slot (R472). -/
def State.bound (s : State) (e : EngineId) (c : Byte) : Bool :=
  (s.rd (.ES_PASID e.val (c.toNat / 32))).getLsbD (c.toNat % 32)

/-- A binding set or cleared. -/
def State.setBound (s : State) (e : EngineId) (c : Byte) (v : Bool) : State :=
  let r := Reg.ES_PASID e.val (c.toNat / 32)
  let bit : Word64 := BitVec.ofNat 64 (2 ^ (c.toNat % 32))
  s.wr r (if v then s.rd r ||| bit else s.rd r &&& ~~~ bit)

/-! ### Rider cores -/

def State.rider (s : State) (k : RiderId) : Rider := s.riders[k.val]'(k.isLt)

def State.updRider (s : State) (k : RiderId) (f : Rider → Rider) : State :=
  { s with riders := s.riders.set k.val (f (s.rider k)) k.isLt }

/-- Function n: PF0, or VF n (R405). -/
def funcId (n : Nat) : FunctionId := if n == 0 then .pf0 else .vf ⟨n % 64, Nat.mod_lt _ (by decide)⟩

def State.link (s : State) (l : LinkId) : Link := s.links[l.val]'(l.isLt)

def State.updLink (s : State) (l : LinkId) (f : Link → Link) : State :=
  { s with links := s.links.set l.val (f (s.link l)) l.isLt }

/-- The safe state has begun (R520). -/
def State.safe (s : State) : Bool := s.fld .WM_STATE F.WM_STATE_SAFE == 1

/-- Twin checking is active (R524). -/
def State.twinActive (s : State) : Bool :=
  s.fld .TB_CHIP F.TB_CHIP_TWIN == 1 && s.fld .ROT_STATUS F.ROT_STATUS_EPOCH_VALID == 1

def State.updHome (s : State) (f : Home → Home) : State := { s with home := f s.home }

/-- The link is UP (CN_STATUS.LSTATE, R274). -/
def State.linkUp (s : State) (l : LinkId) : Bool := s.fld (.CN_STATUS l.val) F.CN_STATUS_LSTATE == 2

/-! ### Time -/

def State.turnNo (s : State) : Word64 := s.rd .TB_TURN

def State.cycle (s : State) : Nat := s.fld .TB_CYCLE F.TB_CYCLE_CYCLE

/-- The cycle count and the raw count advance to a later cycle of the turn. -/
def State.advanceTo (s : State) (c : Nat) : State :=
  if s.cycle < c then
    (s.wr .TB_RAW (s.rd .TB_RAW + BitVec.ofNat 64 (c - s.cycle))).setFld .TB_CYCLE F.TB_CYCLE_CYCLE c
  else s

/-- One FCLK passes (R217, R231): the counts advance, up to the last cycle of the turn; APPENDED_CYCLES_START enters
cycle 1,800 and TURN_START the next turn. -/
def State.tick (s : State) : State :=
  if s.inReset then s
  else if s.cycle < 1799 || (1800 ≤ s.cycle && s.cycle < 1799 + 45 * s.fld .ROT_STATUS F.ROT_STATUS_STRETCH) then
    s.advanceTo (s.cycle + 1)
  else s

/-- The appended cycles of a stretched turn run (R32). -/
def State.appended (s : State) : Bool := 1800 ≤ s.cycle

/-- The tile's mode: true is scheduled. -/
def State.schedMode (s : State) (t : TileId) : Bool := s.fld (.SQ_STATUS t.val) F.SQ_STATUS_MODE = 1

/-- What belongs to a tile in scheduled mode holds: the appended cycles run (R32, R219). -/
def State.tileHolds (s : State) (t : TileId) : Bool := s.appended && s.schedMode t

/-- This block's chip ID (R44). -/
def State.chipId (s : State) : Nat := s.fld .TB_CHIP F.TB_CHIP_CHIP_ID

/-- ROT_STATUS.STATE is RUNNING (R245). -/
def State.rotRunning (s : State) : Bool := s.fld .ROT_STATUS F.ROT_STATUS_STATE = 2

end Sys2Proof.Machine
end

