-- ==== Sys2Proof/Machine/Translate.lean ====
section
/-! DEFINITION. Where an address leads: the local map (R42 to R44), effective types (R318, R498), ranges and range
caches (R320 to R324), permissions (R321), ownership (R291, R341), and the checks of an access in their order (R177). -/

namespace Sys2Proof.Machine

/-! ### The local map -/

/-- Scratch ways that are backed: during a conversion the smaller of the two counts (R286). -/
def State.scratchWays (s : State) : Nat :=
  let w := s.fld .RSV_SCRATCH F.RSV_SCRATCH_WAYS
  if s.fld .RSV_SCRATCH F.RSV_SCRATCH_BUSY == 1 then min w s.home.scratchFrom else w

/-- Whether the local address is backed (R42, R43, R307). A LOST tier-2 group is not unbacked: it refuses. -/
def State.backed (s : State) (a : Nat) : Bool :=
  match placeOf a with
  | .tier1 => true
  | .tier2 g =>
    let st := s.fld (.T2_STATUS g.val) F.T2_STATUS_STATE
    st == 2 || (st == 1 && (a - 0x10000000000) % 0x8000000000 < s.fld (.T2_SIZE g.val) F.T2_SIZE_GIB * 2 ^ 30)
  | .slab _ off => off < slabSize
  | .scratch off => off < s.scratchWays * 2 ^ 24
  | .reserved => false

/-- Whether a tier-1 address lies in a rotation-locked granule (R40, R377). -/
def State.rotLocked (s : State) (a : Nat) : Bool :=
  (List.range 64).any (fun n =>
    let r := Reg.LOCK n
    s.fld r F.LOCK_VALID == 1 && s.fld r F.LOCK_START ≤ a / 0x10000 &&
      a / 0x10000 < s.fld r F.LOCK_START + s.fld r F.LOCK_COUNT)

/-- The home slice of a local address: R275 for tier 1 and tier 2, R277 for scratch. -/
def homeSlice (a : Nat) : SliceId :=
  let n := match placeOf a with
    | .scratch off => off % 2 ^ 24 / 256 % 32
    | _ =>
      let l := a / 64
      Nat.xor (Nat.xor (l % 32) (l / 2 ^ 18 % 32)) (l / 2 ^ 23 % 32)
  ⟨n % 32, Nat.mod_lt _ (by decide)⟩

/-! ### Effective type -/

/-- The stricter of two type codes; 3 acts as DEVICE (R318, R498). -/
def MemType.stricter (a b : Nat) : MemType :=
  match max a b with
  | 0 => .normal
  | 1 => .stream
  | _ => .device

/-- The place of a target's window in LV_TYPE. -/
def windowIndex (cls : TClass) (a : Nat) : Nat :=
  match cls with
  | .host0 => 7
  | .host1 => 8
  | .peer => 9
  | .localMem =>
    match placeOf (localOf a) with
    | .tier1 => 0
    | .tier2 g => 1 + g.val
    | .slab _ _ => 5
    | .scratch _ => 6
    | .reserved => 0

/-- The type that the levee gives the window of a target (R498). -/
def State.windowType (s : State) (cls : TClass) (a : Nat) : Nat :=
  s.fld .LV_TYPE F.LV_TYPE_TYPES / 2 ^ (2 * windowIndex cls a) % 4

/-! ### Fields and ownership -/

/-- FIELD of a context (R316, R345): context 0 has none. -/
def State.ctxField (s : State) (c : Byte) : Nat := s.fld (.CTX_ENTRY1 c.toNat) F.CTX_ENTRY1_FIELD

/-- Whether a context exists (R315, R316). -/
def State.ctxValid (s : State) (c : Byte) : Bool := c == 0 || s.fld (.CTX_ENTRY1 c.toNat) F.CTX_ENTRY1_VALID == 1

/-- A context is revoked (R432). -/
def State.revoked (s : State) (c : Byte) : Bool := (s.rd (.HF_REVOKED (c.toNat / 32))).getLsbD (c.toNat % 32)

/-- Whether a context may be named on a tile: its bit of SQ_CTXMASK, and the levee's field (R195, R199, R492). -/
def State.ctxAllowed (s : State) (t : TileId) (c : Byte) : Bool :=
  (s.rd (.SQ_CTXMASK t.val (c.toNat / 32))).getLsbD (c.toNat % 32) &&
    (c == 0 || s.leveeNibble .LV_TILE t.val == s.ctxField c)

/-- Whether a context may touch a byte of a tile's slab (R291, R293). -/
def State.slabOwned (s : State) (t : TileId) (c : Byte) (off : Nat) : Bool :=
  let u := off / 0x40000
  let r := Reg.SLAB_OWN t.val u
  let filling := match (s.tile t).fill with
    | some (u', _) => u' == u
    | none => false
  c == 0 || (!filling && (s.fld r F.SLAB_OWN_CTX == c.toNat ||
    (s.fld r F.SLAB_OWN_ANY == 1 && (s.rd (.SQ_CTXMASK t.val (c.toNat / 32))).getLsbD (c.toNat % 32))))

/-- The owner-table entry e (R339). -/
def State.ownerEntry (s : State) (e : Nat) : Nat := s.rdNat (s.otBase + 4 * e) 4

/-- The owner check of R341, of R292 at a slab, and the refusal of writes to the owner table (R339). -/
def State.ownerOk (s : State) (c : Byte) (a : Nat) (write : Bool) : Bool :=
  match placeOf a with
  | .slab t off => s.slabOwned t c off
  | _ =>
    !(write && s.inOwnerTable a) &&
    (c == 0 ||
      match ownerIndex a with
      | none => false
      | some e =>
        let x := s.ownerEntry e
        let changing := x / 512 % 2 == 1
        let o := BitVec.ofNat 8 x
        !changing && (o == c || (x / 256 % 2 == 1 && s.ctxField c == s.ctxField o)))

/-- What an owner refusal records (R341, R508): the count, the first refusal, the watermaster's source with the slice that
refuses; a slab's refusal sets no bit of the map. -/
def State.ownerRefusal (s : State) (c : Byte) (a : Nat) (map : Option Nat) : State :=
  let s := s.countUp .OT_REFUSALS F.OT_REFUSALS_COUNT
  let s := if s.fld .OT_FIRST F.OT_FIRST_VALID == 1 then s
    else ((s.setFld .OT_FIRST F.OT_FIRST_VALID 1).setFld .OT_FIRST F.OT_FIRST_CTX c.toNat).setFld
      .OT_FIRST F.OT_FIRST_LINE (a / 64)
  s.wmEvent 21 [c] map

/-! ### Ranges -/

/-- Whether a virtual address lies in a cached range of a context (R320). -/
def RCEntry.covers (e : RCEntry) (c : Byte) (va : Nat) : Bool :=
  e.ctx == c && e.vstart ≤ va && va < e.vstart + e.pages * 4096

/-- A range-cache lookup: in scheduled mode pinned entries only (R322, R324). -/
def rcLookup (rc : List RCEntry) (sched : Bool) (c : Byte) (va : Nat) : Option RCEntry :=
  rc.find? (fun e => e.covers c va && (e.pinned || !sched))

/-- The entry becomes the most recently used. -/
def rcTouch (rc : List RCEntry) (e : RCEntry) : List RCEntry := e :: rc.erase e

/-- The cache after a lookup: a hit is a use (R322). -/
def rcUse (rc : List RCEntry) (sched : Bool) (c : Byte) (va : Nat) : List RCEntry :=
  match rcLookup rc sched c va with
  | some e => rcTouch rc e
  | none => rc

/-- The cache with a walked entry allocated: over the least recently used unpinned entry when all 64 are in use
(R322). -/
def rcFill (rc : List RCEntry) (e : RCEntry) : List RCEntry :=
  let rc := rc.filter (fun x => !(x.ctx == e.ctx && x.vstart == e.vstart && !x.pinned))
  if rc.length < 64 then e :: rc
  else
    match rc.reverse.find? (fun x => !x.pinned) with
    | some old => e :: rc.erase old
    | none => rc

/-- The range entry at an index of a context's table, as memory holds it, and its V bit (R318). -/
def State.rangeEntry (s : State) (c : Byte) (i : Nat) : RCEntry × Bool :=
  let base := localOf (s.fld (.CTX_ENTRY0 c.toNat) F.CTX_ENTRY0_RT_BASE * 4096) + 32 * i
  let cls := match s.rdNat (base + 20) 1 % 8 with
    | 1 => TClass.host0
    | 2 => .host1
    | 3 => .peer
    | _ => .localMem
  let perm := s.rdNat (base + 21) 1
  (⟨c, s.rdNat base 8, s.rdNat (base + 8) 8, s.rdNat (base + 16) 4, cls, BitVec.ofNat 4 perm, perm / 16 % 2 == 1,
    BitVec.ofNat 2 (s.rdNat (base + 22) 1), false⟩, perm / 32 % 2 == 1)

/-- The valid entry of a context's table that covers a virtual address (R320, R325). -/
def State.rangeWalk (s : State) (c : Byte) (va : Nat) : Option RCEntry :=
  ((List.range (s.fld (.CTX_ENTRY1 c.toNat) F.CTX_ENTRY1_RT_COUNT)).map (s.rangeEntry c)).findSome?
    (fun x => if x.2 && x.1.covers c va then some x.1 else none)

/-! ### Checks of an access -/

/-- Access kinds of a fault record: R [0], W [1], X [2], A [3] (R321, R328). -/
def accR : BitVec 4 := 1#4
def accW : BitVec 4 := 2#4
def accX : BitVec 4 := 4#4
def accA : BitVec 4 := 8#4

/-- What translation answers for one address. -/
inductive Xlat where
  | ok (tgt : Target) (count : Bool)
  /-- no cached range covers the address -/
  | miss
  /-- the range's permissions refuse the access -/
  | permission
deriving DecidableEq, Repr

/-- Translation through a range cache (R315, R320 to R324). Context 0 has every address, LOCAL. Requests toward host memory under
COUNT are to be counted (R332). -/
def State.translate (s : State) (rc : List RCEntry) (sched : Bool) (c : Byte) (va : Word64) (acc : BitVec 4) : Xlat :=
  if c == 0 then
    let a := va.toNat % 2 ^ 52
    .ok ⟨.localMem, a, MemType.stricter 0 (s.windowType .localMem a)⟩ false
  else
    match rcLookup rc sched c va.toNat with
    | none => .miss
    | some e =>
      if e.perm &&& acc == acc then
        let a := e.pstart + (va.toNat - e.vstart)
        let a := match e.cls with
          | .localMem => a % 2 ^ 52
          | _ => a % 2 ^ 64
        .ok ⟨e.cls, a, MemType.stricter e.typ.toNat (s.windowType e.cls a)⟩ (e.count && (e.cls == .host0 || e.cls == .host1))
      else .permission

/-- The plane rule of a scheduled-mode access (R33, R145; R223 for tier 1 while no rotation runs). -/
def State.planeRefuses (s : State) (t : TileId) (tgt : Target) (atomic : Bool) : Bool :=
  match tgt.cls with
  | .host0 => true
  | .host1 => true
  | .peer => true
  | .localMem =>
    if chipOf tgt.addr != s.chipId then true
    else
      let a := localOf tgt.addr
      match placeOf a with
      | .tier2 _ => true
      | .tier1 => atomic || !s.rotLocked a || !s.rotRunning
      | .slab n _ => n != t && !s.schedMode n
      | .scratch _ => atomic
      | .reserved => atomic

/-- The address decode of R43 for an address of this chip; another chip's is decoded there. -/
def State.decodeRefuses (s : State) (tgt : Target) : Bool :=
  tgt.cls == .localMem && chipOf tgt.addr == s.chipId && !s.backed (localOf tgt.addr)

/-! ### Uncorrectable errors -/

/-- A slab read or write met an uncorrectable error (R290): the tile's slab ECC source with the contexts, SLAB_STATUS.UE,
and the word's offset in SLAB_ERRADDR, unless an error is already recorded there. -/
def State.slabUE (s : State) (t : TileId) (a : Nat) (ctxs : List Byte) (n : Nat := 8) : State :=
  let w := match s.ueIn a n with
    | some x => x
    | none => a
  let s := if s.fld (.SLAB_STATUS t.val) F.SLAB_STATUS_UE == 1 || s.fld (.SLAB_STATUS t.val) F.SLAB_STATUS_SCRUB_UE == 1
    then s else s.setFld (.SLAB_ERRADDR t.val) F.SLAB_ERRADDR_WORD ((w - slabAddr t 0) / 8)
  ((s.setFld (.SLAB_STATUS t.val) F.SLAB_STATUS_UE 1).tileCount t 9 1).wmEvent 7 ctxs (some t.val)

/-- The stack and the pseudo-channel of a tier-1 address (R276). -/
def stackOf (a : Nat) : Nat := a / 256 % 8
def pcOf (a : Nat) : Nat := a / 2048 % 64
def stackId (a : Nat) : StackId := ⟨stackOf a, Nat.mod_lt _ (by decide)⟩

/-- An uncorrectable scratch error (R289): the slice's UE, its address, its source. -/
def State.scratchUE (s : State) (line : Nat) (ctx : Byte) : State :=
  let n := (homeSlice line).val
  let s := if s.fld (.RSV_STATUS n) F.RSV_STATUS_UE == 1 || s.fld (.RSV_STATUS n) F.RSV_STATUS_SCRUB_UE == 1 ||
      s.fld (.RSV_STATUS n) F.RSV_STATUS_DIRTY_PAR == 1 then s
    else s.setFld (.RSV_ERRADDR n) F.RSV_ERRADDR_LINE (line / 64)
  (s.setFld (.RSV_STATUS n) F.RSV_STATUS_UE 1).wmEvent 15 [ctx] (some n)

/-- Corrected errors of scratch words that a read meets, each counted in its slice (R289). -/
def State.scratchCe (s : State) (a n : Nat) : State :=
  (s.memCE.filter (fun w => w < a + n && a < w + 8)).foldl (fun s w =>
    s.countUp (.RSV_CECNT (homeSlice w).val) F.RSV_CECNT_COUNT) s

/-- An uncorrectable error of an HBM stack (R302). -/
def State.hbmUE (s : State) (k : StackId) (a : Nat) (ctxs : List Byte) : State :=
  let s := if s.fld (.HB_STATUS k.val) F.HB_STATUS_UE == 1 || s.fld (.HB_STATUS k.val) F.HB_STATUS_SCRUB_UE == 1 then s
    else s.setFld (.HB_ERRADDR k.val) F.HB_ERRADDR_LINE (a / 64)
  let s := (s.setFld (.HB_STATUS k.val) F.HB_STATUS_UE 1).wmEvent (24 + 4 * k.val) ctxs none
  if s.memUE.contains (a / 8 * 8) then s else { s with memUE := s.memUE ++ [a / 8 * 8] }

/-- An uncorrectable or poisoned line of a tier-2 group (R308). -/
def State.tier2UE (s : State) (g : Fin 4) (a : Nat) (ctxs : List Byte) : State :=
  let s := if s.fld (.T2_STATUS g.val) F.T2_STATUS_UE == 1 || s.fld (.T2_STATUS g.val) F.T2_STATUS_SCRUB_UE == 1 then s
    else s.setFld (.T2_ERRADDR g.val) F.T2_ERRADDR_LINE (a / 64)
  (s.setFld (.T2_STATUS g.val) F.T2_STATUS_UE 1).wmEvent (57 + 3 * g.val) ctxs none

end Sys2Proof.Machine
end

