-- ==== Sys2Proof/Machine/Groups.lean ====
section
/-! DEFINITION. Groups on a vector core: the paths of a group (R128 to R132), the active set (R118 to R123), fetching
and issuing an instruction (R112, R143, R148 to R150, R177), and taking an exception (R148, R149, R178). -/

namespace Sys2Proof.Machine

/-! ### Registers of a group -/

/-- A v register of the group; 255, and a row that does not exist, read 0 (R154). -/
def Group.rdV (gr : Group) (n : Nat) : Row := if n = 255 then Row.zero else gr.v.getD n Row.zero

/-- A u register; 255 reads 0 (R154). -/
def Group.rdU (gr : Group) (n : Nat) : Word64 := if h : n < 64 then gr.u[n] else 0

/-- A predicate's mask. -/
def Group.rdP (gr : Group) (n : Nat) : Word64 := gr.p[n % 8]'(Nat.mod_lt _ (by decide))

/-- A u register written; 255 discards (R154). -/
def Group.wrU (gr : Group) (n : Nat) (x : Word64) : Group := if h : n < 64 then { gr with u := gr.u.set n x h } else gr

/-- A predicate written in the threads of a mask. -/
def Group.wrP (gr : Group) (n : Nat) (mask x : Word64) : Group :=
  { gr with p := gr.p.set (n % 8) ((gr.rdP n &&& ~~~mask) ||| (x &&& mask)) (Nat.mod_lt _ (by decide)) }

/-- The words of a mask's threads no longer wait for a load, are no longer marked, and lose an uncorrectable error
(R110, R150). -/
def Group.clearReg (gr : Group) (n : Nat) (mask : Word64) : Group :=
  { gr with
    loads := gr.loads.map (fun l => { l with live := l.live.map (fun x => if x.1 = n then (x.1, x.2 &&& ~~~mask) else x) })
    marks := gr.marks.map (fun m => if m.reg = n then { m with threads := m.threads &&& ~~~mask } else m)
    rfUE := gr.rfUE.filter (fun e => !(e.1 == n && mask.getLsbD e.2)) }

/-! ### The register cache (R107 to R109) -/

/-- The entry of a register. -/
def Group.cached (gr : Group) (n : Nat) : Option RegLine := gr.cache.find? (fun e => e.reg == n)

/-- The entry becomes the most recent; a ninth entry evicts the least recent. -/
def Group.cacheFront (gr : Group) (e : RegLine) : Group :=
  { gr with cache := (e :: gr.cache.filter (fun x => x.reg != e.reg)).take 8 }

/-- A result written to a register in the threads of a mask: its entry is updated, or one is allocated (R108). -/
def Group.cacheResult (gr : Group) (n : Nat) (mask : Word64) : Group :=
  if mask == 0 then gr
  else
    match gr.cached n with
    | some e => gr.cacheFront { e with words := e.words ||| mask, parity := e.parity && mask != BitVec.allOnes 64 }
    | none => gr.cacheFront ⟨n, mask, false⟩

/-- A source read with its keep hint (R108). -/
def Group.cacheRead (gr : Group) (x : Nat × Bool) : Group :=
  match gr.cached x.1, x.2 with
  | some e, true => gr.cacheFront { e with words := BitVec.allOnes 64 }
  | none, true => gr.cacheFront ⟨x.1, BitVec.allOnes 64, false⟩
  | some _, false => { gr with cache := gr.cache.filter (fun e => e.reg != x.1) }
  | none, false => gr

/-- The entries with a parity error among those that the sources hit are invalidated (R109). -/
def Group.cacheCheck (gr : Group) (reads : List (Nat × Bool)) : Group :=
  { gr with cache := gr.cache.filter (fun e => !(e.parity && reads.any (fun x => x.1 == e.reg))) }

/-- A word that the register cache serves, so that the main file is not read for it (R107). -/
def Group.cacheServes (gr : Group) (reads : List (Nat × Bool)) (n thread : Nat) : Bool :=
  reads.any (fun x => x.1 == n) && (gr.cached n).any (fun e => e.words.getLsbD thread)

/-- A v register written in the threads of a mask, in the main file alone: an entry that held it is dropped (R108); 255
discards (R154). -/
def Group.wrMain (gr : Group) (n : Nat) (mask : Word64) (x : Nat → Word32) : Group :=
  if n = 255 then gr
  else
    let old := gr.rdV n
    let row : Row := Vector.ofFn (fun i : Fin 64 => if mask.getLsbD i.val then x i.val else old[i])
    { gr.clearReg n mask with v := gr.v.set n row, cache := gr.cache.filter (fun e => e.reg != n) }

/-- A v register written in the threads of a mask, in the main file and the register cache (R108). DESIGN CHOICE (log entry 114):
where VD + j is 255, the last register of a span whose group has 256 rows, the word is discarded as that of v255 is. -/
def Group.wrV (gr : Group) (n : Nat) (mask : Word64) (x : Nat → Word32) : Group :=
  if n = 255 then gr else { gr.wrMain n mask x with cache := (gr.cacheResult n mask).cache }

/-- Flags raised by the group's arithmetic (R106). -/
def Group.raiseFlags (gr : Group) (f : FFlags) : Group := { gr with fflags := gr.fflags ||| f }

/-! ### Paths -/

/-- The group continues with the next path while the running one is empty or stands at the innermost RPC: it parks, and
the next pending path runs, or the entry is popped (R129, R132). -/
def Group.settleWith : Nat → Group → Group
  | 0, gr => gr
  | fuel + 1, gr =>
    match gr.stack with
    | [] => gr
    | e :: rest =>
      if gr.mask == 0 || gr.pc == e.rpc then
        let e := { e with parked := e.parked ||| gr.mask }
        match e.pending with
        | p :: ps => Group.settleWith fuel { gr with pc := p.pc, mask := p.mask, stack := { e with pending := ps } :: rest }
        | [] => Group.settleWith fuel { gr with pc := e.rpc, mask := e.mask &&& ~~~gr.exited, stack := rest }
      else gr

/-- How many parkings and pops can follow one another. -/
def Group.settleFuel (gr : Group) : Nat := gr.stack.foldl (fun a e => a + 1 + e.pending.length) 1

def Group.settle (gr : Group) : Group := Group.settleWith gr.settleFuel gr

/-- The running path continues at an address (R129). -/
def Group.goto (gr : Group) (pc : Word64) : Group := { gr with pc := pc, back := false }.settle

/-- The running path continues at the next word. -/
def Group.next (gr : Group) : Group := gr.goto (gr.pc + 8)

/-- A taken branch to a target: a backward one rotates when the innermost entry has pending paths (R130), and lets the group be
removed (R121). -/
def Group.branch (gr : Group) (target : Word64) : Group :=
  let back := decide (target.toNat ≤ gr.pc.toNat)
  let to_ : Group := { gr.goto target with back := back }
  match gr.stack with
  | e :: rest =>
    match e.pending with
    | p :: ps =>
      if back then
        { gr with pc := p.pc, mask := p.mask, back := true,
                  stack := { e with pending := ps ++ [(⟨target, gr.mask⟩ : Path)] } :: rest }.settle
      else to_
    | [] => to_
  | [] => to_

/-- A conditional branch on a per-thread predicate (R128): a split pushes an entry with the taken path pending, and the
not-taken path runs on. -/
def Group.branchSplit (gr : Group) (taken rpc target : Word64) : Group :=
  let t := taken &&& gr.mask
  let n := gr.mask &&& ~~~t
  if t == 0 then gr.next
  else if n == 0 then gr.branch target
  else
    { gr with
      mask := n
      stack := { rpc := rpc, mask := gr.mask, parked := 0, pending := [⟨target, t⟩] } :: gr.stack }.next

/-- Threads that have exited leave the running path, every entry and every pending path; empty paths are dropped
(R132). -/
def Group.exitThreads (gr : Group) (m : Word64) : Group :=
  { gr with
    exited := gr.exited ||| m
    mask := gr.mask &&& ~~~m
    stack := gr.stack.map (fun e =>
      { e with
        mask := e.mask &&& ~~~m
        parked := e.parked &&& ~~~m
        pending := (e.pending.map (fun p => { p with mask := p.mask &&& ~~~m })).filter (fun p => p.mask != 0) }) }

/-! ### The active set -/

/-- Whether a resident slot is active (R118). -/
def Core.isActive (c : Core) (i : SlotId) : Bool := c.active.toList.any (fun a => a == some i)

/-- The slot leaves the active set. -/
def Core.deactivate (c : Core) (i : SlotId) : Core :=
  { c with active := c.active.map (fun a => if a == some i then none else a) }

/-- The group of a slot leaves the active set and waits (R119); the register cache of its active slot is invalidated (R109). -/
def Core.leave (c : Core) (i : SlotId) (w : GWait) : Core :=
  match c.group i with
  | some gr => (c.deactivate i).setGroup i (some { gr with wait := some w, readyAt := none, cache := [] })
  | none => c

/-- The group's wait is satisfied: it becomes ready, or issues again if it is still active (R120). The ready count
advances with Core.tick, so that groups made ready together rank by slot (R122). -/
def Core.ready (c : Core) (i : SlotId) : Core :=
  match c.group i with
  | some gr =>
    if c.isActive i then c.setGroup i (some { gr with wait := none, readyAt := none })
    else c.setGroup i (some { gr with wait := none, readyAt := some c.clock })
  | none => c

/-- One readiness event is over. -/
def Core.tick (c : Core) : Core := { c with clock := c.clock + 1 }

/-- Groups of a core that satisfy a condition become ready together. -/
def Core.readyAll (c : Core) (p : Group → Bool) : Core :=
  ((List.finRange 32).foldl (fun c i =>
    match c.group i with
    | some gr => if p gr then c.ready i else c
    | none => c) c).tick

def State.readyGroup (s : State) (g : GroupId) : State := s.updCore g.tile g.core (fun c => (c.ready g.slot).tick)

def State.leaveActive (s : State) (g : GroupId) (w : GWait) : State := s.updCore g.tile g.core (fun c => c.leave g.slot w)

/-! ### Matrix instructions of a failed kernel -/

/-- The status word of R99 with DONE set. -/
def mxWord (status : Nat) (ieee : FFlags) (acc : WFlags) : Word64 :=
  let nv := if ieee &&& FFlags.NV != 0 then 2 ^ 7 else 0
  let of_ := if ieee &&& FFlags.OF != 0 then 2 ^ 6 else 0
  let uf := if ieee &&& FFlags.UF != 0 then 2 ^ 5 else 0
  let nx := if ieee &&& FFlags.NX != 0 then 2 ^ 4 else 0
  BitVec.ofNat 64 (acc.toNat * 256 + nv + of_ + uf + nx + 2 * status + 1)

/-- Whether an accepted instruction waits for an earlier one of the other unit that names its region (R96, R97). -/
def regionBusy (other : List MxInstr) (m : MxInstr) : Bool :=
  other.any (fun o => o.seq < m.seq && o.dc.region == m.dc.region)

/-- Whether the transfer unit has started the head of its queue (R97). -/
def Tensor.tqStarted (ta : Tensor) : Bool :=
  match ta.tq with
  | [] => false
  | m :: _ => !regionBusy ta.mq m

/-- R100: the instructions of a failed kernel that have not started end with DISCARDED; those that have started complete. DESIGN
CHOICE (log entry 113): the head of the multiply queue has started as soon as it is the head, and no later one has, though R96
lets the fetch of the next one run beside it. -/
def Tensor.discard (ta : Tensor) : Tensor :=
  let done (m : MxInstr) : MxInstr := { m with word := mxWord 4 0 0 }
  let mqRest := ta.mq.drop 1
  let tqKeep := if ta.tqStarted then ta.tq.take 1 else []
  let tqRest := if ta.tqStarted then ta.tq.drop 1 else ta.tq
  { ta with
    mq := ta.mq.take 1
    tq := tqKeep
    issued := []
    ended := ta.ended ++ (ta.issued ++ mqRest ++ tqRest).map done }

/-! ### Exceptions -/

/-- Exception codes of R176. -/
def Exc.ILLEGAL : Nat := 0x01
def Exc.REG_RANGE : Nat := 0x02
def Exc.DIVERGENT_ASYNC : Nat := 0x03
def Exc.DIVERGENT_BARRIER : Nat := 0x04
def Exc.ANCHOR_MISMATCH : Nat := 0x05
def Exc.REGFILE_ECC : Nat := 0x06
def Exc.LATE_ACCESS : Nat := 0x07
def Exc.TRAP : Nat := 0x08
def Exc.ACC_ALIGN : Nat := 0x10
def Exc.ACC_LOCAL_RANGE : Nat := 0x11
def Exc.ACC_TRANSLATION : Nat := 0x12
def Exc.ACC_PERMISSION : Nat := 0x13
def Exc.ACC_PLANE : Nat := 0x14
def Exc.ACC_DECODE : Nat := 0x15

/-- What an exception record says beyond the group and the kernel (R178). -/
structure ExcInfo where
  code : Nat
  cause : Byte
  fetch : Bool
  write : Bool
  atomic : Bool
  pc : Word64
  addr : Word64
  failMask : Word64
  active : Word64
  word : Word64
deriving DecidableEq, Repr

/-- The 64 bytes of an exception record (R178). -/
def excRecord (s : State) (g : GroupId) (gr : Group) (k : Kernel) (x : ExcInfo) : List Byte :=
  let b (v : Bool) (n : Nat) : Nat := if v then n else 0
  leBytes 1 x.code ++ [x.cause] ++
  leBytes 1 (b x.fetch 1 + b x.write 2 + b x.atomic 4 + b k.sched 8) ++
  leBytes 1 g.core.val ++ leBytes 1 g.slot.val ++ leBytes 1 gr.num ++ [k.ctx] ++ leBytes 1 0 ++
  leBytes 8 x.pc.toNat ++ leBytes 8 x.addr.toNat ++ leBytes 8 x.failMask.toNat ++ leBytes 8 x.active.toNat ++
  leBytes 8 s.timestamp.toNat ++ leBytes 4 gr.block ++ leBytes 4 0 ++ leBytes 8 (if x.fetch then 0 else x.word.toNat)

/-- Where a group's exception record lies in its tile's slab (R178, R193). -/
def excRecordAt (g : GroupId) (k : Kernel) : Nat :=
  slabAddr g.tile (k.excBase * 256 + (g.core.val * 32 + g.slot.val) * 64)

/-- A write of whole words to a slab, which clears their errors (R616). -/
def State.wrWords (s : State) (a : Nat) (bs : List Byte) : State := (s.wrBytes a bs).clearUE a bs.length

/-- The kernel of a tile has failed: its matrix instructions that have not started end with DISCARDED, which TA_FLAGS remembers
(R100, R101). -/
def State.kernelFails (s : State) (t : TileId) : State :=
  let ta := (s.tile t).ta
  let s := s.updTile t (fun x =>
    { x with kernel := x.kernel.map (fun k => { k with failed := true, status := 1 }), ta := x.ta.discard })
  if ta.discard.ended.length == ta.ended.length then s else s.setFld (.TA_FLAGS t.val) F.TA_FLAGS_ERR_SEEN 1

/-- Taking an exception in a group (R148 to R150, R178): the record is written, the group halts, VC_EXC holds the first,
the kernel fails, and its matrix instructions that have not started end (R100). -/
def State.takeException (s : State) (g : GroupId) (gr : Group) (k : Kernel) (x : ExcInfo) : State :=
  let s := s.wrWords (excRecordAt g k) (excRecord s g gr k x)
  let r := Reg.VC_EXC g.tile.val g.core.val
  let s := if s.fld r F.VC_EXC_VALID == 1 then s
    else ((s.setFld r F.VC_EXC_VALID 1).setFld r F.VC_EXC_SLOT g.slot.val).setFld r F.VC_EXC_CODE x.code
  let s := s.updCore g.tile g.core (fun c =>
    (c.deactivate g.slot).setGroup g.slot (some { gr with halted := true, wait := none, readyAt := none, cache := [] }))
  (s.kernelFails g.tile).leaveFaults (fun w => match w with
    | .group x => x.tile == g.tile
    | _ => false)

/-- The exception of a late report (R150, R178). -/
def State.takeLate (s : State) (g : GroupId) (gr : Group) (k : Kernel) (r : LateRec) (fetch : Bool) : State :=
  s.takeException g gr k
    { code := Exc.LATE_ACCESS, cause := r.cause, fetch := fetch, write := r.write, atomic := r.atomic, pc := r.pc
      addr := r.addr, failMask := r.failMask, active := r.active, word := r.word }

/-! ### Fetch and issue -/

/-- Where the group's next instruction lies: a local or host address, a refusal of the fetch, or a missing range
(R143, R145, R170, R177, R193, R292). -/
inductive FetchAt where
  | at_ (tgt : Target)
  | fault (code : Nat)
  | miss
deriving DecidableEq, Repr

def State.fetchAt (s : State) (t : TileId) (k : Kernel) (pc : Word64) : FetchAt :=
  if pc.toNat % 8 != 0 then .fault Exc.ACC_ALIGN
  else if s.revoked k.ctx then .fault Exc.ACC_PERMISSION
  else if !k.cspace then
    if pc.toNat ≥ slabSize then .fault Exc.ACC_DECODE
    else if !s.slabOwned t k.ctx pc.toNat then .fault Exc.ACC_PERMISSION
    else .at_ ⟨.localMem, s.chipId * 2 ^ 43 + slabAddr t pc.toNat, .normal⟩
  else
    match s.translate (s.tile t).rcV k.sched k.ctx pc accX with
    | .miss => if k.sched then .fault Exc.ACC_TRANSLATION else .miss
    | .permission => .fault Exc.ACC_PERMISSION
    | .ok tgt _ =>
      let own := tgt.cls == .localMem && chipOf tgt.addr == s.chipId &&
        (match placeOf (localOf tgt.addr) with
         | .slab n _ => n == t
         | _ => false)
      if k.sched && !own then .fault Exc.ACC_PLANE
      else if s.decodeRefuses tgt then .fault Exc.ACC_DECODE
      else if own && !s.slabOwned t k.ctx ((localOf tgt.addr - slabBase) % 0x800000) then .fault Exc.ACC_PERMISSION
      else .at_ tgt

/-- The line key of a target in the instruction cache: local lines by address, others above every local address. -/
def lineKey (tgt : Target) : Nat :=
  let base := match tgt.cls with
    | .localMem => 0
    | .host0 => 2 ^ 64
    | .host1 => 2 * 2 ^ 64
    | .peer => 3 * 2 ^ 64
  base + tgt.addr

/-- The line of the L1 instruction cache that holds a target. -/
def Core.iline (c : Core) (tgt : Target) : Option ILine := c.l1i.find? (fun l => l.addr == lineKey tgt / 256 * 256)

/-- The instruction word that a line holds at a target. -/
def ILine.word (l : ILine) (tgt : Target) : Word64 :=
  BitVec.ofNat 64 (leNat ((l.bytes.drop (lineKey tgt % 256)).take 8))

/-- The line becomes the most recently used of its set (R143). -/
def Core.itouch (c : Core) (l : ILine) : Core := { c with l1i := l :: c.l1i.erase l }

/-- A read that meets a parity error in an L1 line or a register-cache entry counts it (R144, R567). -/
def State.countParity (s : State) (t : TileId) (n : Nat) : State := s.tileCount t 12 n

/-- The ranges that an instruction's addresses hit become the most recently used (R322). -/
def State.touchRanges (s : State) (t : TileId) (k : Kernel) (vas : List Word64) : State :=
  let touch (rc : List RCEntry) (va : Word64) : List RCEntry :=
    match rcLookup rc k.sched k.ctx va.toNat with
    | some e => rcTouch rc e
    | none => rc
  s.updTile t (fun x => { x with rcV := vas.foldl touch x.rcV })

/-- Whether a core may issue for a group at all: a started kernel that has not failed, no appended cycle in scheduled
mode (R111, R149), the group active, not halted and not waiting. -/
def State.mayIssue (s : State) (g : GroupId) : Bool :=
  let x := s.tile g.tile
  !x.inReset && !s.safe &&
  (match x.kernel with
   | some k => k.started && !k.failed && !(k.sched && s.appended)
   | none => false) &&
  (x.core g.core).isActive g.slot &&
  (match s.group g with
   | some gr => !gr.halted && gr.wait.isNone
   | none => false)

/-- The instruction that has just begun counts as issued unless its group halts or has to wait before it (R567). -/
def State.countIssue (s : State) (g : GroupId) : State :=
  match s.group g with
  | none => s.tileCount g.tile 1 1
  | some gr =>
    if gr.halted then s
    else
      match gr.wait with
      | none => s.tileCount g.tile 1 1
      | some .barrier => s.tileCount g.tile 1 1
      | some (.fence _) => s.tileCount g.tile 1 1
      | _ => s

/-- An instruction begins to issue: a report that the group has to halt for comes first (R150), then an access fault on
the fetch (R177), then a missing range of the code (R146). The word must be the one that the instruction cache holds at
the group's PC, whose line it makes the most recently used; otherwise the group does not issue (R143). A line with a parity
error is invalidated, to be fetched again (R144). -/
def State.issue (s : State) (g : GroupId) (w : Word64) (go : State → Group → Kernel → State) : State :=
  if s.mayIssue g then
    match s.group g, (s.tile g.tile).kernel with
    | some gr, some k =>
      match gr.late with
      | some r => s.takeLate g gr k r false
      | none =>
        match s.fetchAt g.tile k gr.pc with
        | .fault code => s.takeException g gr k
            { code := code, cause := 0, fetch := true, write := false, atomic := false, pc := gr.pc, addr := gr.pc
              failMask := gr.mask, active := gr.mask, word := 0 }
        | .miss => s.leaveActive g (.walk gr.pc accX w)
        | .at_ tgt =>
          match (s.core g.tile g.core).iline tgt with
          | none => s
          | some l =>
            if l.parity then
              (s.updCore g.tile g.core (fun c => { c with l1i := c.l1i.erase l })).countParity g.tile 1
            else if l.word tgt == w then
              let s := s.updCore g.tile g.core (fun c => c.itouch l)
              (go (if k.cspace then s.touchRanges g.tile k [gr.pc] else s) gr k).countIssue g
            else s
    | _, _ => s
  else s

/-! ### Operand forms -/

/-- How an instruction uses an 8-bit source field (R154, R155). -/
inductive SrcKind where
  | none | v (span : Nat) | u | p
deriving DecidableEq, Repr

/-- How an instruction uses VD. -/
inductive DstKind where
  | none | v (span : Nat) | u | p
deriving DecidableEq, Repr

/-- How an instruction uses MOD (R159, R160). -/
inductive ModKind where
  | res0 | bit0 | rm | cond
deriving DecidableEq, Repr

/-- The form of a V-R opcode, with its V-I form where it has one (R156 to R160, R171). -/
structure VForm where
  opc : Nat
  /-- the opcode of the V-I form, if it has one -/
  iopc : Option Nat
  guard : Bool
  vd : DstKind
  va : SrcKind
  vb : SrcKind
  vc : SrcKind
  mod : ModKind
  /-- the values of SUB that the opcode defines -/
  sub : Nat → Bool

/-- The fields of the word formats (R156, R158). -/
def vOPC (w : Word64) : Nat := bitsOf w 63 56
def vG (w : Word64) : Bool := bitOf w 55
def vGN (w : Word64) : Bool := bitOf w 54
def vGP (w : Word64) : Nat := bitsOf w 53 51
def vKA (w : Word64) : Bool := bitOf w 50
def vKB (w : Word64) : Bool := bitOf w 49
def vKC (w : Word64) : Bool := bitOf w 48
def vVD (w : Word64) : Nat := bitsOf w 47 40
def vVA (w : Word64) : Nat := bitsOf w 39 32
def vVB (w : Word64) : Nat := bitsOf w 31 24
def vVC (w : Word64) : Nat := bitsOf w 23 16
def vMOD (w : Word64) : Nat := bitsOf w 15 13
def vSUB (w : Word64) : Nat := bitsOf w 12 0
def vIMM (w : Word64) : Word32 := BitVec.ofNat 32 (bitsOf w 31 0)

/-- The guard of the header is well formed (R156, R157). -/
def guardOk (w : Word64) (allowed : Bool) : Bool :=
  if vG w then allowed else !vGN w && vGP w == 0

/-- A source field holds a value that its kind defines (R154, R155). -/
def SrcKind.ok (k : SrcKind) (x : Nat) : Bool :=
  match k with
  | .none => x == 0
  | .v span => x == 255 || x % span == 0
  | .u => x < 64 || x == 255
  | .p => x < 8

/-- A destination field holds a value that its kind defines. -/
def DstKind.ok (k : DstKind) (x : Nat) : Bool :=
  match k with
  | .none => x == 0
  | .v span => x == 255 || x % span == 0
  | .u => x < 64 || x == 255
  | .p => x < 8

/-- A keep bit is 0, or its field names a v source register (R156). -/
def keepOk (k : Bool) (kind : SrcKind) (x : Nat) : Bool :=
  !k || (match kind with
    | .v _ => x != 255
    | _ => false)

/-- The word is the V-I form of the opcode. -/
def VForm.isI (f : VForm) (w : Word64) : Bool := f.iopc == some (vOPC w)

/-- The word's opcode is one of the form's. -/
def VForm.hasOpc (f : VForm) (w : Word64) : Bool := vOPC w == f.opc || f.isI w

/-- Every field of the word holds a value that the form defines (R153). -/
def VForm.legal (f : VForm) (w : Word64) : Bool :=
  guardOk w f.guard && f.vd.ok (vVD w) && f.va.ok (vVA w) && keepOk (vKA w) f.va (vVA w) &&
  (if f.isI w then !vKB w && !vKC w
   else
    f.vb.ok (vVB w) && f.vc.ok (vVC w) && keepOk (vKB w) f.vb (vVB w) && keepOk (vKC w) f.vc (vVC w) &&
    (match f.mod with
     | .res0 => vMOD w == 0
     | .bit0 => vMOD w < 2
     | .rm => vMOD w < 5
     | .cond => true) && f.sub (vSUB w))

/-- The v registers that a field names; a span that ends on v255 names it too (log entry 114). -/
def spanRegs (x span : Nat) : List Nat := if x = 255 then [] else (List.range span).map (x + ·)

def SrcKind.regs (k : SrcKind) (x : Nat) : List Nat :=
  match k with
  | .v span => spanRegs x span
  | _ => []

def DstKind.regs (k : DstKind) (x : Nat) : List Nat :=
  match k with
  | .v span => spanRegs x span
  | _ => []

/-- The v registers that the word reads. -/
def VForm.sources (f : VForm) (w : Word64) : List Nat :=
  f.va.regs (vVA w) ++ (if f.isI w then [] else f.vb.regs (vVB w) ++ f.vc.regs (vVC w))

/-- Wide-partial operations read and write the main file directly (R108). -/
def VForm.wide (f : VForm) : Bool := f.opc == 0x21 || f.opc == 0x22 || f.opc == 0x23

/-- The v registers that the word reads through the register cache, with their keep hints (R108). -/
def VForm.reads (f : VForm) (w : Word64) : List (Nat × Bool) :=
  if f.wide then []
  else
    (f.va.regs (vVA w)).map (fun r => (r, vKA w)) ++
    (if f.isI w then []
     else (f.vb.regs (vVB w)).map (fun r => (r, vKB w)) ++ (f.vc.regs (vVC w)).map (fun r => (r, vKC w)))

/-- The v registers that the word writes. -/
def VForm.dests (f : VForm) (w : Word64) : List Nat := f.vd.regs (vVD w)

/-- The threads that take part in an instruction (R157). -/
def Group.taking (gr : Group) (w : Word64) : Word64 :=
  if vG w then gr.mask &&& (if vGN w then ~~~(gr.rdP (vGP w)) else gr.rdP (vGP w)) else gr.mask

/-- An exception of the instruction at the group's PC that carries no address. -/
def State.excPlain (s : State) (g : GroupId) (gr : Group) (k : Kernel) (w : Word64) (code : Nat) : State :=
  s.takeException g gr k
    { code := code, cause := 0, fetch := false, write := false, atomic := false, pc := gr.pc, addr := 0
      failMask := gr.taking w, active := gr.mask, word := w }

/-- A register that the instruction reads waits for a load (R119). -/
def Group.waitsFor (gr : Group) (srcs : List Nat) : Bool :=
  gr.loads.any (fun l => l.live.any (fun x => x.2 != 0 && srcs.contains x.1))

/-- The late report that marks a register the instruction reads (R150). -/
def Group.markedBy (gr : Group) (srcs : List Nat) : Option LateRec :=
  (gr.marks.find? (fun m => m.threads != 0 && srcs.contains m.reg)).map (fun m => m.late)

/-- The checks that every vector instruction passes before it has an effect, in the order of R177: ILLEGAL, REG_RANGE,
then its operands: a register that a load has not written holds the group back (R119), a marked register halts it
(R150), an uncorrectable row raises REGFILE_ECC (R110) unless the register cache serves the word. reads are the sources
that use the register cache, which go finds as their reads leave it (R108, R109). -/
def State.operands (s : State) (g : GroupId) (gr : Group) (k : Kernel) (w : Word64) (legal : Bool)
    (srcs dsts : List Nat) (reads : List (Nat × Bool)) (go : Group → State) : State :=
  if !legal then s.excPlain g gr k w Exc.ILLEGAL
  else if (srcs ++ dsts).any (fun r => r ≥ gr.v.length) then s.excPlain g gr k w Exc.REG_RANGE
  else if gr.waitsFor srcs then s.leaveActive g .load
  else
    match gr.markedBy srcs with
    | some r => s.takeLate g gr k r false
    | none =>
      let ok := gr.cacheCheck reads
      let n := gr.cache.length - ok.cache.length
      let done :=
        if ok.rfUE.any (fun e => srcs.contains e.1 && !ok.cacheServes reads e.1 e.2) then
          ((s.excPlain g ok k w Exc.REGFILE_ECC).tileCount g.tile 11 1).wmEvent 6 [k.ctx] (some g.tile.val)
        else go (reads.foldl Group.cacheRead ok)
      if n = 0 then done else (done.updGroup g (fun x => x.cacheCheck reads)).countParity g.tile n

/-- A vector instruction of a V-R form: issued, checked, then done. A word of another opcode is no such instruction and
changes nothing. -/
def State.vector (s : State) (g : GroupId) (w : Word64) (f : VForm) (go : State → Group → Kernel → State) : State :=
  if f.hasOpc w then
    s.issue g w (fun s gr k => s.operands g gr k w (f.legal w) (f.sources w) (f.dests w) (f.reads w)
      (fun gr => go s gr k))
  else s

/-- The group's state after an instruction, at the next word. -/
def State.finish (s : State) (g : GroupId) (gr : Group) : State := s.setGroup g (some gr.next)

/-- A per-thread instruction with one 32-bit result (R102, R160): every taking-part thread reads its operands before any
thread writes, and the flags of all are collected (R106). f is given the thread and the three operands. -/
def State.lanes (s : State) (g : GroupId) (w : Word64) (f : VForm) (op : Nat → Word32 → Word32 → Word32 → FRes) :
    State :=
  s.vector g w f (fun s gr _ =>
    let m := gr.taking w
    let a := gr.rdV (vVA w)
    let b := gr.rdV (vVB w)
    let c := gr.rdV (vVC w)
    let res (i : Nat) : FRes :=
      op i (a.getD i 0) (if f.isI w then vIMM w else b.getD i 0) (c.getD i 0)
    let fl := (threadsOf m).foldl (fun acc i => acc ||| (res i).flags) 0
    s.finish g ((gr.wrV (vVD w) m (fun i => BitVec.ofNat 32 (res i).bits)).raiseFlags fl))

end Sys2Proof.Machine
end

