-- ==== Sys2Proof/Machine/Requests.lean ====
section
/-! DEFINITION. Requests that leave a tile for a line's home, another chip, host memory or a peer: how they are sent
(R267, R353, R359, R419 to R421), how their answers are taken (R150, R379, R380), the merge buffer (R388), and the
tile's atomic store (R348, R349). -/

namespace Sys2Proof.Machine

/-! ### Homes -/

/-- The agent that serves a coherent request for a local address: a tile for its slab, else the home slice (R346). -/
def homeAgent (a : Nat) : Byte :=
  match placeOf a with
  | .slab t _ => BitVec.ofNat 8 t.val
  | _ => BitVec.ofNat 8 (96 + (homeSlice a).val)

/-- The links that can carry a request to another chip, lowest first (R267). -/
def State.linkTo (s : State) (chip : Nat) : Option LinkId :=
  (List.finRange 36).find? (fun l => s.linkUp l && !(34 ≤ l.val && s.fld .TB_CHIP F.TB_CHIP_TWIN == 1) && (s.rd (.CN_REACH l.val (chip / 32))).getLsbD (chip % 32))

/-! ### Conditions of a request toward the host (R419, R436) -/

def State.groupUp (s : State) (g : Nat) : Bool := s.fld (.PG_STATUS g) F.PG_STATUS_LSTATE == 2

/-- IDE is required on a group and its streams are not secure (R436). -/
def State.ideBars (s : State) (g : Nat) : Bool :=
  (s.rd .HF_CTRL).getLsbD (8 + g) && s.fld (.PG_STATUS g) F.PG_STATUS_IDE != 1

def State.portFunc (s : State) (p : HostPortId) : Func := if p.val = 0 then s.pf0 else s.companion

/-- The levee lets a host port carry a context's field (R497); context 0 has none. -/
def State.portCarries (s : State) (p : HostPortId) (ctx : Byte) : Bool :=
  ctx == 0 || (s.rd .LV_PORTMASK).getLsbD (16 * p.val + s.ctxField ctx)

/-- A port's attachment (R464): 0 ATTACHED, 1 DETACHED, 2 HELD. -/
def State.portState (s : State) (p : HostPortId) : Nat :=
  if p.val == 0 then s.fld .AT_STATE F.AT_STATE_PORT0 else s.fld .AT_STATE F.AT_STATE_PORT1

/-- Whether a host port accepts a request of a context toward host memory, or toward a peer (R419, R436, R497); a port that has
detached accepts none until it is attached again (R456, R459). -/
def State.portOk (s : State) (p : HostPortId) (ctx : Byte) (peer : Bool) : Bool :=
  let f := s.portFunc p
  s.groupUp p.val && s.portState p != 1 && !s.ideBars p.val && !f.d3 && f.busMaster && (peer || (f.cacheEnable && s.portCarries p ctx)) && !s.revoked ctx

/-! ### Tags -/

/-- The lowest transaction tag that no waiting request of the tile uses. -/
def Tile.freeTag (x : Tile) : BitVec 12 :=
  BitVec.ofNat 12 (((List.range 4096).find? (fun n => !(x.reqs.any (fun r => r.tag.toNat == n)))).getD 0)

/-- A coherent request leaves the tile (R353); toward another chip it needs a link (R267), and none means no request. -/
def State.cohSend (s : State) (t : TileId) (kind : ReqKind) (opc : Nat) (ctx : Byte) (tgt : Target) (mask : Nat)
    (data : List Byte) (aop : BitVec 4) (sz : BitVec 3) (opA opB : Nat) : Option State :=
  if chipOf tgt.addr != s.chipId && (s.linkTo (chipOf tgt.addr)).isNone then none
  else
    let tag := (s.tile t).freeTag
    let s := s.updTile t (fun x => { x with reqs := x.reqs ++ [⟨tag, kind, tgt.addr⟩] })
    some (s.emit (.coh
      { cls := 0, hasData := !data.isEmpty, opc := BitVec.ofNat 8 opc, ctx := ctx, grant := 0
        typ := match tgt.typ with
          | .normal => 0
          | .stream => 1
          | .device => 2
        status := 0, srcAgent := BitVec.ofNat 8 t.val, srcChip := BitVec.ofNat 9 s.chipId
        dstAgent := homeAgent (localOf tgt.addr), dstChip := BitVec.ofNat 9 (chipOf tgt.addr), txn := tag, aop := aop
        sz := sz, addr := BitVec.ofNat 64 tgt.addr, byteMask := BitVec.ofNat 64 mask, opA := BitVec.ofNat 64 opA
        opB := BitVec.ofNat 64 opB, data := data }))

/-! ### The access counters (R332) -/

/-- A request of 64 bytes toward host memory under an entry whose COUNT bit is 1 is counted; a page that reaches the
threshold is posted by HOT_LIST_POST. A full set replaces its entry with the lowest count, which stands in the list at its way's place, the lowest way
first. -/
def State.countAccess (s : State) (ctx : Byte) (va : Nat) : State :=
  if s.fld .AC_CTRL F.AC_CTRL_THRESH == 0 then s
  else
    let page := va / 2 ^ 16
    let same (e : AccCount) : Bool := e.ctx == ctx && e.page == page
    match s.accCounts.find? same with
    | some e => { s with accCounts := s.accCounts.map (fun x => if same x then { e with count := e.count + 1 } else x) }
    | none =>
      let set_ := s.accCounts.filter (fun x => Config.acSet x.ctx x.page == Config.acSet ctx page)
      let victim := set_.foldl (fun (b : Option AccCount) x =>
        match b with
        | some y => if x.count < y.count then some x else some y
        | none => some x) none
      let new : AccCount := ⟨ctx, page, 1⟩
      { s with accCounts :=
          match (if set_.length < 8 then none else victim) with
          | some v => s.accCounts.map (fun x => if x == v then new else x)
          | none => s.accCounts ++ [new] }

/-! ### Loads and writes in flight by name -/

/-- A load of a core by name, with its group's slot. -/
def Core.findLoad (c : Core) (id : Nat) : Option (Option SlotId × PendLoad) :=
  match (List.finRange 32).findSome? (fun i =>
    (c.group i).bind (fun gr => (gr.loads.find? (fun l => l.id == id)).map (fun l => (i, l)))) with
  | some (i, l) => some (some i, l)
  | none => (c.orphanLoads.find? (fun l => l.id == id)).map (fun l => (none, l))

/-- A change of every group and of what ended groups left. -/
def Core.mapAccesses (c : Core) (f : PendLoad → Option PendLoad) (h : PendWrite → Option PendWrite) : Core :=
  { c with
    groups := c.groups.map (fun g =>
      g.map (fun gr => { gr with loads := gr.loads.filterMap f, writes := gr.writes.filterMap h }))
    orphans := c.orphans.filterMap h
    orphanLoads := c.orphanLoads.filterMap f }

def Core.updLoad (c : Core) (id : Nat) (f : PendLoad → Option PendLoad) : Core :=
  c.mapAccesses (fun l => if l.id == id then f l else some l) some

def Core.updWrite (c : Core) (id : Nat) (f : PendWrite → Option PendWrite) : Core :=
  c.mapAccesses some (fun w => if w.id == id then f w else some w)

def Core.findWrite (c : Core) (id : Nat) : Option (Option SlotId × PendWrite) :=
  match (List.finRange 32).findSome? (fun i =>
    (c.group i).bind (fun gr => (gr.writes.find? (fun l => l.id == id)).map (fun l => (i, l)))) with
  | some (i, l) => some (some i, l)
  | none => (c.orphans.find? (fun l => l.id == id)).map (fun l => (none, l))

/-! ### Reports after the check point (R150) -/

/-- A store or a non-fetching atomic is reported: the group halts before its next instruction. -/
def State.reportStore (s : State) (t : TileId) (c : CoreId) (slot : Option SlotId) (r : LateRec) (cause : Nat) : State :=
  match slot with
  | some i => s.updGroup ⟨t, c, i⟩ (fun gr =>
      { gr with late := match gr.late with
          | some x => some x
          | none => some { r with cause := BitVec.ofNat 8 cause } })
  | none => s

/-- A write is refused: it counts as performed and acknowledged, writes nothing and is reported (R379). -/
def State.refuseWrite (s : State) (t : TileId) (c : CoreId) (id : Nat) (cause : Nat) : State :=
  match (s.core t c).findWrite id with
  | some (slot, w) => (s.updCore t c (fun x => x.updWrite id (fun _ => none))).reportStore t c slot w.late cause
  | none => s

/-- Groups of a core that wait for a load become ready once none of their waiting registers depends on one. -/
def Core.readyLoads (c : Core) : Core :=
  c.readyAll (fun gr => gr.wait == some .load && gr.loads.all (fun l => l.live.all (fun x => x.2 == 0)))

/-- The address of the lowest-numbered thread among an access's outstanding lanes that satisfy a condition (R178). -/
def PendLoad.lowestVa (l : PendLoad) (p : Lane → Bool) : Option Word64 :=
  (l.lanes.find? (fun x => x.val.isNone && p x)).map (fun x => x.va)

/-- A load or an atomic is refused: its destination registers are marked, or, when it fetches nothing, the report is a
store's. va is the address that the refused access carried. -/
def State.refuseLoad (s : State) (t : TileId) (c : CoreId) (id : Nat) (cause : Nat) (va : Option Word64) : State :=
  match (s.core t c).findLoad id with
  | some (slot, l) =>
    let r := { l.late with cause := BitVec.ofNat 8 cause, addr := va.getD l.late.addr }
    let s := s.updCore t c (fun x => x.updLoad id (fun _ => none))
    if l.vd == 255 then s.reportStore t c slot r cause
    else
      match slot with
      | some i =>
        (s.updGroup ⟨t, c, i⟩ (fun gr =>
          { gr with marks := gr.marks ++ (l.live.filter (fun x => x.2 != 0)).map (fun x => ⟨x.1, x.2, r⟩) })).updCore t c
          Core.readyLoads
      | none => s
  | none => s

/-! ### Refusals of a slab window (R36, R290, R292) -/

/-- A slab accepts no coherent-plane request: its tile is in scheduled mode, or has begun to switch to it (R36, R37). -/
def State.slabShut (s : State) (n : TileId) : Bool := s.schedMode n || (s.tile n).draining

/-- The report of an access of a context to another agent's slab window: PLANE while the slab accepts no coherent request,
OWNER where the slab refuses the context. -/
def State.slabRefuses (s : State) (n : TileId) (off : Nat) (ctx : Byte) : Option Nat :=
  if s.slabShut n then some 5
  else if !s.slabOwned n ctx off then some 1
  else none

/-! ### Writes -/

/-- A store of single bytes, by their addresses, in a word that has an error and is not replaced whole is dropped
(R616); the answer says whether any was. -/
def State.storeCells (s : State) (cells : List (Nat × Byte)) : State × Bool :=
  let whole (w : Nat) : Bool := (List.range 8).all (fun i => cells.any (fun x => x.1 == w + i))
  let bad (a : Nat) : Bool := s.memUE.contains (a / 8 * 8) && !whole (a / 8 * 8)
  let s' := s.wrCells (cells.filter (fun x => !bad x.1))
  ({ s' with memUE := s.memUE.filter (fun w => !whole w) }, cells.any (fun x => bad x.1))

/-- Byte mask and data of a line write. -/
def lineMask (bytes : List (Nat × Byte)) : Nat :=
  (List.range 64).foldl (fun a i => if bytes.any (fun x => x.1 % 64 == i) then a + 2 ^ i else a) 0

def lineData (bytes : List (Nat × Byte)) : List Byte :=
  (List.range 64).map (fun i => ((bytes.find? (fun x => x.1 % 64 == i)).map (fun x => x.2)).getD 0)

/-- Where a scheduled-plane write goes: its tile, its home slice or its stack (R225, R276). -/
def schedStop (a : Nat) : Stop :=
  match placeOf a with
  | .slab n _ => .tile n
  | .tier1 => .hbm ⟨a / 256 % 8, Nat.mod_lt _ (by decide)⟩
  | _ => .slice (homeSlice a)

/-- The scheduled flit that carries a write of consecutive bytes. -/
def schedWriteFlit (ctx : Byte) (a : Nat) (bytes : List (Nat × Byte)) : SchedFlit where
  stop := schedStop a
  ctx := ctx
  addr := a
  data := bytes.map (fun x => x.2)
  signal := none
  crcOk := true
  collided := false

/-- The scheduled read of tier 1 of an access whose data has come (R226). -/
def State.hbmAt (s : State) (src : HbmSource) (a : Nat) : Option HbmRead :=
  s.home.hbmReads.find? (fun r => r.arrived && r.source == src && r.line == a / 256 * 256)

/-- An access has taken its data. -/
def State.dropHbm (s : State) (src : HbmSource) : State :=
  if s.home.hbmReads.isEmpty then s
  else s.updHome (fun h => { h with hbmReads := h.hbmReads.filter (fun r => !(r.arrived && r.source == src)) })

/-- Writes toward the host ports wait in the block: in the safe state (R520) and, until their release, with twin checking
(R529). -/
def State.holdsWrites (s : State) : Bool := s.twinActive || s.safe

/-- A write toward a host port, or toward a peer on host port 0, is sent (R419). With twin checking it waits for its release
(R529); in the safe state SAFE_DRAIN_DONE discards and counts what waits, and later ones are discarded at once (R520). -/
def State.hostSend (s : State) (p : HostPortId) (ctx : Byte) (src : HostSrc) (bytes : List (Nat × Byte))
    (peer : Bool := false) : State :=
  if s.safe && s.fld .WM_STATE F.WM_STATE_DRAINED == 1 then s.countUp .WM_DISCARD_HOST F.WM_DISCARD_HOST_COUNT
  else
    let hold := s.holdsWrites
    let s := if hold then s else s.emit (if peer then .peerWrite bytes else .hostWrite p bytes)
    if peer && !hold then s
    else
      { s with
        ioNext := s.ioNext + 1
        hostWrites :=
          s.hostWrites ++ [⟨s.ioNext, p, ctx, src, (bytes.head?.map (fun x => x.1)).getD 0, bytes, !hold, peer⟩] }

/-- A write of a core is sent to its target (R379): a slab takes it at once, a home, another chip or a host port answers
it later, and host port 0 accepts a peer write at once. -/
def State.sendWrite (s : State) (t : TileId) (c : CoreId) (sched : Bool) (w : PendWrite) : State :=
  let s := s.updCore t c (fun x => x.updWrite w.id (fun v => some { v with sent := true }))
  let done (s : State) : State := s.updCore t c (fun x => x.updWrite w.id (fun _ => none))
  let fail (s : State) (cause : Nat) : State := s.refuseWrite t c w.id cause
  let coherent : State :=
    let full := lineMask w.bytes == 2 ^ 64 - 1
    match s.cohSend t (.write c w.id) (if full then 0x05 else 0x06) w.ctx { w.tgt with addr := w.tgt.addr / 64 * 64 }
      (lineMask w.bytes) (lineData w.bytes) 0 0 0 0 with
    | some s' => s'
    | none => fail s 3
  let host (p : HostPortId) : State :=
    if s.portOk p w.ctx false then s.hostSend p w.ctx (.write t c w.id) w.bytes else fail s 3
  match w.tgt.cls with
  | .host0 => host 0
  | .host1 => host 1
  | .peer =>
    if s.portOk 0 w.ctx true then
      let s := s.hostSend 0 w.ctx (.write t c w.id) w.bytes true
      if s.holdsWrites then s
      else s.updCore t c (fun x => x.updWrite w.id (fun v => some { v with performed := true }))
    else fail s 3
  | .localMem =>
    if chipOf w.tgt.addr != s.chipId then coherent
    else if sched then s.emit (.schedFlit (schedWriteFlit w.ctx (localOf w.tgt.addr) w.bytes))
    else
      match placeOf (localOf w.tgt.addr) with
      | .slab n off =>
        match s.slabRefuses n off w.ctx with
        | some cause =>
          let s := if cause == 1 then s.ownerRefusal w.ctx (localOf w.tgt.addr) none else s
          fail s cause
        | none =>
          let (s, bad) := s.storeCells (w.bytes.map (fun x => (localOf x.1, x.2)))
          if bad then fail (s.slabUE n (localOf w.tgt.addr / 8 * 8) [w.ctx] 64) 2 else done s
      | _ => coherent

/-- A write of a core becomes performed and acknowledged (R379). -/
def State.writeDone (s : State) (t : TileId) (c : CoreId) (id : Nat) : State :=
  s.updCore t c (fun x => x.updWrite id (fun _ => none))

/-! ### Loads -/

/-- The bytes an access of a size code moves (R166). -/
def szBytes (sz : BitVec 3) : Nat :=
  match sz.toNat with
  | 0 => 1
  | 1 => 1
  | 2 => 2
  | 3 => 2
  | 4 => 4
  | 5 => 8
  | _ => 16

/-- A lane's value with the group's own earlier stores laid over it (R381). -/
def PendLoad.over (l : PendLoad) (a : Target) (bs : List Byte) : Nat :=
  leNat (bs.mapIdx (fun i b => (Assoc.get? l.forward (lineKey a + i)).getD b))

/-- Lanes of a load that lie in a line and have no value yet take it from the line's data. -/
def PendLoad.takeLine (l : PendLoad) (line : Nat) (data : List Byte) : PendLoad :=
  { l with
    lines := l.lines ++ [⟨.localMem, line, data, false⟩]
    lanes := l.lanes.map (fun x =>
      if x.val.isNone && x.tgt.cls == .localMem && x.tgt.addr / 64 * 64 == line then
        { x with val := some (l.over x.tgt ((data.drop (x.tgt.addr % 64)).take (szBytes l.sz))) }
      else x) }

/-- The lanes of an atomic at one location take the values they would have read in thread order (R139). -/
def PendLoad.takeFetched (l : PendLoad) (loc : Target) (vals : List (Nat × Nat)) : PendLoad :=
  { l with lanes := l.lanes.map (fun x =>
      if x.tgt == loc then { x with val := (vals.find? (fun v => v.1 == x.thread)).map (fun v => v.2) } else x) }

/-! ### Atomics (R138, R139, R168) -/

/-- The signed value of the low n bits. -/
def sval (n x : Nat) : Int := if x % 2 ^ n < 2 ^ (n - 1) then (x % 2 ^ n : Nat) else ((x % 2 ^ n : Nat) : Int) - 2 ^ n

/-- One thread's operation on an n-bit value: the operands are the operand, or compare and swap values (R168). -/
def aopApply (aop : BitVec 4) (n old a b : Nat) : Nat :=
  let m := 2 ^ n
  match aop.toNat with
  | 0 => (old + a) % m
  | 1 => if sval n a < sval n old then a % m else old
  | 2 => if a % m < old then a % m else old
  | 3 => if sval n old < sval n a then a % m else old
  | 4 => if old < a % m then a % m else old
  | 5 => Nat.land old (a % m)
  | 6 => Nat.lor old (a % m)
  | 7 => Nat.xor old (a % m)
  | 8 => a % m
  | 9 => if old == a % m then b % m else old
  | 10 => (Fmt.f32.add RM.rne (Fmt.f32.decode old) (Fmt.f32.decode (a % m))).bits % m
  | _ => old

/-- The threads' operations at one location in thread order: the value left, and what each thread fetches (R139). -/
def aopFold (aop : BitVec 4) (n : Nat) : Nat → List Lane → Nat × List (Nat × Nat)
  | old, [] => (old, [])
  | old, x :: r =>
    let (fin, vals) := aopFold aop n (aopApply aop n old x.opA x.opB) r
    (fin, (x.thread, old) :: vals)

/-- The lanes of an atomic at one location, in thread order. -/
def PendLoad.at_ (l : PendLoad) (loc : Target) : List Lane := l.lanes.filter (fun x => x.tgt == loc)

/-- The distinct locations of an access, by lowest thread. -/
def PendLoad.locs (l : PendLoad) : List Target := (l.lanes.map (fun x => x.tgt)).dedup

/-- The bits of an atomic's operand. -/
def PendLoad.bits (l : PendLoad) : Nat := 8 * szBytes l.sz

/-! ### Fetched values -/

/-- One operand with the effect of several threads' operations in thread order, where one exists: every operation but FADD and
CAS combines so (R139). -/
def aopCombine (aop : BitVec 4) (n : Nat) : List Lane → Nat
  | [] => 0
  | x :: r => r.foldl (fun a y => aopApply aop n a y.opA 0) x.opA

/-- Operations that no single operand combines: FADD, which rounds at each step, and CAS. -/
def aopStepwise (aop : BitVec 4) : Bool := aop == 9 || aop == 10

/-- The register words of a value of a size code: 32-bit words, low first; sub-word values extended (R166). -/
def szWords (sz : BitVec 3) (v : Nat) : List Word32 :=
  match sz.toNat with
  | 1 => [BitVec.ofNat 32 (sext64 8 v).toNat]
  | 3 => [BitVec.ofNat 32 (sext64 16 v).toNat]
  | 5 => [BitVec.ofNat 32 v, BitVec.ofNat 32 (v / 2 ^ 32)]
  | 6 => (List.range 4).map (fun i => BitVec.ofNat 32 (v / 2 ^ (32 * i)))
  | _ => [BitVec.ofNat 32 v]

/-- The registers that a load names with the threads that receive them. -/
def liveRegs (vd : Nat) (sz : BitVec 3) (m : Word64) : List (Nat × Word64) :=
  if vd = 255 then [] else (List.range (max 1 (szBytes sz / 4))).map (fun i => (vd + i, m))

/-- A performed load writes the words of the threads that still receive them; a later write to a register has priority
(R108, R119). -/
def Group.deliver (gr : Group) (l : PendLoad) : Group :=
  l.live.foldl (fun gr x =>
    let word (i : Nat) : Word32 :=
      match l.lanes.find? (fun y => y.thread == i) with
      | some y => (szWords l.sz (y.val.getD 0)).getD (x.1 - l.vd) 0
      | none => 0
    gr.wrV x.1 x.2 word) { gr with loads := gr.loads.filter (fun y => y.id != l.id) }

/-- Every lane has its value. -/
def PendLoad.complete (l : PendLoad) : Bool := l.lanes.all (fun x => x.val.isSome)

/-- A load of a core is performed (R380): its registers are written, and groups that waited for it become ready. -/
def State.loadDone (s : State) (t : TileId) (c : CoreId) (id : Nat) : State :=
  match (s.core t c).findLoad id with
  | some (some i, l) =>
    let active := (s.core t c).isActive i
    (s.updGroup ⟨t, c, i⟩ (fun gr =>
      let x := gr.deliver l
      if active then x else { x with cache := [] })).updCore t c Core.readyLoads
  | some (none, _) => s.updCore t c (fun x => x.updLoad id (fun _ => none))
  | none => s

/-- An atomic that fetches nothing is performed as soon as all of its locations are. -/
def State.atomicProgress (s : State) (t : TileId) (c : CoreId) (id : Nat) : State :=
  match (s.core t c).findLoad id with
  | some (slot, l) => if l.complete && (l.vd == 255 || slot.isNone) then s.loadDone t c id else s
  | none => s

/-! ### The atomic store of a tile (R348, R349) -/

/-- An atomic performed at one location of a held line. -/
def State.storeAtomic (s : State) (t : TileId) (c : CoreId) (l : PendLoad) (loc : Target) : State :=
  let line := loc.addr / 64 * 64
  let n := szBytes l.sz
  match (s.tile t).atoms.find? (fun x => x.addr == line && !x.evicting && !x.shared) with
  | some a =>
    let old := leNat ((a.bytes.drop (loc.addr % 64)).take n)
    let (fin, vals) := aopFold (l.atomic.getD 0) l.bits old (l.at_ loc)
    let bytes := a.bytes.take (loc.addr % 64) ++ leBytes n fin ++ a.bytes.drop (loc.addr % 64 + n)
    let s := s.updTile t (fun x =>
      { x with atoms := { a with bytes := bytes, dirty := true } :: x.atoms.erase a })
    s.updCore t c (fun x => x.updLoad l.id (fun v => some (v.takeFetched loc vals)))
  | none => s

/-- The eviction of a line of the atomic store leaves the tile; the line stays until it is acknowledged (R359). -/
def State.evictAtom (s : State) (t : TileId) (a : AtomLine) : State :=
  let s := s.updTile t (fun x => { x with atoms := x.atoms.map (fun y => if y.addr == a.addr then { y with evicting := true } else y) })
  let tgt : Target := ⟨.localMem, a.addr, .normal⟩
  (s.cohSend t .evict (if a.dirty then 0x09 else 0x08) a.ctx tgt 0 (if a.dirty then a.bytes else []) 0 0 0 0).getD s

/-- A line enters the atomic store over the least recently used one (R348). -/
def State.fillAtom (s : State) (t : TileId) (line : Nat) (ctx : Byte) (bytes : List Byte) (dirty : Bool) : State :=
  let live := (s.tile t).atoms.filter (fun x => !x.evicting)
  let s := if live.length < 32 then s
    else match live.getLast? with
      | some v => s.evictAtom t v
      | none => s
  s.updTile t (fun x => { x with atoms := ⟨line, ctx, bytes, dirty, false, false⟩ :: x.atoms.filter (fun y => !(y.addr == line && y.shared)) })

/-- Whether an open-mode atomic at a location is performed in the tile's atomic store (R348). -/
def State.usesStore (s : State) (loc : Target) : Bool :=
  loc.cls == .localMem && loc.typ == .normal && chipOf loc.addr == s.chipId &&
  (match placeOf (localOf loc.addr) with
   | .tier1 => !s.rotLocked (localOf loc.addr)
   | .tier2 _ => true
   | _ => false)

/-! ### Sending loads and atomics -/

/-- A lane's request has been sent. -/
def PendLoad.markSent (l : PendLoad) (p : Lane → Bool) : PendLoad :=
  { l with lanes := l.lanes.map (fun x => if p x then { x with sent := true } else x) }

/-- A lane of a stepwise atomic at another chip waits for an earlier lane of its location (R139). DESIGN CHOICE (log entry 117):
the request carries one operation, so these threads' operations go one at a time, in thread order. -/
def State.lanePasses (s : State) (l : PendLoad) (x : Lane) : Bool :=
  !(l.atomic.any aopStepwise && x.tgt.cls == .localMem && chipOf x.tgt.addr != s.chipId &&
    l.lanes.any (fun y => y.tgt == x.tgt && y.sent && y.val.isNone))

/-- ATOMIC for a location toward its home (R139, R359): the combined operation of the lanes that are being sent. -/
def State.atomicRequest (s : State) (t : TileId) (c : CoreId) (l : PendLoad) (loc : Target) : Option State :=
  let aop := l.atomic.getD 0
  let lanes := (l.at_ loc).filter (fun x => x.val.isNone)
  let x := lanes.headD default
  s.cohSend t (.atomic c l.id) 0x07 l.ctx loc 0 [] aop l.sz
    (if aopStepwise aop then x.opA else aopCombine aop l.bits lanes) x.opB

/-- One location of an atomic, or one line or lane of a load, is sent (R36, R267, R348, R359, R421). A refusal to send is
reported. -/
def State.sendLane (s : State) (t : TileId) (c : CoreId) (sched : Bool) (l : PendLoad) (loc : Target)
    (thread : Option Nat) : State :=
  let line : Target := { loc with addr := loc.addr / 64 * 64 }
  let va := ((l.lanes.find? (fun x => x.tgt == loc)).map (fun x => x.va))
  let fail (s : State) (cause : Nat) : State := s.refuseLoad t c l.id cause va
  let remote := loc.cls == .localMem && chipOf loc.addr != s.chipId
  let one := remote && l.atomic.any aopStepwise
  let first := ((l.lanes.find? (fun y => y.tgt == loc && !y.sent && y.val.isNone)).map (fun y => y.thread)).getD 0
  let sent (s : State) : State := s.updCore t c (fun x => x.updLoad l.id (fun v => some (v.markSent (fun y =>
    y.tgt == loc && (if one then y.thread == first else l.atomic.isSome || thread.isNone || thread == some y.thread)))))
  let whole := l.atomic.isNone && loc.typ == .normal
  let at_ := if whole then line.addr else loc.addr
  let n := if whole then 64 else szBytes l.sz
  let asked := whole && l.lanes.any (fun x => x.sent && x.tgt.cls == loc.cls && x.tgt.addr / 64 == loc.addr / 64)
  let owned := l.atomic.isSome && l.lanes.any (fun x => x.sent && x.tgt.cls == loc.cls && x.tgt.addr / 64 == loc.addr / 64)
  let host (p : HostPortId) : State :=
    if asked || owned then sent s
    else if s.portOk p l.ctx false then
      (sent s).emit (if l.atomic.isSome then .hostOwn p line.addr else .hostRead p at_ n)
    else fail s 3
  match loc.cls with
  | .host0 => host 0
  | .host1 => host 1
  | .peer =>
    if asked || owned then sent s
    else if s.portOk 0 l.ctx true then
      (sent s).emit (if l.atomic.isSome then .peerRead line.addr 64 else .peerRead at_ n)
    else fail s 3
  | .localMem =>
    let slabOff := match placeOf (localOf loc.addr) with
      | .slab n off => some (n, off)
      | _ => none
    if !remote && (sched || slabOff.isSome) then
      match slabOff with
      | some (n, off) => if !sched && s.slabRefuses n off l.ctx == some 5 then fail s 5 else sent s
      | none => sent s
    else
      match l.atomic with
      | none =>
        if (s.tile t).reqs.any (fun r => r.kind == .load c l.id && r.addr == line.addr) then sent s
        else
          match s.cohSend t (.load c l.id) 0x04 l.ctx line 0 [] 0 0 0 0 with
          | some s' => sent s'
          | none => fail s 3
      | some _ =>
        if s.usesStore loc then
          if (s.tile t).atoms.any (fun x => x.addr == line.addr && !x.evicting && !x.shared) then (sent s).storeAtomic t c l loc
          else if (s.tile t).reqs.any (fun r => r.kind == .acquire && r.addr == line.addr) then sent s
          else ((sent s).cohSend t .acquire 0x02 l.ctx line 0 [] 0 0 0 0).getD s
        else
          match s.atomicRequest t c l loc with
          | some s' => sent s'
          | none => fail s 3

/-! ### DEVICE order (R389) -/

/-- The endpoint of an access (R389). -/
def endpoint (s : State) (a : Target) : Nat :=
  match a.cls with
  | .host0 => 1000
  | .host1 => 1001
  | .peer => 1000
  | .localMem =>
    if chipOf a.addr != s.chipId then 2000 + (((s.linkTo (chipOf a.addr)).map (fun l => l.val)).getD 36)
    else
      match placeOf (localOf a.addr) with
      | .slab n _ => 3000 + n.val
      | .tier1 => if s.rotLocked (localOf a.addr) then 4000 + localOf a.addr / 256 % 8 else (homeSlice (localOf a.addr)).val
      | _ => (homeSlice (localOf a.addr)).val

/-- An item put into its place of a list that rises by a key, before its equals. -/
def insertBy {α : Type} (key : α → Nat) (x : α) : List α → List α
  | [] => [x]
  | y :: r => if key x ≤ key y then x :: y :: r else y :: insertBy key x r

/-- The DEVICE accesses of a group that are not performed, in program order: name, thread, target, whether sent. -/
def Group.devices (gr : Group) : List (Nat × Nat × Target × Bool) :=
  let ls := gr.loads.flatMap (fun (l : PendLoad) => (l.lanes.filter (fun (x : Lane) => x.tgt.typ == .device && x.val.isNone)).map
      (fun (x : Lane) => (l.id, x.thread, x.tgt, x.sent)))
  let ws := (gr.writes.filter (fun (w : PendWrite) => w.tgt.typ == .device && !w.performed)).map
      (fun (w : PendWrite) => (w.id, 0, w.tgt, w.sent))
  (ls ++ ws).foldr (insertBy (fun x => 64 * x.1 + x.2.1)) []

/-- Unsent accesses of a group are sent: those that are not DEVICE at once, DEVICE ones in program order, each after the
previous one is performed unless they share an endpoint (R389). -/
def State.sendOpen : Nat → State → GroupId → Bool → State
  | 0, s, _, _ => s
  | fuel + 1, s, g, sched =>
    match s.group g with
    | none => s
    | some gr =>
      let other : Option (PendLoad × Target) := gr.loads.findSome? (fun l =>
        (l.lanes.find? (fun x => x.tgt.typ != .device && !x.sent && x.val.isNone && s.lanePasses l x)).map (fun x => (l, x.tgt)))
      let otherW := gr.writes.find? (fun w => w.tgt.typ != .device && !w.sent)
      let ds := gr.devices
      let busy := (ds.filter (fun d => d.2.2.2)).map (fun d => endpoint s d.2.2.1)
      let dev := (ds.find? (fun d => !d.2.2.2)).bind (fun d =>
        if busy.all (fun e => e == endpoint s d.2.2.1) then some d else none)
      match other, otherW, dev with
      | some (l, loc), _, _ => (s.sendLane g.tile g.core sched l loc none).sendOpen fuel g sched
      | none, some w, _ => (s.sendWrite g.tile g.core sched w).sendOpen fuel g sched
      | none, none, some d =>
        match gr.loads.find? (fun l => l.id == d.1), gr.writes.find? (fun w => w.id == d.1) with
        | some l, _ =>
          if (l.lanes.find? (fun x => x.thread == d.2.1)).all (s.lanePasses l) then
            (s.sendLane g.tile g.core sched l d.2.2.1 (some d.2.1)).sendOpen fuel g sched
          else s
        | none, some w => (s.sendWrite g.tile g.core sched w).sendOpen fuel g sched
        | none, none => s
      | none, none, none => s

/-- What a group can send now is sent. -/
def State.pump (s : State) (g : GroupId) : State :=
  match s.group g with
  | some gr =>
    let n := gr.loads.foldl (fun a l => a + l.lanes.length) gr.writes.length
    s.sendOpen (n + 1) g (((s.tile g.tile).kernel.map (fun k => k.sched)).getD false)
  | none => s

/-- Every group of a core sends what it can. -/
def State.pumpCore (s : State) (t : TileId) (c : CoreId) : State :=
  (List.finRange 32).foldl (fun s i => s.pump ⟨t, c, i⟩) s

/-! ### The merge buffer (R388) -/

/-- Runs of consecutive bytes, each with its lowest address: what one scheduled-plane flit can carry (R25). -/
def byteRuns : List (Nat × Byte) → List (List (Nat × Byte))
  | [] => []
  | x :: r =>
    match byteRuns r with
    | (y :: run) :: rest => if x.1 + 1 == y.1 then (x :: y :: run) :: rest else [x] :: (y :: run) :: rest
    | rest => [x] :: rest

/-- An entry of the merge buffer is sent: one write of the bytes it holds, or, in scheduled mode, one for each run of consecutive
bytes; its stores' groups wait for them at a fence. -/
def State.sendMerge (s : State) (t : TileId) (c : CoreId) (e : MergeEntry) : State :=
  let sched := ((s.tile t).kernel.map (fun k => k.sched)).getD false
  let s := match e.count with
    | some va => s.countAccess e.ctx va
    | none => s
  let send (s : State) (run : List (Nat × Byte)) : State :=
    let x := s.core t c
    let at_ := if sched then ((run.head?.map (fun b => b.1)).getD e.tgt.addr) else e.tgt.addr
    let w : PendWrite :=
      { id := x.nextId, ctx := e.ctx, tgt := { e.tgt with addr := at_ }, bytes := run, sent := false, performed := false
        acked := false, late := e.late, barrier := none }
    let x := { x with nextId := x.nextId + 1 }
    let x := match e.slots with
      | i :: _ =>
        match x.group i with
        | some gr => x.setGroup i (some { gr with writes := gr.writes ++ [w] })
        | none => { x with orphans := x.orphans ++ [w] }
      | [] => { x with orphans := x.orphans ++ [w] }
    (s.updCore t c (fun _ => x)).sendWrite t c sched w
  (if sched then byteRuns e.bytes else [e.bytes]).foldl send
    (s.updCore t c (fun x => { x with merge := x.merge.erase e }))

/-- Every entry that satisfies a condition is sent. -/
def State.sendMerges (s : State) (t : TileId) (c : CoreId) (p : MergeEntry → Bool) : State :=
  (s.core t c).merge.foldl (fun s e => if p e then s.sendMerge t c e else s) s

end Sys2Proof.Machine
end

