-- ==== Sys2Proof/Machine/Ports.lean ====
section
/-! DEFINITION. What other units use of the host ports: MSI-X (R425, R426), PME (R428), viral (R424, R473), refusals of host
requests (R423), and the revocation of a context (R432). -/

namespace Sys2Proof.Machine

/-! ### Functions -/

def State.func (s : State) (f : FunctionId) : Func :=
  match f with
  | .pf0 => s.pf0
  | .companion => s.companion
  | .vf k => s.vfs[k.val]'(k.isLt)

def State.updFunc (s : State) (f : FunctionId) (g : Func → Func) : State :=
  match f with
  | .pf0 => { s with pf0 := g s.pf0 }
  | .companion => { s with companion := g s.companion }
  | .vf k => { s with vfs := s.vfs.set k.val (g (s.func f)) k.isLt }

/-- The port shows the function (R405). -/
def State.funcShown (s : State) (f : FunctionId) : Bool :=
  match f with
  | .vf k => s.pf0.vfEnable && 1 ≤ k.val && k.val ≤ s.pf0.numVfs
  | _ => true

/-- A function's BARs are open: it is shown, its Memory Space Enable is 1, and it is in D0 with no reset of it running (R405,
R412, R432). -/
def State.funcOpen (s : State) (f : FunctionId) : Bool :=
  s.funcShown f && (s.func f).memSpace && !(s.func f).d3 && !(s.func f).flr

/-! ### MSI-X (R426) -/

/-- A vector can be sent: MSI-X is enabled, neither the function nor the vector is masked, and the function is in D0. -/
def Func.sendable (f : Func) (v : Nat) : Bool := f.msixEnable && !f.msixMask && !f.d3 && f.unmasked.contains v

/-- A message leaves: on host port 0 (R426); in the safe state it does not (R520); with twin checking it waits for its release
(R525). -/
def State.sendMsix (s : State) (f : FunctionId) (v : Nat) : State :=
  if s.safe then s.countUp .WM_DISCARD_HOST F.WM_DISCARD_HOST_COUNT
  else if s.twinActive then { s with twin := { s.twin with msix := s.twin.msix ++ [(f, v)] } }
  else s.emit (.msix f v)

/-- A vector is requested: sent, or made pending; a vector that is pending already adds no message. -/
def State.msixNow (s : State) (f : FunctionId) (v : Nat) : State :=
  if (s.func f).pend.contains v then s
  else if (s.func f).sendable v then s.sendMsix f v
  else s.updFunc f (fun x => { x with pend := x.pend ++ [v] })

/-- A unit requests a vector after writes of its own, by name: it waits for those that are not performed (R426). -/
def State.msixAfter (s : State) (f : FunctionId) (v : Nat) (own : HostWr → Bool) : State :=
  let ids := (s.hostWrites.filter own).map (fun w => w.id)
  if ids.isEmpty then s.msixNow f v else { s with msixWait := s.msixWait ++ [⟨f, v, ids⟩] }

/-- A unit of the block names a vector of PF0 (R425). -/
def State.notify (s : State) (v : Nat) : State := s.msixAfter .pf0 v (fun w => w.src == .block)

/-- Requests whose writes are all performed go on. -/
def State.msixProgress (s : State) : State :=
  let settled (m : MsixWait) : Bool := m.after.all (fun i => !s.hostWrites.any (fun w => w.id == i))
  (s.msixWait.filter settled).foldl (fun s m => s.msixNow m.function m.vector)
    { s with msixWait := s.msixWait.filter (fun m => !settled m) }

/-- Pending vectors of a function that have become sendable are sent once each. -/
def State.msixFlush (s : State) (f : FunctionId) : State :=
  let x := s.func f
  (x.pend.filter x.sendable).foldl (fun s v => s.sendMsix f v)
    (s.updFunc f (fun y => { y with pend := y.pend.filter (fun v => !x.sendable v) }))

/-! ### Wake and viral -/

/-- A wake event: in D3hot with PME_En, PME_Status is set and PM_PME leaves on host port 0 (R428). -/
def State.wake (s : State) : State :=
  if s.pf0.d3 && s.pf0.pmeEn then ({ s with pf0 := { s.pf0 with pmeStatus := true } }).emit (.port 0 .pme) else s

/-- Viral is raised on a host port (R424). -/
def State.portViral (s : State) (p : HostPortId) : State :=
  let s := if p.val = 0 then { s with pf0 := { s.pf0 with viralStatus := true } }
    else { s with companion := { s.companion with viralStatus := true } }
  (((s.setFld (.PG_STATUS p.val) F.PG_STATUS_VIRAL_TX 1).setFld (.PG_STATUS p.val) F.PG_STATUS_VIRAL_SEEN 1).wmEvent
    (71 + 5 * p.val) [] none).emit (.port p.val .viral)

/-- Viral is raised on an engine slot (R473). -/
def State.engineViral (s : State) (e : EngineId) : State :=
  (s.setFld (.ES_STATUS e.val) F.ES_STATUS_VIRAL_TX 1).emit (.engine e .viral)

/-! ### Refusals of host requests (R423) -/

/-- A refused host request is counted, the first is recorded, and the port's source is raised; cause as HP_REFFIRST has
it. -/
def State.hostRefuse (s : State) (p : HostPortId) (cause line : Nat) : State :=
  let s := s.countUp .HP_REFUSE F.HP_REFUSE_COUNT
  let s := if s.fld .HP_REFFIRST F.HP_REFFIRST_VALID == 1 then s
    else (((s.setFld .HP_REFFIRST F.HP_REFFIRST_VALID 1).setFld .HP_REFFIRST F.HP_REFFIRST_PORT p.val).setFld
      .HP_REFFIRST F.HP_REFFIRST_CAUSE cause).setFld .HP_REFFIRST F.HP_REFFIRST_LINE (line / 64)
  s.wmEvent (72 + 5 * p.val) [] none

/-! ### Revocation -/

/-- The function of a context's entry. -/
def State.ctxFunction (s : State) (c : Byte) : FunctionId :=
  let n := s.fld (.CTX_ENTRY1 c.toNat) F.CTX_ENTRY1_FUNCTION
  if n = 0 then .pf0 else .vf ⟨n % 64, Nat.mod_lt _ (by decide)⟩

/-- The contexts whose function satisfies a condition. -/
def State.contextsOf (s : State) (p : FunctionId → Bool) : List Byte :=
  ((List.range 255).map (fun i => BitVec.ofNat 8 (i + 1))).filter (fun c => s.ctxValid c && p (s.ctxFunction c))

/-- VF_STATUS.REVOKED: any context of VF k is revoked (R411). -/
def State.vfRevoked (s : State) (k : Fin 64) : Bool := (s.contextsOf (fun f => f == .vf k)).any (fun c => s.revoked c)

/-- HF_REVOKED of a context set or cleared (R432). -/
def State.setRevoked (s : State) (c : Byte) (v : Bool) : State :=
  let r := Reg.HF_REVOKED (c.toNat / 32)
  let bit : Word64 := BitVec.ofNat 64 (2 ^ (c.toNat % 32))
  s.wr r (if v then s.rd r ||| bit else s.rd r &&& ~~~ bit)

end Sys2Proof.Machine
end

