-- ==== Sys2Proof/Machine/VecCtrl.lean ====
section
/-! DEFINITION. Control of a group (R128 to R136, R170): branches, EXIT, the block barrier, TRAP; and the events of the
active set, of blocks and of the instruction cache (R121, R122, R126, R143). -/

namespace Sys2Proof.Machine

/-- An instruction without v operands: its opcode, then its own well-formedness, then its effect. -/
def State.control (s : State) (g : GroupId) (w : Word64) (opc : Nat) (guard legal : Bool)
    (go : State → Group → Kernel → State) : State :=
  if vOPC w == opc then
    s.issue g w (fun s gr k =>
      s.operands g gr k w (guardOk w guard && !vKA w && !vKB w && !vKC w && legal) [] [] [] (fun gr => go s gr k))
  else s

/-- The branch offset of formats V-B and V-U, in bytes (R152, R158, R170). -/
def vOFF (w : Word64) : Word64 := sext64 24 (bitsOf w 23 0) * 8

/-- The reconvergence offset of format V-B, in bytes (R158, R170). -/
def vRPC (w : Word64) : Word64 := sext64 20 (bitsOf w 43 24) * 8

/-- UA and COND of format V-U (R158). -/
def vUUA (w : Word64) : Nat := bitsOf w 47 42
def vCOND (w : Word64) : Nat := bitsOf w 41 39

/-! ### The end of a group -/

/-- The barrier of a block is released: every waiting group of the block becomes ready (R136), and the writes that its groups
issued before they arrived are visible to all of them (R137): those in flight carry the block's number from now on, the writes
of groups that have ended since the block started. -/
def Core.releaseBarrier (c : Core) (blockSlot : Nat) : Core :=
  let block := (List.finRange 32).findSome? (fun i => (c.group i).bind (fun x =>
    if x.blockSlot == blockSlot then some x.block else none))
  let c := c.readyAll (fun x => x.blockSlot == blockSlot && x.wait == some .barrier)
  { c with groups := c.groups.map (fun g => g.map (fun x =>
      if x.blockSlot == blockSlot then { x with writes := x.writes.map (fun w => { w with barrier := block }) } else x)) }

/-- Whether every resident group of the block but the excepted one has arrived (R136); groups that have ended are not
resident and count as arrived. -/
def Core.allArrived (c : Core) (blockSlot : Nat) (except : SlotId) : Bool :=
  (List.finRange 32).all (fun i =>
    match c.group i with
    | some x => x.blockSlot != blockSlot || i == except || x.wait == some .barrier
    | none => true)

/-- Whether a group of the block is resident. -/
def Core.hasBlock (c : Core) (blockSlot : Nat) : Bool :=
  (List.finRange 32).any (fun i =>
    match c.group i with
    | some x => x.blockSlot == blockSlot
    | none => false)

/-- A block slot freed (R123). -/
def Core.freeBlock (c : Core) (j : Nat) : Core :=
  if h : j < 8 then { c with blocks := c.blocks.set j none h } else c

/-- A group whose last thread exited ends (R106, R123, R136): its flags go to VC_FLAGS, its slots and rows are free, its
writes in flight stay with the core, and it counts as arrived at the barrier: what it wrote is visible to its block (R137). -/
def State.endGroup (s : State) (g : GroupId) (gr : Group) : State :=
  let s := s.orReg (.VC_FLAGS g.tile.val g.core.val) (gr.fflags.setWidth 64)
  s.updCore g.tile g.core (fun c =>
    let c := { (c.deactivate g.slot).setGroup g.slot none with
      orphans := c.orphans ++ gr.writes.map (fun (w : PendWrite) => { w with barrier := some gr.block })
      orphanLoads := c.orphanLoads ++ gr.loads.filter (fun (l : PendLoad) => l.atomic.isSome)
      merge := c.merge.map (fun (e : MergeEntry) => { e with slots := e.slots.filter (fun i => i != g.slot) }) }
    if !c.hasBlock gr.blockSlot then c.freeBlock gr.blockSlot
    else if c.allArrived gr.blockSlot g.slot then c.releaseBarrier gr.blockSlot
    else c)

/-- The group after an instruction that may have ended it. -/
def State.finishOrEnd (s : State) (g : GroupId) (gr : Group) : State :=
  if gr.mask == 0 && gr.stack.isEmpty then s.endGroup g gr else s.setGroup g (some gr)

/-! ### Instructions -/

/-- EXIT removes the taking-part threads (R132). -/
def execExit (g : GroupId) (w : Word64) (s : State) : Host.Outcome State Fault Refusal :=
  s.commit (fun s => s.control g w 0x71 true (bitsOf w 47 0 == 0) (fun s gr _ =>
    let gr' := gr.exitThreads (gr.taking w)
    s.finishOrEnd g (if gr'.mask == 0 then gr'.settle else gr'.next)))

/-- BAR.BLK: the group arrives; the last arrival releases the barrier (R135, R136). -/
def execBarBlk (g : GroupId) (w : Word64) (s : State) : Host.Outcome State Fault Refusal :=
  s.commit (fun s => s.control g w 0x70 false (bitsOf w 47 0 == 0) (fun s gr k =>
    if !gr.stack.isEmpty || gr.mask != ~~~gr.exited then s.excPlain g gr k w Exc.DIVERGENT_BARRIER
    else
      let s' := s.setGroup g (some gr.next)
      s'.updCore g.tile g.core (fun c =>
        if c.allArrived gr.blockSlot g.slot then c.releaseBarrier gr.blockSlot else c.leave g.slot .barrier)))

/-- BRA: a branch on a per-thread predicate, which may split (R128, R170). -/
def execBra (g : GroupId) (w : Word64) (s : State) : Host.Outcome State Fault Refusal :=
  s.commit (fun s => s.control g w 0x72 false true (fun s gr _ =>
    let p := gr.rdP (bitsOf w 46 44)
    let taken := if bitOf w 47 then ~~~p else p
    s.setGroup g (some (gr.branchSplit taken (gr.pc + vRPC w) (gr.pc + vOFF w)))))

/-- BRA.U: a branch when uUA cond 0 (R170). -/
def execBraU (g : GroupId) (w : Word64) (s : State) : Host.Outcome State Fault Refusal :=
  s.commit (fun s => s.control g w 0x73 false (bitsOf w 38 24 == 0) (fun s gr _ =>
    s.setGroup g (some (if intCondU (vCOND w) (gr.rdU (vUUA w)) then gr.branch (gr.pc + vOFF w) else gr.next))))
where
  /-- The integer conditions of R163 against 0. -/
  intCondU (c : Nat) (a : Word64) : Bool :=
    match c with
    | 0 => a == 0
    | 1 => a != 0
    | 2 => a.slt 0
    | 3 => a.sle 0
    | 4 => (0 : Word64).slt a
    | 5 => (0 : Word64).sle a
    | 6 => false
    | _ => true

def execJmp (g : GroupId) (w : Word64) (s : State) : Host.Outcome State Fault Refusal :=
  s.commit (fun s => s.control g w 0x74 false (bitsOf w 47 24 == 0) (fun s gr _ =>
    s.setGroup g (some (gr.branch (gr.pc + vOFF w)))))

/-- JAL.U: uUA := branch address + 8, then the jump (R170). -/
def execJalU (g : GroupId) (w : Word64) (s : State) : Host.Outcome State Fault Refusal :=
  s.commit (fun s => s.control g w 0x75 false (bitsOf w 41 24 == 0) (fun s gr _ =>
    s.setGroup g (some ((gr.wrU (vUUA w) (gr.pc + 8)).branch (gr.pc + vOFF w)))))

/-- JR.U: a jump to uUA; a misaligned target faults when it is fetched (R170). -/
def execJrU (g : GroupId) (w : Word64) (s : State) : Host.Outcome State Fault Refusal :=
  s.commit (fun s => s.control g w 0x76 false (bitsOf w 41 0 == 0) (fun s gr _ =>
    s.setGroup g (some (gr.branch (gr.rdU (vUUA w))))))

/-- TRAP raises TRAP; ADDR of the record holds the code (R170, R178). With no thread taking part it raises nothing
(R157). -/
def execTrap (g : GroupId) (w : Word64) (s : State) : Host.Outcome State Fault Refusal :=
  s.commit (fun s => s.control g w 0x77 true (bitsOf w 47 16 == 0) (fun s gr k =>
    if gr.taking w == 0 then s.finish g gr
    else
      s.takeException g gr k
        { code := Exc.TRAP, cause := 0, fetch := false, write := false, atomic := false, pc := gr.pc
          addr := BitVec.ofNat 64 (bitsOf w 15 0), failMask := gr.taking w, active := gr.mask, word := w }))

def execNop (g : GroupId) (w : Word64) (s : State) : Host.Outcome State Fault Refusal :=
  s.commit (fun s => s.control g w 0x7E false (bitsOf w 47 0 == 0) (fun s gr _ => s.finish g gr))

/-- L1INV invalidates the core's L1 data cache (R142). -/
def execL1inv (g : GroupId) (w : Word64) (s : State) : Host.Outcome State Fault Refusal :=
  s.commit (fun s => s.control g w 0x4B false (bitsOf w 47 0 == 0) (fun s gr _ =>
    (s.finish g gr).updCore g.tile g.core (fun c => { c with l1d := [] })))

/-! ### Active slots -/

/-- The pending group that became ready earliest, the lower resident slot first (R122). -/
def Core.earliestReady (c : Core) : Option SlotId :=
  (List.finRange 32).foldl (fun best i =>
    match c.group i with
    | some x =>
      match x.readyAt with
      | some t =>
        if x.halted || c.isActive i then best
        else
          match best with
          | some j =>
            match c.group j with
            | some y => if t < y.readyAt.getD 0 then some i else best
            | none => some i
          | none => some i
      | none => best
    | none => best) none

/-- The lowest free active slot. -/
def Core.freeActive (c : Core) : Option (Fin 8) := (List.finRange 8).find? (fun i => (c.active[i]).isNone)

/-- One free active slot is filled by the pending group that became ready earliest (R122). -/
def Core.fillSlot (c : Core) : Core :=
  match c.freeActive, c.earliestReady with
  | some i, some j =>
    match c.group j with
    | some x =>
      { c.setGroup j (some { x with readyAt := none, cache := [] }) with active := c.active.set i.val (some j) i.isLt }
    | none => c
  | _, _ => c

/-- ACTIVE_SLOT_FILL (R122). -/
def execActiveSlotFill (t : TileId) (c : CoreId) (s : State) : Host.Outcome State Fault Refusal :=
  s.commit (fun s => if s.tileHolds t then s else s.updCore t c Core.fillSlot)

/-- GROUP_TIMESLICE (R121): the group, which has just taken a backward branch, leaves its active slot when a pending group is
ready, and is ready at once. -/
def execGroupTimeslice (g : GroupId) (s : State) : Host.Outcome State Fault Refusal :=
  s.commit (fun s => if s.tileHolds g.tile then s else s.updCore g.tile g.core (fun c =>
    match c.group g.slot with
    | some gr =>
      if c.isActive g.slot && gr.back && gr.wait.isNone && c.earliestReady.isSome then
        ((c.deactivate g.slot).setGroup g.slot (some { gr with readyAt := some c.clock, cache := [] })).tick
      else c
    | none => c))

/-! ### Blocks -/

/-- Rows that each group of a kernel is allocated (R105). -/
def Kernel.alloc (k : Kernel) : Nat := 8 * ((k.vregs + 7) / 8)

/-- The terms of R125 on core q: registers, local memory (none when LOCAL is 0), group slots, block slots. -/
def Kernel.blockTerms (k : Kernel) (q : CoreId) : List (Nat × Nat) :=
  [(1, 1024 / (k.g * k.alloc))] ++
  (if k.localUnits = 0 then [] else [(2, k.poolSize[q] / k.localUnits)]) ++
  [(3, 32 / k.g), (4, 8)]

/-- B of R125. -/
def Kernel.blockLimit (k : Kernel) (q : CoreId) : Nat := (k.blockTerms q).foldl (fun m x => min m x.2) 8

/-- The LIMIT code: the lowest term that equals B (R151). -/
def Kernel.limitTerm (k : Kernel) (q : CoreId) : Nat :=
  ((k.blockTerms q).find? (fun x => x.2 == k.blockLimit q)).elim 4 (fun x => x.1)

/-- A group at its start (R104, R193). -/
def Kernel.newGroup (k : Kernel) (block slot num clock : Nat) : Group where
  block := block
  num := num
  blockSlot := slot
  v := List.replicate k.alloc Row.zero
  u := ((((Vector.replicate 64 (0 : Word64)).set 0 k.arg0).set 1 k.arg1).set 2 (BitVec.ofNat 64 block)).set 3
    (BitVec.ofNat 64 k.desc)
  p := Vector.replicate 8 0
  tok := Vector.replicate 16 ⟨true, 1⟩
  pc := k.entry
  mask := BitVec.allOnes 64
  stack := []
  exited := 0
  fflags := 0
  halted := false
  wait := none
  readyAt := some clock
  loads := []
  writes := []
  marks := []
  late := none
  rfUE := []
  cache := []
  back := false

/-- The free resident slots, ascending. -/
def Core.freeSlots (c : Core) : List SlotId := (List.finRange 32).filter (fun i => (c.group i).isNone)

/-- The lowest free block slot below B. -/
def Core.freeBlockSlot (c : Core) (b : Nat) : Option (Fin 8) :=
  (List.finRange 8).find? (fun j => j.val < b && (c.blocks[j]).isNone)

/-- Whether the core can start the kernel's next block: a block slot, resident slots and rows are free (R125, R126). -/
def Core.canStart (c : Core) (k : Kernel) (q : CoreId) : Bool :=
  c.nextBlock < k.nblocks && (c.freeBlockSlot (k.blockLimit q)).isSome && k.g ≤ c.freeSlots.length

/-- The core starts its next block in the lowest free slots (R126). Blocks of core q are q, q + 4, q + 8 and so on. -/
def Core.startBlock (c : Core) (k : Kernel) (q : CoreId) : Core :=
  match c.freeBlockSlot (k.blockLimit q) with
  | some j =>
    if c.canStart k q then
      let b := c.nextBlock
      let c' := ((c.freeSlots.take k.g).zipIdx).foldl (fun (c : Core) x =>
        c.setGroup x.1 (some (k.newGroup b j.val x.2 c.clock))) c
      { c'.tick with blocks := c.blocks.set j.val (some b) j.isLt, nextBlock := b + 4 }
    else c
  | none => c

/-- BLOCK_START (R126); a failed kernel starts none of its remaining blocks (R197). -/
def execBlockStart (t : TileId) (c : CoreId) (s : State) : Host.Outcome State Fault Refusal :=
  s.commit (fun s =>
    match (s.tile t).kernel with
    | some k => if k.started && !k.failed && !s.tileHolds t then s.updCore t c (fun x => x.startBlock k c) else s
    | none => s)

/-! ### The instruction cache -/

/-- The cache with a line filled: 4 ways of 32 sets, the least recently used line of the set replaced (R143). DESIGN CHOICE (log
entry 115): a line's set is its address / 256 mod 32. -/
def iFill (ls : List ILine) (l : ILine) : List ILine :=
  let set_ (x : ILine) : Nat := x.addr / 256 % 32
  let rest := ls.filter (fun x => x.addr != l.addr)
  let same := rest.filter (fun x => set_ x == set_ l)
  let drop := if same.length < 4 then [] else same.drop 3
  l :: rest.filter (fun x => !drop.contains x)

/-- The 256 bytes of the line at a target: memory of this chip, otherwise what the outside returns. -/
def State.lineBytes (s : State) (tgt : Target) (n : Nat) (hostData : List Byte) : List Byte :=
  if tgt.cls == .localMem && chipOf tgt.addr == s.chipId then s.rdBytes (localOf tgt.addr / n * n) n
  else (hostData ++ List.replicate n 0).take n

/-- ICACHE_FILL (R143): the line of the group's PC fills the cache; when the fetch meets an uncorrectable error it is not
filled and the group halts with LATE_ACCESS, cause DATA, FETCH set, and an error in a slab sets the slab ECC source. -/
def execIcacheFill (g : GroupId) (ue : Bool) (hostData : List Byte) (s : State) : Host.Outcome State Fault Refusal :=
  s.commit (fun s =>
    if s.mayIssue g then
      match s.group g, (s.tile g.tile).kernel with
      | some gr, some k =>
        match s.fetchAt g.tile k gr.pc with
        | .at_ tgt =>
          let isLocal := tgt.cls == .localMem && chipOf tgt.addr == s.chipId
          let line := localOf tgt.addr / 256 * 256
          let inSlab := match placeOf line with
            | .slab t _ => some t
            | _ => none
          if ue || (isLocal && (s.ueIn line 256).isSome) then
            let s := s.takeLate g gr k
              { cause := 2, pc := gr.pc, addr := gr.pc, failMask := gr.mask, active := gr.mask, word := 0
                write := false, atomic := false } true
            match isLocal, inSlab with
            | true, some t => s.slabUE t line [k.ctx] 256
            | _, _ => s
          else
            let s := if k.cspace then s.touchRanges g.tile k [gr.pc] else s
            s.updCore g.tile g.core (fun c =>
              { c with l1i := iFill c.l1i ⟨lineKey tgt / 256 * 256, s.lineBytes tgt 256 hostData, false⟩ })
        | _ => s
      | _, _ => s
    else s)

end Sys2Proof.Machine
end

