-- ==== Sys2Proof/Machine/VecMatrix.lean ====
section
/-! DEFINITION. The tensor array (R75 to R101): issue and tokens, descriptors and their checks at acceptance, the three
operations at their end, and the clear on a change of context. -/

namespace Sys2Proof.Machine

/-! ### Fields of format V-T (R158) -/

def tTD (w : Word64) : Fin 16 := ⟨bitsOf w 47 44 % 16, Nat.mod_lt _ (by decide)⟩
def tUA (w : Word64) : Nat := bitsOf w 43 38
def tUB (w : Word64) : Nat := bitsOf w 37 32
def tUC (w : Word64) : Nat := bitsOf w 31 26
def tUD (w : Word64) : Nat := bitsOf w 25 20
def tPD (w : Word64) : Nat := bitsOf w 19 17

/-- An instruction of format V-T whose guard, where it is not allowed, is ILLEGAL (R157); a matrix instruction takes any
guard here and raises DIVERGENT_ASYNC after (R75). -/
def State.tokenOp (s : State) (g : GroupId) (w : Word64) (opc : Nat) (guard legal : Bool)
    (go : State → Group → Kernel → State) : State :=
  s.control g w opc guard (legal && bitsOf w 16 0 == 0) go

/-! ### Issue -/

/-- The unit of a matrix operation (R75). -/
def MxOp.unit : MxOp → MxUnit
  | .mxma => .multiply
  | _ => .transfer

/-- How many accepted or issued instructions of a unit have not ended (R78). -/
def Tensor.load (ta : Tensor) (u : MxUnit) : Nat :=
  (ta.issued.filter (fun m => m.op.unit == u)).length +
    (match u with
     | .multiply => ta.mq.length
     | .transfer => ta.tq.length)

def DataDesc.none : DataDesc := ⟨0, 0, 0, false, 0, false, 0, 0, 0⟩
def AccDesc.none : AccDesc := ⟨0, false, false, 0, 0⟩

/-- Issue of a matrix instruction (R75, R78, R79): not with a guard or with a thread inactive; a token that is not DONE
and a full queue hold the group back. -/
def State.issueMatrix (s : State) (g : GroupId) (w : Word64) (opc : Nat) (op : MxOp) (legal : Bool) : State :=
  s.tokenOp g w opc true legal (fun s gr k =>
    if vG w || gr.mask != BitVec.allOnes 64 then s.excPlain g gr k w Exc.DIVERGENT_ASYNC
    else if !(gr.tok[tTD w]).done then s.leaveActive g (.token (tTD w))
    else if (s.tile g.tile).ta.load op.unit ≥ 8 then s.leaveActive g (.queue op.unit)
    else
      let s := s.finish g { gr with tok := gr.tok.set (tTD w).val ⟨false, 0⟩ (tTD w).isLt }
      s.updTile g.tile (fun t =>
        { t with ta := { t.ta with
            issued := t.ta.issued ++ [
              { op := op, group := g, ctx := k.ctx, tok := tTD w, block := gr.block, num := gr.num
                a := gr.rdU (tUA w), b := gr.rdU (tUB w), c := gr.rdU (tUC w), seq := 0
                da := .none, db := .none, dc := .none, word := 0 }] } }))

def execMxma (g : GroupId) (w : Word64) (s : State) : Host.Outcome State Fault Refusal :=
  s.commit (fun s => s.issueMatrix g w 0x60 .mxma (bitsOf w 25 17 == 0))

def execMxld (g : GroupId) (w : Word64) (s : State) : Host.Outcome State Fault Refusal :=
  s.commit (fun s => s.issueMatrix g w 0x61 .mxld (tUB w == 0 && bitsOf w 25 17 == 0))

def execMxst (g : GroupId) (w : Word64) (s : State) : Host.Outcome State Fault Refusal :=
  s.commit (fun s => s.issueMatrix g w 0x62 .mxst (tUB w == 0 && bitsOf w 25 17 == 0))

/-- TWAIT: the group waits outside the active set until the token is DONE (R79, R119). -/
def execTwait (g : GroupId) (w : Word64) (s : State) : Host.Outcome State Fault Refusal :=
  s.commit (fun s => s.tokenOp g w 0x63 false (bitsOf w 43 17 == 0) (fun s gr _ =>
    if (gr.tok[tTD w]).done then s.finish g gr else s.leaveActive g (.token (tTD w))))

/-- TTEST: whether the token is DONE, in every taking-part thread (R169). -/
def execTtest (g : GroupId) (w : Word64) (s : State) : Host.Outcome State Fault Refusal :=
  s.commit (fun s => s.tokenOp g w 0x64 true (bitsOf w 43 20 == 0) (fun s gr _ =>
    s.finish g (gr.wrP (tPD w) (gr.taking w) (if (gr.tok[tTD w]).done then BitVec.allOnes 64 else 0))))

/-- TSTAT: waits as TWAIT, then reads the status word (R99). -/
def execTstat (g : GroupId) (w : Word64) (s : State) : Host.Outcome State Fault Refusal :=
  s.commit (fun s => s.tokenOp g w 0x65 false (bitsOf w 43 26 == 0 && bitsOf w 19 17 == 0) (fun s gr _ =>
    if (gr.tok[tTD w]).done then s.finish g (gr.wrU (tUD w) (gr.tok[tTD w]).word)
    else s.leaveActive g (.token (tTD w))))

/-! ### Element formats and layout (R83, R84) -/

/-- Elements per 256-byte line of a format code. -/
def fmtKc (f : Nat) : Nat :=
  match f with
  | 0 => 512
  | 1 => 256 | 2 => 256 | 3 => 256 | 4 => 256 | 5 => 256
  | 6 => 128 | 7 => 128 | 8 => 128
  | 9 => 64
  | _ => 8

/-- Bytes per element of the formats that MXST and MXLD use. -/
def fmtSize (f : Nat) : Nat :=
  match f with
  | 3 => 1 | 4 => 1
  | 6 => 2 | 7 => 2
  | 9 => 4
  | _ => 32

/-- First byte of element k of a row, from the row's start, and how many bytes hold it. -/
def elemAt (f k : Nat) : Nat × Nat :=
  let j := k / fmtKc f
  let i := k % fmtKc f
  match f with
  | 0 => (256 * j + i / 2, 1)
  | 1 => (256 * j + 3 * (i / 4), 3)
  | 2 => (256 * j + 3 * (i / 4), 3)
  | 6 => (256 * j + 2 * i, 2)
  | 7 => (256 * j + 2 * i, 2)
  | 8 => (256 * j + 2 * i, 2)
  | _ => (256 * j + i, 1)

/-- The value of element k, given the number in the bytes that hold it. -/
def elemVal (f k raw : Nat) : FVal :=
  let i := k % fmtKc f
  match f with
  | 0 => Fmt.fp4.decode (raw / 16 ^ (i % 2) % 16)
  | 1 => Fmt.fp6a.decode (raw / 64 ^ (i % 4) % 64)
  | 2 => Fmt.fp6b.decode (raw / 64 ^ (i % 4) % 64)
  | 3 => Fmt.e4m3.decode raw
  | 4 => Fmt.e5m2.decode raw
  | 5 => FVal.ofInt (BitVec.ofNat 8 raw).toInt
  | 6 => Fmt.bf16.decode raw
  | 7 => Fmt.f16.decode raw
  | _ => FVal.ofInt (BitVec.ofNat 16 raw).toInt

/-- Bytes from a row's start to the end of its element K − 1. -/
def rowSpan (f k : Nat) : Nat := (elemAt f (k - 1)).1 + (elemAt f (k - 1)).2

/-! ### Descriptors (R76, R81, R82, R88) -/

/-- A descriptor address that R76 accepts. -/
def descAddrOk (a : Word64) : Bool := a.toNat < slabSize && a.toNat % 32 == 0

/-- The number in a 32-byte descriptor at a slab offset. -/
def State.descAt (s : State) (t : TileId) (a : Word64) : Nat := s.rdNat (slabAddr t a.toNat) 32

def DataDesc.ofNat (x : Nat) : DataDesc where
  base := natBits x 22 0
  stride := natBits x 54 32
  fmt := natBits x 67 64
  scaled := natBits x 68 68 == 1
  rm := natBits x 71 69
  sat := natBits x 72 72 == 1
  rows := natBits x 86 80 + 1
  cols := natBits x 94 88 + 1
  scaleBase := natBits x 118 96

def AccDesc.ofNat (x : Nat) : AccDesc where
  region := natBits x 0 0
  init := natBits x 1 1 == 1
  add := natBits x 2 2 == 1
  anchor := BitVec.ofNat 16 (natBits x 31 16)
  k := 32 * (natBits x 38 32 + 1)

/-- RES0 bits of every data descriptor are 0 (R81). -/
def dataRes0 (x : Nat) : Bool :=
  natBits x 31 23 == 0 && natBits x 63 55 == 0 && natBits x 79 73 == 0 && natBits x 87 87 == 0 &&
  natBits x 95 95 == 0 && natBits x 255 119 == 0

/-- BASE, STRIDE and SCALE_BASE are multiples of 256 (R88). -/
def DataDesc.aligned (d : DataDesc) : Bool := d.base % 256 == 0 && d.stride % 256 == 0 && d.scaleBase % 256 == 0

/-- The pairings of R86: C in half cycles per K, or none; the flag says that scales are allowed. -/
def pairing (fa fb : Nat) : Option (Nat × Bool) :=
  if fa ≤ 2 && fb ≤ 2 then some (1, true)
  else if fa ≤ 4 && fb ≤ 4 then some (2, true)
  else if fa == 5 && fb == 5 then some (2, false)
  else if (fa == 6 && fb == 6) || (fa == 7 && fb == 7) then some (4, false)
  else if fa == 8 && fb == 8 then some (16, false)
  else none

/-- The slab bytes of n rows of a descriptor, each span bytes long, as runs. -/
def DataDesc.runs (d : DataDesc) (n span : Nat) : List (Nat × Nat) :=
  (List.range n).map (fun r => (d.base + r * d.stride, span))

/-- The scale bytes of n rows of K elements (R85). -/
def DataDesc.scaleRun (d : DataDesc) (n k : Nat) : List (Nat × Nat) :=
  if d.scaled then [(d.scaleBase, n * (k / 32))] else []

/-- The slab runs that an instruction reads or writes. -/
def MxInstr.runs (m : MxInstr) : List (Nat × Nat) :=
  match m.op with
  | .mxma =>
    m.da.runs m.da.rows (rowSpan m.da.fmt m.dc.k) ++ m.da.scaleRun m.da.rows m.dc.k ++
    m.db.runs m.db.cols (rowSpan m.db.fmt m.dc.k) ++ m.db.scaleRun m.db.cols m.dc.k
  | _ => m.da.runs m.da.rows (m.da.cols * fmtSize m.da.fmt)

/-- The whole 256-byte lines that the runs touch: the array reads lines (R93, R99). -/
def lineRun (r : Nat × Nat) : Nat × Nat := (r.1 / 256 * 256, ((r.1 + r.2 + 255) / 256 - r.1 / 256) * 256)

/-- The descriptors' own fields are well formed for the instruction (R81, R82, R83, R86, R87, R88). -/
def descFieldsOk (op : MxOp) (xa xb xc : Nat) : Bool :=
  let a := DataDesc.ofNat xa
  let b := DataDesc.ofNat xb
  let c := AccDesc.ofNat xc
  let accRes0 := natBits xc 15 3 == 0 && natBits xc 255 39 == 0
  let common (x : Nat) (d : DataDesc) : Bool :=
    dataRes0 x && d.aligned && (d.scaled || natBits x 118 96 == 0)
  match op with
  | .mxma =>
    common xa a && common xb b && accRes0 &&
    natBits xa 72 69 == 0 && natBits xb 72 69 == 0 &&
    natBits xa 94 88 == 0 && natBits xb 86 80 == 0 && a.rows ≤ 64 &&
    !c.add && (c.init || natBits xc 31 16 == 0) &&
    (match pairing a.fmt b.fmt with
     | some (_, scales) => scales || (!a.scaled && !b.scaled)
     | none => false)
  | .mxld =>
    common xa a && accRes0 && !a.scaled && natBits xa 72 69 == 0 && a.rows ≤ 64 && a.fmt == 10 &&
    !c.init && natBits xc 38 16 == 0
  | .mxst =>
    common xa a && accRes0 && !a.scaled && a.rows ≤ 64 &&
    (a.fmt == 3 || a.fmt == 4 || a.fmt == 6 || a.fmt == 7 || a.fmt == 9 || a.fmt == 10) &&
    a.rm ≤ 4 && (!a.sat || a.fmt == 3 || a.fmt == 4) &&
    a.cols * fmtSize a.fmt ≤ a.stride &&
    !c.init && !c.add && natBits xc 38 16 == 0

/-- Every byte of the runs lies below 6 MiB (R88) and in units that the context may touch (R292). -/
def State.runsOk (s : State) (t : TileId) (ctx : Byte) (runs : List (Nat × Nat)) : Bool :=
  runs.all (fun r => r.2 == 0 || (r.1 + r.2 ≤ slabSize && s.slabOwned t ctx r.1 && s.slabOwned t ctx (r.1 + r.2 - 1)))

/-- The descriptor addresses that an instruction reads. -/
def MxInstr.descAddrs (m : MxInstr) : List Word64 :=
  match m.op with
  | .mxma => [m.a, m.b, m.c]
  | _ => [m.a, m.c]

/-- Groups of the tile that wait for something become ready. -/
def State.readyWhere (s : State) (t : TileId) (p : CoreId → SlotId → Group → Bool) : State :=
  s.updTile t (fun x =>
    (List.finRange 4).foldl (fun x q =>
      x.updCore q (fun c =>
        ((List.finRange 32).foldl (fun c i =>
          match c.group i with
          | some gr => if p q i gr then c.ready i else c
          | none => c) c).tick)) x)

/-- Groups that wait for an entry of a unit's queue become ready (R78, R119). -/
def State.wakeQueue (s : State) (t : TileId) (u : MxUnit) : State :=
  s.readyWhere t (fun _ _ gr => gr.wait == some (.queue u))

/-- An instruction ends with a status word and waits for its token (R99); a status other than OK is remembered in
TA_FLAGS (R101). -/
def State.mxEnded (s : State) (t : TileId) (m : MxInstr) (word : Word64) : State :=
  let s := s.updTile t (fun x => { x with ta := { x.ta with ended := x.ta.ended ++ [{ m with word := word }] } })
  let s := if bitsOf word 3 1 == 1 then s.tileCount t 13 1 else s
  if bitsOf word 3 1 != 0 then s.setFld (.TA_FLAGS t.val) F.TA_FLAGS_ERR_SEEN 1 else s

/-- MATRIX_ACCEPT (R76 to R78, R88): the oldest issued instruction of the unit is accepted. ue says that a descriptor
read met an uncorrectable slab error. -/
def execMatrixAccept (t : TileId) (u : MxUnit) (ue : Bool) (s : State) : Host.Outcome State Fault Refusal :=
  s.commit (fun s =>
    let ta := (s.tile t).ta
    if ta.clearing || s.safe || s.tileHolds t then s
    else
      match ta.issued.find? (fun m => m.op.unit == u) with
      | none => s
      | some m =>
        let s := s.updTile t (fun x =>
          { x with ta := { x.ta with issued := x.ta.issued.erase m, seq := x.ta.seq + 1 } })
        let xa := s.descAt t m.a
        let xb := s.descAt t m.b
        let xc := s.descAt t m.c
        let m := { m with da := DataDesc.ofNat xa, db := DataDesc.ofNat xb, dc := AccDesc.ofNat xc, seq := ta.seq }
        if !(m.descAddrs.all descAddrOk) || !(m.descAddrs.all (fun a => s.slabOwned t m.ctx a.toNat)) then
          (s.mxEnded t m (mxWord 3 0 0)).wakeQueue t u
        else if ue || m.descAddrs.any (fun a => (s.ueIn (slabAddr t a.toNat) 32).isSome) then
          let bad := (m.descAddrs.find? (fun a => (s.ueIn (slabAddr t a.toNat) 32).isSome)).getD m.a
          ((s.slabUE t (slabAddr t bad.toNat) [m.ctx] 32).mxEnded t m (mxWord 5 0 0)).wakeQueue t u
        else if !descFieldsOk m.op xa xb xc || !s.runsOk t m.ctx m.runs then
          (s.mxEnded t m (mxWord 3 0 0)).wakeQueue t u
        else
          s.updTile t (fun x =>
            match u with
            | .multiply => { x with ta := { x.ta with mq := x.ta.mq ++ [m] } }
            | .transfer => { x with ta := { x.ta with tq := x.ta.tq ++ [m] } }))

/-! ### The operations -/

/-- Index of entry (r, c) of a region (R88, accumulator memory). -/
def accIndex (region r c : Nat) : Nat := region * 8192 + r * 128 + c

/-- An accumulator entry. -/
def Tensor.entry (ta : Tensor) (i : Nat) : Wide := (Assoc.get? ta.acc i).getD Wide.zero

/-- The residue that the residue channel keeps for an entry (R68). -/
def Tensor.residueAt (ta : Tensor) (i : Nat) : Nat := (Assoc.get? ta.residue i).getD 0

/-- An accumulator entry written with its residue; the write clears its error. -/
def Tensor.setEntry (ta : Tensor) (i : Nat) (w : Wide) (r : Nat) : Tensor :=
  { ta with acc := Assoc.put id Wide.zero ta.acc i w, residue := Assoc.put id 0 ta.residue i r, accUE := ta.accUE.filter (· != i) }

/-- A written entry fails the comparison of R69; one with OVERFLOW is excluded (R72). -/
def residueFails (w : Wide) (r : Nat) : Bool := w.flags &&& WFlags.OVERFLOW == 0 && residueOf w.int != r % 127

/-- The entries (r, c) of the instruction's rectangle, with their index (R87, R89). -/
def MxInstr.rect (m : MxInstr) : List (Nat × Nat × Nat) :=
  let cols := match m.op with
    | .mxma => m.db.cols
    | _ => m.da.cols
  (List.range m.da.rows).flatMap (fun r => (List.range cols).map (fun c => (r, c, accIndex m.dc.region r c)))

/-- Element k of a row or column that starts at a slab offset. -/
def State.operand (s : State) (t : TileId) (f rowOff k : Nat) : FVal :=
  let e := elemAt f k
  elemVal f k (s.rdNat (slabAddr t (rowOff + e.1)) e.2)

/-- The scale byte of element k of row i of an operand; 0x7F where it has none (R47, R85). -/
def State.scaleByte (s : State) (t : TileId) (d : DataDesc) (i k kTotal : Nat) : Byte :=
  if d.scaled then s.rdByte (slabAddr t (d.scaleBase + i * (kTotal / 32) + k / 32)) else 0x7F#8

/-- One entry of an MXMA with its residue: the terms in ascending k, each rounded by itself and added (R49, R50, R90), and its
residue added to the entry's (R68). -/
def State.mxmaEntry (s : State) (t : TileId) (m : MxInstr) (start : Wide × Nat) (r c : Nat) : Wide × Nat :=
  (List.range m.dc.k).foldl (fun w k =>
    let p := scaledProduct
      (s.operand t m.da.fmt (m.da.base + r * m.da.stride) k)
      (s.operand t m.db.fmt (m.db.base + c * m.db.stride) k)
      (s.scaleByte t m.da r k m.dc.k) (s.scaleByte t m.db c k m.dc.k)
    (w.1.addTerm p, (w.2 + p.termResidue w.1.anchor) % 127)) start

/-- The wide partial in memory at element (r, c) of an MXLD. -/
def State.mxldPartial (s : State) (t : TileId) (m : MxInstr) (r c : Nat) : Wide :=
  Wide.ofBits (BitVec.ofNat 256 (s.rdNat (slabAddr t (m.da.base + r * m.da.stride + c * 32)) 32))

/-- The contents that R69 and R99 leave unspecified: a free value for each entry. -/
def freeWide (stamp i : Nat) : Wide :=
  Wide.ofBits (BitVec.ofNat 256 (Config.freeBits stamp i))

/-- Entries set to free values, with free residues. -/
def State.freeEntries (s : State) (t : TileId) (is : List Nat) : State :=
  let (n, s) := s.takeFresh
  s.updTile t (fun x =>
    { x with ta := is.foldl (fun ta i => ta.setEntry i (freeWide n i) (Config.freeBits n (2 ^ 20 + i) % 127)) x.ta })

/-- What the checks of an instruction found, from the command and from the errors that the state holds: only an MXMA rounds
terms (R71), and an error anywhere in a line that was read counts (R99). -/
def State.mxCheck (s : State) (t : TileId) (m : MxInstr) (c : MxCheck) : MxCheck where
  roundingDisagrees := c.roundingDisagrees && m.op == .mxma
  slabUncorrectable := c.slabUncorrectable ||
    (m.op != .mxst && (m.runs.map lineRun).any (fun r => (s.ueIn (slabAddr t r.1) r.2).isSome))
  accumUncorrectable := c.accumUncorrectable ||
    (((m.op == .mxma && !m.dc.init) || (m.op == .mxld && m.dc.add) || m.op == .mxst) &&
      m.rect.any (fun e => (s.tile t).ta.accUE.contains e.2.2))

/-- The first word with an error in the slab lines of an instruction, recorded with its source (R290). -/
def State.mxSlabUE (s : State) (t : TileId) (m : MxInstr) : State :=
  match (m.runs.map lineRun).find? (fun r => (s.ueIn (slabAddr t r.1) r.2).isSome) with
  | some r => s.slabUE t (slabAddr t r.1) [m.ctx] r.2
  | none => s.slabUE t (slabAddr t m.da.base) [m.ctx]

/-- The watermaster's sources of the conditions met (R69, R99, R614). -/
def State.mxSources (s : State) (t : TileId) (m : MxInstr) (c : MxCheck) (mismatch : Bool) : State :=
  let s := if mismatch then s.wmEvent 1 [m.ctx] (some t.val) else s
  let s := if c.slabUncorrectable then s.mxSlabUE t m else s
  if c.accumUncorrectable then s.wmEvent 8 [m.ctx] (some t.val) else s

/-- The status of R614, given whether an anchor differed. -/
def mxStatus (c : MxCheck) (anchors residue : Bool) : Nat :=
  if c.slabUncorrectable || c.accumUncorrectable then 5 else if anchors then 2 else if residue then 1 else 0

/-- The flags of the written entries, together (R99). -/
def Tensor.flagsOf (ta : Tensor) (is : List Nat) : WFlags := is.foldl (fun f i => f ||| (ta.entry i).flags) 0

/-- Entries that an MXMA or MXLD writes, given its new values with their residues (R69, R99, R614), and the status word: what was
computed; free values in every entry after an error of an array, and in the whole region after a mismatch of R69 or R71. -/
def State.mxWrite (s : State) (t : TileId) (m : MxInstr) (c : MxCheck) (new : List (Nat × Wide × Nat)) : State × Word64 :=
  let bad := c.roundingDisagrees || new.any (fun e => residueFails e.2.1 e.2.2)
  let s := s.mxSources t m c bad
  let s := s.updTile t (fun x => { x with ta := new.foldl (fun ta e => ta.setEntry e.1 e.2.1 e.2.2) x.ta })
  let s := if bad then s.freeEntries t ((List.range 8192).map (m.dc.region * 8192 + ·))
    else if c.slabUncorrectable || c.accumUncorrectable then s.freeEntries t (new.map (·.1))
    else s
  (s, mxWord (mxStatus c false bad) 0 ((s.tile t).ta.flagsOf (new.map (·.1))))

/-- MXMA at its end (R49 to R52, R68, R89, R90). -/
def State.endMxma (s : State) (t : TileId) (m : MxInstr) (c : MxCheck) : State × Word64 :=
  let ta := (s.tile t).ta
  let new := m.rect.map (fun e =>
    (e.2.2, s.mxmaEntry t m (if m.dc.init then (Wide.init m.dc.anchor, 0) else (ta.entry e.2.2, ta.residueAt e.2.2)) e.1 e.2.1))
  s.mxWrite t m c new

/-- MXLD at its end (R91): with ADD 1, no entry is written when an anchor differs or an error was met. -/
def State.endMxld (s : State) (t : TileId) (m : MxInstr) (c : MxCheck) : State × Word64 :=
  let ta := (s.tile t).ta
  if m.dc.add then
    let bad := m.rect.any (fun e => (ta.entry e.2.2).mismatch (s.mxldPartial t m e.1 e.2.1))
    if bad || c.slabUncorrectable || c.accumUncorrectable then (s.mxSources t m c false, mxWord (mxStatus c bad false) 0 0)
    else
      let new := m.rect.map (fun e =>
        let x := s.mxldPartial t m e.1 e.2.1
        (e.2.2, (ta.entry e.2.2).combine x, (ta.residueAt e.2.2 + residueOf x.int) % 127))
      s.mxWrite t m c new
  else
    let new := m.rect.map (fun e =>
      let x := s.mxldPartial t m e.1 e.2.1
      (e.2.2, x, residueOf x.int))
    s.mxWrite t m c new

/-- A store of a run of bytes to a slab: words it covers whole lose their errors; the bytes that fall in a word with an
error that it covers in part are not written, and the answer says so (R616). -/
def State.slabStore (s : State) (a : Nat) (bs : List Byte) : State × Bool :=
  let n := bs.length
  let partialUE (i : Nat) : Bool :=
    let w := (a + i) / 8 * 8
    !(a ≤ w && w + 8 ≤ a + n) && s.memUE.contains w
  let cells := (bs.mapIdx (fun i b => (i, b))).filter (fun x => !partialUE x.1)
  let bad := (List.range n).any partialUE
  ((s.wrCells (cells.map (fun x => (a + x.1, x.2)))).clearUE a n, bad)

/-- The format of an MXST code. -/
def mxstFmt : Nat → Fmt
  | 3 => .e4m3
  | 4 => .e5m2
  | 6 => .bf16
  | 7 => .f16
  | _ => .f32

/-- The bytes that MXST writes for an entry and the flags its conversion raises (R63 to R67, R87). -/
def mxstElem (d : DataDesc) (w : Wide) : List Byte × FFlags :=
  if d.fmt == 10 then (leBytes 32 w.toBits.toNat, 0)
  else
    let r := w.convert (mxstFmt d.fmt) ((RM.decode d.rm).getD .rne) d.sat
    (leBytes (fmtSize d.fmt) r.bits, r.flags)

/-- MXST at its end (R87, R91): row by row; an accumulator error leaves the bytes written unspecified. -/
def State.endMxst (s : State) (t : TileId) (m : MxInstr) (c : MxCheck) : State × Word64 :=
  let ta := (s.tile t).ta
  let s := s.mxSources t m c false
  let (n, s) := s.takeFresh
  let size := fmtSize m.da.fmt
  let rowOf (r : Nat) : List (List Byte × FFlags) :=
    (List.range m.da.cols).map (fun j => mxstElem m.da (ta.entry (accIndex m.dc.region r j)))
  let bytesOf (r : Nat) : List Byte :=
    if c.accumUncorrectable then leBytes (m.da.cols * size) (Config.freeBits n r)
    else (rowOf r).flatMap (·.1)
  let fl := (List.range m.da.rows).foldl (fun f r => (rowOf r).foldl (fun f e => f ||| e.2) f) (0 : FFlags)
  let (s, bad) := (List.range m.da.rows).foldl (fun (acc : State × Bool) r =>
    let (s', b) := acc.1.slabStore (slabAddr t (m.da.base + r * m.da.stride)) (bytesOf r)
    (s', acc.2 || b)) (s, false)
  let s := s.orReg (.TA_FLAGS t.val) (BitVec.ofNat 64 (bitsOf fl 4 4 * 8 + bitsOf fl 2 0))
  let s := if bad then s.mxSlabUE t m else s
  (s, mxWord (mxStatus { c with slabUncorrectable := c.slabUncorrectable || bad } false false) fl 0)

/-- MATRIX_END (R69, R96, R97): the instruction at the head of its unit's queue ends, once no earlier one of the other
unit names its region; in appended cycles a scheduled-mode tile's array holds (R219). -/
def execMatrixEnd (t : TileId) (u : MxUnit) (check : MxCheck) (s : State) : Host.Outcome State Fault Refusal :=
  s.commit (fun s =>
    let ta := (s.tile t).ta
    let (q, other) := match u with
      | .multiply => (ta.mq, ta.tq)
      | .transfer => (ta.tq, ta.mq)
    match q with
    | [] => s
    | m :: rest =>
      if s.tileHolds t || regionBusy other m then s
      else
        let c := s.mxCheck t m check
        let s := s.updTile t (fun x => { x with ta := match u with
          | .multiply => { x.ta with mq := rest }
          | .transfer => { x.ta with tq := rest } })
        let (s, word) := match m.op with
          | .mxma => s.endMxma t m c
          | .mxld => s.endMxld t m c
          | .mxst => s.endMxst t m c
        (s.mxEnded t m word).wakeQueue t u)

/-- TOKEN_DONE (R99): the token of an ended instruction becomes DONE with its status word, and groups that wait on it
become ready (R120). -/
def execTokenDone (g : GroupId) (tok : Fin 16) (s : State) : Host.Outcome State Fault Refusal :=
  s.commit (fun s =>
    match (s.tile g.tile).ta.ended.find? (fun m => !s.tileHolds g.tile && m.group == g && m.tok == tok) with
    | none => s
    | some m =>
      let s := s.updTile g.tile (fun x => { x with ta := { x.ta with ended := x.ta.ended.erase m } })
      match s.group g with
      | some gr =>
        if gr.block == m.block && gr.num == m.num then
          let s := s.setGroup g (some { gr with tok := gr.tok.set tok.val ⟨true, m.word⟩ tok.isLt })
          if gr.wait == some (.token tok) then s.readyGroup g else s
        else s
      | none => s)

/-- ACCUM_CLEAR (R92). -/
def execAccumClear (t : TileId) (s : State) : Host.Outcome State Fault Refusal :=
  s.commit (fun s => s.updTile t (fun x =>
    if x.ta.clearing then { x with ta := { x.ta with clearing := false, acc := [], residue := [], accUE := [] } } else x))

end Sys2Proof.Machine
end

