-- ==== Sys2Proof/Machine/Sequencer.lean ====
section
/-! DEFINITION. The tile sequencer (R172 to R198): its registers and fetch, its arithmetic, loads and branches, its
waits, marks, mode switch and launch, and the events that start and stop it. -/

namespace Sys2Proof.Machine

/-! ### Registers and state -/

/-- A register of the sequencer; s0 reads 0 (R172). -/
def Tile.rdS (x : Tile) (n : Nat) : Word64 := if h : n < 32 then (if n = 0 then 0 else x.s[n]) else 0

/-- A register of the sequencer written; a write to s0 is discarded (R172). -/
def Tile.wrS (x : Tile) (n : Nat) (v : Word64) : Tile :=
  if h : n < 32 then (if n = 0 then x else { x with s := x.s.set n v h }) else x

def State.rdS (s : State) (t : TileId) (n : Nat) : Word64 := (s.tile t).rdS n

def State.wrS (s : State) (t : TileId) (n : Nat) (v : Word64) : State := s.updTile t (fun x => x.wrS n v)

/-- The values of SQ_STATUS.STATE (R215). -/
def Seq.STOPPED : Nat := 0
def Seq.RUNNING : Nat := 1
def Seq.HALTED : Nat := 2
def Seq.FAULTED : Nat := 3

def State.seqState (s : State) (t : TileId) : Nat := s.fld (.SQ_STATUS t.val) F.SQ_STATUS_STATE

def State.setSeqState (s : State) (t : TileId) (v : Nat) : State := s.setFld (.SQ_STATUS t.val) F.SQ_STATUS_STATE v

/-- The program counter set, and SQ_PC with it. -/
def State.setPc (s : State) (t : TileId) (pc : Word64) : State :=
  (s.updTile t (fun x => { x with pc := pc })).setFld (.SQ_PC t.val) F.SQ_PC_PC (pc.toNat % 2 ^ 16)

/-- The sequencer goes on with the next instruction. -/
def State.seqNext (s : State) (t : TileId) : State := s.setPc t ((s.tile t).pc + 4)

/-- The sequencer begins or ends a wait (SQ_STATUS.WAITING, R182). -/
def State.setWait (s : State) (t : TileId) (w : Option SeqWait) : State :=
  (s.updTile t (fun x => { x with wait := w })).setFld (.SQ_STATUS t.val) F.SQ_STATUS_WAITING (if w.isSome then 1 else 0)

/-- An exception of the sequencer (R188): FAULTED, SQ_PC at the instruction, SQ_EXC with VALID and the code, and the
tile's sequencer-exception source. -/
def State.seqExc (s : State) (t : TileId) (code : Nat) : State :=
  let s := (s.setWait t none).setSeqState t Seq.FAULTED
  let s := (s.setFld (.SQ_EXC t.val) F.SQ_EXC_VALID 1).setFld (.SQ_EXC t.val) F.SQ_EXC_CODE code
  s.wmEvent 2 [] (some t.val)

/-- An error of program memory (R180, R189): FAULTED with code 0x00 and PM_ERR, and the same source. -/
def State.seqPmErr (s : State) (t : TileId) : State :=
  let s := (s.setWait t none).setSeqState t Seq.FAULTED
  let s := s.wr (.SQ_EXC t.val) 0
  (s.setFld (.SQ_STATUS t.val) F.SQ_STATUS_PM_ERR 1).wmEvent 2 [] (some t.val)

/-! ### Fields of the word formats (R173) -/

def sOPC (w : Word32) : Nat := bitsOf w 31 26
def sSD (w : Word32) : Nat := bitsOf w 25 21
def sSA (w : Word32) : Nat := bitsOf w 20 16
def sSB (w : Word32) : Nat := bitsOf w 15 11
def sFN (w : Word32) : Nat := bitsOf w 3 0
def sIMM (w : Word32) : Nat := bitsOf w 15 0
def sX12 (w : Word32) : Nat := bitsOf w 11 0
def sOFF26 (w : Word32) : Nat := bitsOf w 25 0

/-- The word of program memory at an address. -/
def Tile.pmWord (x : Tile) (pc : Nat) : Word32 := (Assoc.get? x.pmem (pc / 4)).getD 0

/-- Whether the sequencer begins an instruction: RUNNING, not starting, not waiting, not held or in reset. -/
def State.seqReady (s : State) (t : TileId) : Bool :=
  let x := s.tile t
  s.seqState t == Seq.RUNNING && !x.starting && x.wait.isNone && !x.held && !x.inReset

/-- The sequencer stands at its breakpoint, and does not pass it after a halt (R594, R597). -/
def State.atBreak (s : State) (t : TileId) : Bool :=
  s.fld (.OBS_BP t.val) F.OBS_BP_ENABLE == 1 && s.fld (.OBS_BP t.val) F.OBS_BP_ADDR == (s.tile t).pc.toNat / 4 % 2 ^ 14 &&
  s.capOn Cap.HALT (s.leveeNibble .LV_TILE t.val) && !s.obs.bpPass.contains t

/-- An instruction of the sequencer: a fetch past the program raises ACC_DECODE (R180), the word must be the one that
program memory holds at the program counter, an illegal word raises ILLEGAL, and the rest is the instruction's. -/
def State.seqInstr (s : State) (t : TileId) (w : Word32) (mine legal : Bool) (go : State → State) : State :=
  if s.seqReady t && !s.atBreak t && mine then
    let x := s.tile t
    let s := { s with obs := { s.obs with bpPass := s.obs.bpPass.filter (· != t) } }
    if x.pc.toNat ≥ x.progSize * 256 then s.seqExc t Exc.ACC_DECODE
    else if x.pmWord x.pc.toNat != w then s
    else if legal then go s
    else s.seqExc t Exc.ILLEGAL
  else s

/-- An instruction of one opcode. -/
def State.seqOp (s : State) (t : TileId) (w : Word32) (opc : Nat) (legal : Bool) (go : State → State) : State :=
  s.seqInstr t w (sOPC w == opc) legal go

/-! ### Arithmetic -/

/-- The operations of R175. -/
def aluFn (fn : Nat) (a b : Word64) : Option Word64 :=
  let sh := b.toNat % 64
  match fn with
  | 0 => some (a + b)
  | 1 => some (a - b)
  | 2 => some (a &&& b)
  | 3 => some (a ||| b)
  | 4 => some (a ^^^ b)
  | 5 => some (a <<< sh)
  | 6 => some (a >>> sh)
  | 7 => some (a.sshiftRight sh)
  | 8 => some (if a.slt b then 1 else 0)
  | 9 => some (if a.ult b then 1 else 0)
  | 10 => some (a * b)
  | _ => none

/-- A register-register word is well formed (R173, R175). -/
def aluLegal (w : Word32) : Bool := bitsOf w 10 4 == 0 && sFN w ≤ 10

/-- The effect of a register-register word. -/
def State.aluGo (s : State) (t : TileId) (w : Word32) : State :=
  (s.wrS t (sSD w) ((aluFn (sFN w) (s.rdS t (sSA w)) (s.rdS t (sSB w))).getD 0)).seqNext t

/-- A register-register word with a given FN. -/
def State.aluOp (s : State) (t : TileId) (w : Word32) (fn : Nat) : State :=
  s.seqInstr t w (sOPC w == 0x01 && sFN w == fn) (aluLegal w) (fun s => s.aluGo t w)

def execAlu (t : TileId) (w : Word32) (s : State) : Host.Outcome State Fault Refusal :=
  s.commit (fun s => s.seqOp t w 0x01 (aluLegal w) (fun s => s.aluGo t w))

def execAluAdd (t : TileId) (w : Word32) (s : State) : Host.Outcome State Fault Refusal :=
  s.commit (fun s => s.aluOp t w 0)

def execAluSub (t : TileId) (w : Word32) (s : State) : Host.Outcome State Fault Refusal :=
  s.commit (fun s => s.aluOp t w 1)

def execAluAnd (t : TileId) (w : Word32) (s : State) : Host.Outcome State Fault Refusal :=
  s.commit (fun s => s.aluOp t w 2)

def execAluOr (t : TileId) (w : Word32) (s : State) : Host.Outcome State Fault Refusal :=
  s.commit (fun s => s.aluOp t w 3)

def execAluXor (t : TileId) (w : Word32) (s : State) : Host.Outcome State Fault Refusal :=
  s.commit (fun s => s.aluOp t w 4)

def execSll (t : TileId) (w : Word32) (s : State) : Host.Outcome State Fault Refusal :=
  s.commit (fun s => s.aluOp t w 5)

def execSrl (t : TileId) (w : Word32) (s : State) : Host.Outcome State Fault Refusal :=
  s.commit (fun s => s.aluOp t w 6)

def execSra (t : TileId) (w : Word32) (s : State) : Host.Outcome State Fault Refusal :=
  s.commit (fun s => s.aluOp t w 7)

def execSlt (t : TileId) (w : Word32) (s : State) : Host.Outcome State Fault Refusal :=
  s.commit (fun s => s.aluOp t w 8)

def execSltu (t : TileId) (w : Word32) (s : State) : Host.Outcome State Fault Refusal :=
  s.commit (fun s => s.aluOp t w 9)

def execMul (t : TileId) (w : Word32) (s : State) : Host.Outcome State Fault Refusal :=
  s.commit (fun s => s.aluOp t w 10)

/-- An immediate instruction: sD := op sA IMM16 (R174). -/
def State.immOp (s : State) (t : TileId) (w : Word32) (opc : Nat) (legal : Bool) (op : Word64 → Nat → Word64) : State :=
  s.seqOp t w opc legal (fun s => (s.wrS t (sSD w) (op (s.rdS t (sSA w)) (sIMM w))).seqNext t)

def execAddi (t : TileId) (w : Word32) (s : State) : Host.Outcome State Fault Refusal :=
  s.commit (fun s => s.immOp t w 0x02 true (fun a i => a + sext64 16 i))

def execAndi (t : TileId) (w : Word32) (s : State) : Host.Outcome State Fault Refusal :=
  s.commit (fun s => s.immOp t w 0x03 true (fun a i => a &&& BitVec.ofNat 64 i))

def execOri (t : TileId) (w : Word32) (s : State) : Host.Outcome State Fault Refusal :=
  s.commit (fun s => s.immOp t w 0x04 true (fun a i => a ||| BitVec.ofNat 64 i))

def execXori (t : TileId) (w : Word32) (s : State) : Host.Outcome State Fault Refusal :=
  s.commit (fun s => s.immOp t w 0x05 true (fun a i => a ^^^ BitVec.ofNat 64 i))

def execSlli (t : TileId) (w : Word32) (s : State) : Host.Outcome State Fault Refusal :=
  s.commit (fun s => s.immOp t w 0x06 (sIMM w < 64) (fun a i => a <<< i))

def execSrli (t : TileId) (w : Word32) (s : State) : Host.Outcome State Fault Refusal :=
  s.commit (fun s => s.immOp t w 0x07 (sIMM w < 64) (fun a i => a >>> i))

def execSrai (t : TileId) (w : Word32) (s : State) : Host.Outcome State Fault Refusal :=
  s.commit (fun s => s.immOp t w 0x08 (sIMM w < 64) (fun a i => a.sshiftRight i))

def execSlti (t : TileId) (w : Word32) (s : State) : Host.Outcome State Fault Refusal :=
  s.commit (fun s => s.immOp t w 0x09 true (fun a i => if a.slt (sext64 16 i) then 1 else 0))

def execLui (t : TileId) (w : Word32) (s : State) : Host.Outcome State Fault Refusal :=
  s.commit (fun s => s.immOp t w 0x0A (sSA w == 0) (fun _ i => sext64 16 i <<< 16))

/-! ### Loads and stores of the own slab -/

/-- A slab access of the sequencer of n bytes at sA + sext(IMM16): ACC_ALIGN, then ACC_DECODE (R174, R177). -/
def State.seqMem (s : State) (t : TileId) (w : Word32) (opc n : Nat) (go : Nat → State → State) : State :=
  s.seqOp t w opc true (fun s =>
    let a := (s.rdS t (sSA w) + sext64 16 (sIMM w)).toNat
    if a % n != 0 then s.seqExc t Exc.ACC_ALIGN
    else if a ≥ slabSize then s.seqExc t Exc.ACC_DECODE
    else go (slabAddr t a) s)

/-- A load returns the stored bits even where the word has an error, which is recorded (R290). -/
def State.seqLoad (s : State) (t : TileId) (w : Word32) (opc n : Nat) : State :=
  s.seqMem t w opc n (fun a s =>
    let s := if (s.ueIn a n).isSome then s.slabUE t a [0] else s
    (s.wrS t (sSD w) (BitVec.ofNat 64 (s.rdNat a n))).seqNext t)

/-- A store; one that meets an error in a word it covers in part is dropped, and the error recorded (R616). -/
def State.seqStore (s : State) (t : TileId) (w : Word32) (opc n : Nat) : State :=
  s.seqMem t w opc n (fun a s =>
    let (s', bad) := s.slabStore a (leBytes n (s.rdS t (sSD w)).toNat)
    (if bad then s.slabUE t a [0] else s').seqNext t)

def execSeqLd (t : TileId) (w : Word32) (s : State) : Host.Outcome State Fault Refusal :=
  s.commit (fun s => s.seqLoad t w 0x10 8)

def execLdw (t : TileId) (w : Word32) (s : State) : Host.Outcome State Fault Refusal :=
  s.commit (fun s => s.seqLoad t w 0x11 4)

def execSeqSt (t : TileId) (w : Word32) (s : State) : Host.Outcome State Fault Refusal :=
  s.commit (fun s => s.seqStore t w 0x12 8)

def execStw (t : TileId) (w : Word32) (s : State) : Host.Outcome State Fault Refusal :=
  s.commit (fun s => s.seqStore t w 0x13 4)

/-! ### Branches -/

/-- A conditional branch (R174): SA in [25:21], SB in [20:16]. -/
def State.seqBranch (s : State) (t : TileId) (w : Word32) (opc : Nat) (cond : Word64 → Word64 → Bool) : State :=
  s.seqOp t w opc true (fun s =>
    if cond (s.rdS t (sSD w)) (s.rdS t (sSA w)) then s.setPc t ((s.tile t).pc + sext64 16 (sIMM w) * 4)
    else s.seqNext t)

def execBeq (t : TileId) (w : Word32) (s : State) : Host.Outcome State Fault Refusal :=
  s.commit (fun s => s.seqBranch t w 0x18 (fun a b => a == b))

def execBne (t : TileId) (w : Word32) (s : State) : Host.Outcome State Fault Refusal :=
  s.commit (fun s => s.seqBranch t w 0x19 (fun a b => a != b))

def execBlt (t : TileId) (w : Word32) (s : State) : Host.Outcome State Fault Refusal :=
  s.commit (fun s => s.seqBranch t w 0x1A (fun a b => a.slt b))

def execBge (t : TileId) (w : Word32) (s : State) : Host.Outcome State Fault Refusal :=
  s.commit (fun s => s.seqBranch t w 0x1B (fun a b => b.sle a))

def execBltu (t : TileId) (w : Word32) (s : State) : Host.Outcome State Fault Refusal :=
  s.commit (fun s => s.seqBranch t w 0x1C (fun a b => a.ult b))

def execBgeu (t : TileId) (w : Word32) (s : State) : Host.Outcome State Fault Refusal :=
  s.commit (fun s => s.seqBranch t w 0x1D (fun a b => b.ule a))

def execJal (t : TileId) (w : Word32) (s : State) : Host.Outcome State Fault Refusal :=
  s.commit (fun s => s.seqOp t w 0x1E true (fun s =>
    let pc := (s.tile t).pc
    (s.wrS t 31 (pc + 4)).setPc t (pc + sext64 26 (sOFF26 w) * 4)))

def execJalr (t : TileId) (w : Word32) (s : State) : Host.Outcome State Fault Refusal :=
  s.commit (fun s => s.seqOp t w 0x1F true (fun s =>
    let pc := (s.tile t).pc
    let target := (s.rdS t (sSA w) + sext64 16 (sIMM w)) &&& ~~~(3#64)
    (s.wrS t (sSD w) (pc + 4)).setPc t target))

/-! ### Points, delays and marks -/

/-- The current point lies before a point (turn, cycle), compared turn first (R185). -/
def State.before (s : State) (turn : Word64) (cycle : Nat) : Bool :=
  s.turnNo.toNat < turn.toNat || (s.turnNo == turn && s.cycle < cycle)

/-- The current point lies after a point. -/
def State.after (s : State) (turn : Word64) (cycle : Nat) : Bool :=
  turn.toNat < s.turnNo.toNat || (s.turnNo == turn && cycle < s.cycle)

/-- WAIT (R185). When the point is not in the future, the next instruction begins at once and LATE_WAIT is set. -/
def execWait (t : TileId) (w : Word32) (s : State) : Host.Outcome State Fault Refusal :=
  s.commit (fun s => s.seqOp t w 0x20 (sSD w == 0 && bitsOf w 15 12 == 0 && sX12 w < 1800) (fun s =>
    if s.before (s.rdS t (sSA w)) (sX12 w) then s.setWait t (some (.point (s.rdS t (sSA w)) (sX12 w)))
    else (s.setFld (.SQ_STATUS t.val) F.SQ_STATUS_LATE_WAIT 1).seqNext t))

/-- WAIT_POINT_REACHED (R185): the point of the turn arrives, and the next instruction begins in that cycle. -/
def execWaitPointReached (t : TileId) (s : State) : Host.Outcome State Fault Refusal :=
  s.commit (fun s =>
    match (s.tile t).wait with
    | some (.point turn cycle) =>
      if s.turnNo == turn || s.after turn cycle then
        (((if s.turnNo == turn then s.advanceTo cycle else s).setWait t none)).seqNext t
      else s
    | _ => s)

/-- DELAY (R184) counts cycles 0 to 1,799 of each turn. delayLeft is the number of such cycles from cycle 0 of the
current turn to the next instruction. -/
def execDelay (t : TileId) (w : Word32) (s : State) : Host.Outcome State Fault Refusal :=
  s.commit (fun s => s.seqOp t w 0x21 (sSD w == 0 && bitsOf w 15 0 == 0) (fun s =>
    let due := min s.cycle 1800 + max 1 (s.rdS t (sSA w)).toNat
    (s.setWait t (some .delay)).updTile t (fun x => { x with delayLeft := due })))

/-- DELAY_EXPIRY (R184): the count is over; where its last cycle is cycle 1,799 of a stretched turn, the next instruction begins
in the first appended cycle. -/
def execDelayExpiry (t : TileId) (s : State) : Host.Outcome State Fault Refusal :=
  s.commit (fun s =>
    let x := s.tile t
    let last := x.delayLeft == 1800 && s.fld .ROT_STATUS F.ROT_STATUS_STRETCH != 0
    if x.wait == some .delay && (x.delayLeft < 1800 || last) then ((s.advanceTo x.delayLeft).setWait t none).seqNext t else s)

/-- MARK (R186): a late one sets OVERRUN and SQ_LATE unless OVERRUN is set, and its fault is raised in cycle 0 of the
next turn; every MARK clears the MARK-gap count (R187). -/
def execMark (t : TileId) (w : Word32) (s : State) : Host.Outcome State Fault Refusal :=
  s.commit (fun s => s.seqOp t w 0x22 (sSD w == 0 && bitsOf w 15 12 == 0 && sX12 w < 1800) (fun s =>
    let turn := s.rdS t (sSA w)
    let late := s.after turn (sX12 w)
    let s := s.updTile t (fun x => { x with markGap := 0, lateMark := x.lateMark || late })
    let s := if late then s.tileCount t 14 1 else s
    let s := if late && s.fld (.SQ_STATUS t.val) F.SQ_STATUS_OVERRUN == 0 then
        ((s.setFld (.SQ_STATUS t.val) F.SQ_STATUS_OVERRUN 1).setFld (.SQ_LATE t.val) F.SQ_LATE_TURN turn.toNat).setFld
          (.SQ_LATE t.val) F.SQ_LATE_CYCLE (sX12 w)
      else s
    s.seqNext t))

/-- MARK_GAP_EXPIRY (R187): the count of turn boundaries without a MARK reached MARK_GAP. -/
def execMarkGapExpiry (t : TileId) (s : State) : Host.Outcome State Fault Refusal :=
  s.commit (fun s =>
    let gap := s.fld (.SQ_CTRL t.val) F.SQ_CTRL_MARK_GAP
    if gap != 0 && gap ≤ (s.tile t).markGap then
      (((s.updTile t (fun x => { x with markGap := 0 })).setFld (.SQ_STATUS t.val) F.SQ_STATUS_OVERRUN 1).tileCount
        t 14 1).wmEvent 0 [] (some t.val)
    else s)

/-! ### Mode -/

/-- The state of a sluice channel (R216). -/
def State.chanState (s : State) (t : TileId) (c : Nat) : Nat := s.fld (.SL_STATUS t.val c) F.SL_STATUS_STATE

/-- Whether MODE may go on: no kernel, and every channel started in the other mode idle (R198). -/
def State.modeFree (s : State) (t : TileId) (target : Bool) : Bool :=
  (s.tile t).kernel.isNone &&
  (List.range 8).all (fun c => s.chanState t c == 0 ||
    s.fld (.SL_STATUS t.val c) F.SL_STATUS_MODE == (if target then 1 else 0))

/-- MODE takes effect when its conditions hold; a switch from open to scheduled mode first drains the slab (R37,
R198). -/
def State.tryMode (s : State) (t : TileId) (w : Word32) : Option State :=
  let target := sX12 w == 1
  if !s.modeFree t target then none
  else if target && !s.schedMode t then none
  else some (s.setFld (.SQ_STATUS t.val) F.SQ_STATUS_MODE (if target then 1 else 0))

/-- The slab begins to drain when nothing else holds a switch to scheduled mode. -/
def State.beginDrain (s : State) (t : TileId) (w : Word32) : State :=
  if sX12 w == 1 && s.modeFree t true && !s.schedMode t then s.updTile t (fun x => { x with draining := true }) else s

/-! ### Kernels -/

/-- The reserved bits of a kernel descriptor are 0 (R193). -/
def kernelRes0 (x : List Byte) : Bool :=
  let b (i : Nat) : Nat := (x.getD i 0).toNat
  b 29 / 32 == 0 && b 31 == 0 && (List.range 8).all (fun i => b (56 + i) == 0)

/-- A kernel descriptor's fields (R193), for a launch in the tile's mode. -/
def Kernel.ofBytes (x : List Byte) (off : Nat) (sched : Bool) : Kernel where
  entry := BitVec.ofNat 64 (leNat ((x.drop 0).take 8))
  arg0 := BitVec.ofNat 64 (leNat ((x.drop 8).take 8))
  arg1 := BitVec.ofNat 64 (leNat ((x.drop 16).take 8))
  nblocks := leNat ((x.drop 24).take 4)
  ctx := x.getD 28 0
  g := (x.getD 29 0).toNat % 16 + 1
  cspace := (x.getD 29 0).toNat / 16 % 2 == 1
  vregs := (x.getD 30 0).toNat
  localUnits := leNat ((x.drop 32).take 2)
  excBase := leNat ((x.drop 34).take 2)
  layer := BitVec.ofNat 16 (leNat ((x.drop 36).take 2))
  operator := BitVec.ofNat 16 (leNat ((x.drop 38).take 2))
  poolBase := Vector.ofFn (fun q : Fin 4 => leNat ((x.drop (40 + 2 * q.val)).take 2))
  poolSize := Vector.ofFn (fun q : Fin 4 => leNat ((x.drop (48 + 2 * q.val)).take 2))
  desc := off
  sched := sched
  started := false
  failed := false
  status := 0
  startTime := 0

/-- A launch descriptor that R195 accepts. -/
def Kernel.descOk (k : Kernel) : Bool :=
  k.nblocks != 0 && k.vregs != 0 && k.localUnits ≤ 384 && k.excBase * 256 + 8192 ≤ slabSize &&
  (List.finRange 4).all (fun q => q.val * 384 ≤ k.poolBase[q] && k.poolBase[q] + k.poolSize[q] ≤ (q.val + 1) * 384)

/-- The end status with which a launch fails, 0 where it does not (R195): DESCRIPTOR 3, CONTEXT 4, OCCUPANCY 2. -/
def State.launchStatus (s : State) (t : TileId) (off : Nat) (x : List Byte) (k : Kernel) : Nat :=
  if off % 64 != 0 || off ≥ slabSize || (s.ueIn (slabAddr t off) 64).isSome || !kernelRes0 x || !k.descOk then 3
  else if !s.ctxAllowed t k.ctx then 4
  else if (List.finRange 4).any (fun q => k.blockLimit q == 0) then 2
  else 0

/-- LAUNCH, once no kernel of the tile runs: the descriptor is read and checked (R193 to R195). -/
def State.tryLaunch (s : State) (t : TileId) (w : Word32) : Option State :=
  if (s.tile t).kernel.isSome then none
  else
    let off := (s.rdS t (sSA w)).toNat
    let x := s.rdBytes (slabAddr t off) 64
    let k := Kernel.ofBytes x off (s.schedMode t)
    let st := s.launchStatus t off x k
    let s := if off % 64 == 0 && off < slabSize && (s.ueIn (slabAddr t off) 64).isSome
      then s.slabUE t (slabAddr t off) [0] else s
    let s := s.updTile t (fun x => { x with kernel := some { k with status := st } })
    some (s.setFld (.SQ_STATUS t.val) F.SQ_STATUS_KERNEL 1)

/-- KWAIT, once no kernel runs: sD := the end status of the most recent kernel (R195). -/
def State.tryKwait (s : State) (t : TileId) (w : Word32) : Option State :=
  if (s.tile t).kernel.isSome then none else some (s.wrS t (sSD w) (BitVec.ofNat 64 (s.tile t).endStatus))

/-! ### Channels and signals -/

/-- A channel number's own type. -/
def chanId (n : Nat) : ChanId := ⟨n % 8, Nat.mod_lt _ (by decide)⟩

/-- SLGO, once the channel is IDLE (R199). -/
def State.trySlgo (s : State) (t : TileId) (w : Word32) : Option State :=
  let c := sX12 w
  if s.chanState t c != 0 then none
  else
    let off := (s.rdS t (sSA w)).toNat
    let st := F.SL_STATUS_STATE.set (F.SL_STATUS_MODE.set 0 (if s.schedMode t then 1 else 0)) 1
    let s := (s.wr (.SL_STATUS t.val c) st).setFld (.SL_DESC t.val c) F.SL_DESC_DESC off
    let s := s.wr (.SL_COUNT t.val c) 0
    some (s.updChan t (chanId c) (fun y => { Chan.reset with next := off, nextId := y.nextId }))

/-- SLWAIT, once the channel is IDLE: sD := its status (R182). -/
def State.trySlwait (s : State) (t : TileId) (w : Word32) : Option State :=
  let c := sX12 w
  if s.chanState t c != 0 then none
  else some (s.wrS t (sSD w) (BitVec.ofNat 64 (s.fld (.SL_STATUS t.val c) F.SL_STATUS_STATUS)))

/-- A tile signal (R191). -/
def State.signal (s : State) (t : TileId) (n : Nat) : Word64 := s.rd (.SQ_SIG t.val n)

/-- SGWAIT, once the signal is at least sA (R191). -/
def State.trySgwait (s : State) (t : TileId) (w : Word32) : Option State :=
  if (s.rdS t (sSA w)).ule (s.signal t (sX12 w)) then some s else none

/-- A link number's own type. -/
def linkId (n : Nat) : LinkId := ⟨n % 36, Nat.mod_lt _ (by decide)⟩

/-- CNSIG, once the link is UP and holds the far tile's credit (R192, R266). -/
def State.tryCnsig (s : State) (t : TileId) (w : Word32) : Option State :=
  let l := linkId (sX12 w)
  if s.linkUp l && (s.link l).sigCredit[t.val]'(t.isLt) then
    some (s.updLink l (fun x =>
      { x with sigCredit := x.sigCredit.set t.val false t.isLt, sigOut := x.sigOut ++ [(t.val, s.rdS t (sSA w))] }))
  else none

/-- CNRCV, once a word from the link waits: sD := the oldest (R192). -/
def State.tryCnrcv (s : State) (t : TileId) (w : Word32) : Option State :=
  match (s.tile t).rx.find? (fun x => x.link == linkId (sX12 w)) with
  | none => none
  | some x => some ((s.updTile t (fun y => { y with rx := y.rx.erase x })).wrS t (sSD w) x.word)

/-- The attempt of an instruction that may have to wait: its effect, once its condition holds (R182). -/
def State.attempt (s : State) (t : TileId) (w : Word32) : Option State :=
  match sOPC w with
  | 0x23 => s.tryMode t w
  | 0x24 => s.tryLaunch t w
  | 0x25 => s.tryKwait t w
  | 0x26 => s.trySlgo t w
  | 0x27 => s.trySlwait t w
  | 0x28 => s.trySgwait t w
  | 0x2A => s.tryCnsig t w
  | 0x2B => s.tryCnrcv t w
  | _ => none

/-- The instruction takes effect, or the sequencer waits with it. -/
def State.attemptOrWait (s : State) (t : TileId) (w : Word32) : State :=
  match s.attempt t w with
  | some s' => (s'.setWait t none).seqNext t
  | none => (if sOPC w == 0x23 then s.beginDrain t w else s).setWait t (some (.instr w))

/-- A waiting sequencer tries again, after something that it may wait for has changed; not while it is held. -/
def State.seqWake (s : State) (t : TileId) : State :=
  match (s.tile t).wait with
  | some (.instr w) =>
    if s.seqState t == Seq.RUNNING && !(s.tile t).held then s.attemptOrWait t w else s
  | _ => s

def execMode (t : TileId) (w : Word32) (s : State) : Host.Outcome State Fault Refusal :=
  s.commit (fun s => s.seqOp t w 0x23 (bitsOf w 25 1 == 0) (fun s => s.attemptOrWait t w))

/-- An access of an open-mode agent to a slab that it accepted before it shut is still outstanding (R37): a lane of a load or an
atomic, a write, a piece of a sluice descriptor, or an engine's request. -/
def State.slabBusy (s : State) (t : TileId) : Bool :=
  let at_ (x : Target) : Bool := x.cls == .localMem && chipOf x.addr == s.chipId &&
    (match placeOf (localOf x.addr) with
     | .slab n _ => n == t
     | _ => false)
  let load (l : PendLoad) : Bool := l.lanes.any (fun x => x.sent && x.val.isNone && at_ x.tgt)
  let write (w : PendWrite) : Bool := w.sent && !w.performed && at_ w.tgt
  (List.finRange 48).any (fun u =>
    let x := s.tile u
    (u != t && !s.schedMode u && (List.finRange 4).any (fun q =>
      let c := x.core q
      c.orphanLoads.any load || c.orphans.any write || (List.finRange 32).any (fun i =>
        match c.group i with
        | some g => g.loads.any load || g.writes.any write
        | none => false))) ||
    (u != t && (List.finRange 8).any (fun c =>
      s.fld (.SL_STATUS u.val c.val) F.SL_STATUS_MODE == 0 &&
        (s.chan u c).flight.any (fun m => (m.src.any at_ && !m.arrived) || (m.dst.any at_ && m.sent && !m.performed)))))

/-- SLAB_DRAIN_DONE (R37): the drain of a switch toward scheduled mode ends once every access that the slab accepted before it is
done, and MODE completes. -/
def execSlabDrainDone (t : TileId) (s : State) : Host.Outcome State Fault Refusal :=
  s.commit (fun s =>
    let x := s.tile t
    if x.draining && !s.slabBusy t then
      let s := s.updTile t (fun x => { x with draining := false })
      match x.wait with
      | some (.instr w) =>
        if sOPC w == 0x23 && s.seqState t == Seq.RUNNING then
          ((s.setFld (.SQ_STATUS t.val) F.SQ_STATUS_MODE 1).setWait t none).seqNext t
        else s
      | _ => s
    else s)

def execLaunch (t : TileId) (w : Word32) (s : State) : Host.Outcome State Fault Refusal :=
  s.commit (fun s => s.seqOp t w 0x24 (sSD w == 0 && bitsOf w 15 0 == 0) (fun s => s.attemptOrWait t w))

def execKwait (t : TileId) (w : Word32) (s : State) : Host.Outcome State Fault Refusal :=
  s.commit (fun s => s.seqOp t w 0x25 (bitsOf w 20 0 == 0) (fun s => s.attemptOrWait t w))

def execSlgo (t : TileId) (w : Word32) (s : State) : Host.Outcome State Fault Refusal :=
  s.commit (fun s => s.seqOp t w 0x26 (sSD w == 0 && bitsOf w 15 3 == 0) (fun s => s.attemptOrWait t w))

def execSlwait (t : TileId) (w : Word32) (s : State) : Host.Outcome State Fault Refusal :=
  s.commit (fun s => s.seqOp t w 0x27 (bitsOf w 20 3 == 0) (fun s => s.attemptOrWait t w))

def execSgwait (t : TileId) (w : Word32) (s : State) : Host.Outcome State Fault Refusal :=
  s.commit (fun s => s.seqOp t w 0x28 (sSD w == 0 && bitsOf w 15 6 == 0) (fun s => s.attemptOrWait t w))

/-- A tile signal takes a value, and a sequencer that waits for it tries again (R191). -/
def State.setSignal (s : State) (t : TileId) (n : Nat) (v : Word64) : State := (s.wr (.SQ_SIG t.val n) v).seqWake t

/-- A tile signal is added to, modulo 2^64 (R191). -/
def State.addSignal (s : State) (t : TileId) (n : Nat) (v : Word64) : State := s.setSignal t n (s.signal t n + v)

def execSgset (t : TileId) (w : Word32) (s : State) : Host.Outcome State Fault Refusal :=
  s.commit (fun s => s.seqOp t w 0x29 (sSD w == 0 && bitsOf w 15 6 == 0) (fun s =>
    (s.setSignal t (sX12 w) (s.rdS t (sSA w))).seqNext t))

/-- SQ_SIG_WRITE (R191): a register-bus write of a signal, with the adds that reach it in the same FCLK. -/
def execSqSigWrite (t : TileId) (n : Fin 64) (v : Word64) (adds : List Word64) (s : State) :
    Host.Outcome State Fault Refusal :=
  s.commit (fun s => if (s.tile t).inReset then s else s.setSignal t n.val (adds.foldl (· + ·) v))

def execCnsig (t : TileId) (w : Word32) (s : State) : Host.Outcome State Fault Refusal :=
  s.commit (fun s => s.seqOp t w 0x2A (sSD w == 0 && bitsOf w 15 6 == 0 && sX12 w < 36) (fun s => s.attemptOrWait t w))

def execCnrcv (t : TileId) (w : Word32) (s : State) : Host.Outcome State Fault Refusal :=
  s.commit (fun s => s.seqOp t w 0x2B (sSA w == 0 && bitsOf w 15 6 == 0 && sX12 w < 36) (fun s => s.attemptOrWait t w))

/-- The status word of a link (R192). -/
def State.cnstatWord (s : State) (t : TileId) (l : LinkId) : Word64 :=
  let up := if s.linkUp l then 1 else 0
  let valid := s.fld (.LK_PING l.val) F.LK_PING_LAT_VALID
  let n := ((s.tile t).rx.filter (fun x => x.link == l)).length
  let lat := s.fld (.LK_LAT l.val) F.LK_LAT_OUT
  BitVec.ofNat 64 (up + 2 * valid + 256 * (n % 256) + 65536 * (if valid == 1 then lat else 0))

def execCnstat (t : TileId) (w : Word32) (s : State) : Host.Outcome State Fault Refusal :=
  s.commit (fun s => s.seqOp t w 0x2C (sSA w == 0 && bitsOf w 15 6 == 0 && sX12 w < 36) (fun s =>
    (s.wrS t (sSD w) (s.cnstatWord t (linkId (sX12 w)))).seqNext t))

/-- SIGNAL_WORD_RECEIVE (R192, R266): the oldest word that the link keeps for a tile enters its receive queue, which holds 32, and
its credit goes back. -/
def execSignalWordReceive (l : LinkId) (t : TileId) (v : Word64) (s : State) : Host.Outcome State Fault Refusal :=
  s.commit (fun s =>
    let oldest := ((s.link l).sigHeld.find? (fun x => x.1 == t)).map (fun x => x.2)
    if (s.tile t).rx.length < 32 && !(s.tile t).inReset && oldest == some v then
      let s := s.updLink l (fun x => { x with sigHeld := x.sigHeld.erase (t, v), oweSig := x.oweSig ++ [t] })
      (s.updTile t (fun x => { x with rx := x.rx ++ [⟨l, v⟩] })).seqWake t
    else s)

/-! ### Reads of time, TRAP, HALT, FENCE, NOP -/

/-- An instruction that reads a value into sD with SA and X12 RES0. -/
def State.seqRead (s : State) (t : TileId) (w : Word32) (opc : Nat) (v : State → Word64) : State :=
  s.seqOp t w opc (bitsOf w 20 0 == 0) (fun s => (s.wrS t (sSD w) (v s)).seqNext t)

def execSeqTime (t : TileId) (w : Word32) (s : State) : Host.Outcome State Fault Refusal :=
  s.commit (fun s => s.seqRead t w 0x30 State.timestamp)

def execTurn (t : TileId) (w : Word32) (s : State) : Host.Outcome State Fault Refusal :=
  s.commit (fun s => s.seqRead t w 0x31 State.turnNo)

def execCyc (t : TileId) (w : Word32) (s : State) : Host.Outcome State Fault Refusal :=
  s.commit (fun s => s.seqRead t w 0x32 (fun s => BitVec.ofNat 64 s.cycle))

def execSeqTrap (t : TileId) (w : Word32) (s : State) : Host.Outcome State Fault Refusal :=
  s.commit (fun s => s.seqOp t w 0x35 (bitsOf w 25 12 == 0) (fun s => s.seqExc t Exc.TRAP))

def execHalt (t : TileId) (w : Word32) (s : State) : Host.Outcome State Fault Refusal :=
  s.commit (fun s => s.seqOp t w 0x36 (bitsOf w 25 0 == 0) (fun s => s.setSeqState t Seq.HALTED))

/-- FENCE (R394): the sequencer's earlier accesses are performed as they execute, so it completes at once. -/
def execSeqFence (t : TileId) (w : Word32) (s : State) : Host.Outcome State Fault Refusal :=
  s.commit (fun s => s.seqOp t w 0x37 (bitsOf w 25 0 == 0) (fun s => s.seqNext t))

def execSeqNop (t : TileId) (w : Word32) (s : State) : Host.Outcome State Fault Refusal :=
  s.commit (fun s => s.seqOp t w 0x3E (bitsOf w 25 0 == 0) (fun s => s.seqNext t))

/-! ### START, STOP and errors -/

/-- START (R180): the program window is checked, then the copy begins; SQ_PROG is latched. -/
def State.seqStart (s : State) (t : TileId) : State :=
  if (s.tile t).inReset || s.seqState t == Seq.RUNNING then s
  else
    let size := s.fld (.SQ_PROG t.val) F.SQ_PROG_SIZE
    let base := s.fld (.SQ_PROG t.val) F.SQ_PROG_BASE
    if size == 0 || 256 < size || slabSize < (base + size) * 256 then (s.setPc t 0).seqExc t Exc.ACC_DECODE
    else
      (s.updTile t (fun x => { x with starting := true, progBase := base, progSize := size })).setSeqState t Seq.RUNNING

/-- START. -/
def execStart (t : TileId) (s : State) : Host.Outcome State Fault Refusal := s.commit (fun s => s.seqStart t)

/-- Program memory as the copy leaves it: the words of the window, the others as they were (R180). -/
def State.programCopy (s : State) (t : TileId) : List (Nat × Word32) :=
  let x := s.tile t
  (List.range (x.progSize * 64)).foldl (fun pm i =>
    Assoc.put id 0 pm i (BitVec.ofNat 32 (s.rdNat (slabAddr t (x.progBase * 256 + 4 * i)) 4))) x.pmem

/-- Program memory after an abandoned copy: an unspecified mix of old and new contents (R180, R181). -/
def State.mixProgram (s : State) (t : TileId) : State :=
  let (n, s) := s.takeFresh
  let x := s.tile t
  let new := s.programCopy t
  let word (i : Nat) : Word32 := (Assoc.get? (if Config.freeBits n i % 2 == 1 then new else x.pmem) i).getD 0
  let pm := (List.range (x.progSize * 64)).foldl (fun pm i => Assoc.put id 0 pm i (word i)) x.pmem
  s.updTile t (fun x => { x with pmem := pm })

/-- PROGRAM_COPY_DONE (R180): s1 to s31, the program counter and SQ_EXC become 0 and the program runs; an uncorrectable
slab word faults the sequencer instead. -/
def execProgramCopyDone (t : TileId) (s : State) : Host.Outcome State Fault Refusal :=
  s.commit (fun s =>
    let x := s.tile t
    if !x.starting then s
    else
      match s.ueIn (slabAddr t (x.progBase * 256)) (x.progSize * 256) with
      | some a =>
        let s := (s.mixProgram t).updTile t (fun x => { x with starting := false })
        ((s.setPc t 0).seqPmErr t).slabUE t a [0]
      | none =>
        let pm := s.programCopy t
        let s := s.updTile t (fun x => { x with starting := false, pmem := pm, s := Vector.replicate 32 0, markGap := 0 })
        (s.setPc t 0).wr (.SQ_EXC t.val) 0)

/-- STOP (R181). DESIGN CHOICE (log 118): a STOP that abandons a MODE ends its drain, and the slab accepts coherent requests
again. -/
def State.seqStop (s : State) (t : TileId) : State :=
  let x := s.tile t
  if s.seqState t != Seq.RUNNING then s
  else if x.starting then
    ((s.mixProgram t).updTile t (fun x => { x with starting := false })).setSeqState t Seq.STOPPED
  else ((s.setWait t none).setSeqState t Seq.STOPPED).updTile t (fun x => { x with draining := false })

/-- STOP. -/
def execStop (t : TileId) (s : State) : Host.Outcome State Fault Refusal := s.commit (fun s => s.seqStop t)

/-- PM_UNCORRECTABLE (R189): an uncorrectable error on a fetch from program memory. -/
def execPmUncorrectable (t : TileId) (s : State) : Host.Outcome State Fault Refusal :=
  s.commit (fun s => if s.seqReady t then s.seqPmErr t else s)

/-! ### The start and the end of a kernel -/

/-- A core as a kernel starts on it (R111, R126, R142, R143): empty caches, no groups, its first block number, then as
many blocks as it can hold, whose first groups take the active slots. -/
def Core.startKernel (c : Core) (k : Kernel) (q : CoreId) : Core :=
  let c := { c with
    groups := Vector.replicate 32 none
    active := Vector.replicate 8 none
    blocks := Vector.replicate 8 none
    nextBlock := q.val
    l1d := []
    l1i := [] }
  let c := (List.range 8).foldl (fun c _ => c.startBlock k q) c
  (List.range 8).foldl (fun c _ => c.fillSlot) c

/-- What VC_OCC and VC_EXC of a core show of a kernel (R125, R151). -/
def State.occupancy (s : State) (t : TileId) (k : Kernel) : State :=
  (List.finRange 4).foldl (fun s q =>
    let r := Reg.VC_OCC t.val q.val
    let s := ((s.setFld r F.VC_OCC_ALLOC_ROWS k.alloc).setFld r F.VC_OCC_LIMIT (k.limitTerm q)).setFld
      r F.VC_OCC_BLOCK_LIMIT (k.blockLimit q)
    let s := s.wr (.VC_EXC t.val q.val) 0
    s.setFld (.VC_STATUS t.val q.val) F.VC_STATUS_MODE (if k.sched then 1 else 0)) s

/-- Headgate commands that launched the kernel of a tile learn how it ended: with the last of its kernels a command is OK,
or KERNEL_FAIL with the lowest tile that failed and its end status (R449). -/
def HgCmd.kernelOver (c : HgCmd) (t : TileId) (status : Nat) : HgCmd :=
  if c.tiles.contains t then
    let left := c.tiles.erase t
    let failed := if status == 0 then c.failed else c.failed ++ [(t, status)]
    let low := (List.finRange 48).findSome? (fun u => failed.find? (fun x => x.1 == u))
    { c with
      tiles := left
      failed := failed
      result := if left.isEmpty then
          some (match low with
            | some x => (0x0F, x.1.val, x.2)
            | none => (0x01, 0, 0))
        else c.result }
  else c

def Heads.kernelOver (h : Heads) (t : TileId) (status : Nat) : Heads :=
  { h with list := h.list.map (fun x => (x.1, { x.2 with cmds := x.2.cmds.map (fun c => c.kernelOver t status) })) }

/-- The kernel of a tile is over with a status; instructions of the sequencer that wait for it proceed (R195, R196). -/
def State.kernelOver (s : State) (t : TileId) (status : Nat) : State :=
  let s := s.updTile t (fun x => { x with kernel := none, endStatus := status })
  let s := { s with heads := s.heads.kernelOver t status }
  let s := s.tileCount t 5 1
  let s := if status == 0 then s else s.tileCount t 6 1
  let s := s.leaveFaults (fun w => match w with
    | .group g => g.tile == t
    | _ => false)
  (s.setFld (.SQ_STATUS t.val) F.SQ_STATUS_KERNEL 0).seqWake t

/-- KERNEL_START (R92, R194, R195, R615): cycle 8 of a launch, which for a scheduled-mode tile comes in cycles 0 to 1,799. -/
def execKernelStart (t : TileId) (s : State) : Host.Outcome State Fault Refusal :=
  s.commit (fun s =>
    let x := s.tile t
    match x.kernel with
    | none => s
    | some k =>
      if k.started || (k.sched && s.appended) then s
      else if k.status != 0 then (if k.status == 2 then s.occupancy t k else s).kernelOver t k.status
      else
        let clear := match x.prevCtx with
          | some c => c != k.ctx
          | none => false
        let k := { k with started := true, startTime := s.timestamp }
        let s := if s.fld .OBS_CTRL F.OBS_CTRL_RST_MODE == 1 then s.clearCounts (fun n => fullTile n == some t.val) else s
        let s := if s.tagMatches k.layer k.operator then s.trigEvent 2 0 else s
        let s := s.updTile t (fun x =>
          { x with
            kernel := some k
            prevCtx := some k.ctx
            layer := k.layer
            operator := k.operator
            ta := { x.ta with clearing := x.ta.clearing || clear }
            cores := Vector.ofFn (fun q : Fin 4 => (x.core q).startKernel k q) })
        s.occupancy t k)

/-- Every store and atomic of a core's groups has been performed (R196). -/
def Core.storesDone (c : Core) : Bool :=
  c.merge.isEmpty && c.orphans.all (fun w => w.performed) && c.orphanLoads.isEmpty &&
  (List.finRange 32).all (fun i =>
    match c.group i with
    | some gr => gr.writes.all (fun w => w.performed) && gr.loads.all (fun l => l.atomic.isNone)
    | none => true)

/-- Every group of every block of the kernel has ended on this core. A group that halted, or that a failed kernel keeps
from issuing, has ended (R149, R197). -/
def Core.groupsDone (c : Core) (k : Kernel) : Bool :=
  k.failed || (c.nextBlock ≥ k.nblocks && (List.finRange 32).all (fun i => (c.group i).isNone))

/-- No matrix instruction of the tile is short of DONE (R80). -/
def Tensor.idle (ta : Tensor) : Bool := ta.issued.isEmpty && ta.mq.isEmpty && ta.tq.isEmpty && ta.ended.isEmpty

/-- The flags of groups that are still resident when their kernel ends (R106). -/
def Core.leftFlags (c : Core) : FFlags :=
  (List.finRange 32).foldl (fun f i =>
    match c.group i with
    | some gr => f ||| gr.fflags
    | none => f) 0

/-- A core after its kernel has ended. -/
def Core.endKernel (c : Core) : Core :=
  { c with
    groups := Vector.replicate 32 none
    active := Vector.replicate 8 none
    blocks := Vector.replicate 8 none
    orphans := c.orphans ++ (List.finRange 32).flatMap (fun i =>
      match c.group i with
      | some gr => gr.writes
      | none => [])
    orphanLoads := [] }

/-- KERNEL_END (R196, R197, R349): the conditions of R196 hold. A tile whose atomic store holds lines evicts them first,
and the kernel ends once every eviction is acknowledged. A failed kernel ends with EXCEPTION and raises the tile's
kernel-exception source. -/
def execKernelEnd (t : TileId) (s : State) : Host.Outcome State Fault Refusal :=
  s.commit (fun s =>
    let x := s.tile t
    match x.kernel with
    | none => s
    | some k =>
      if k.started && x.ta.idle && (List.finRange 4).all (fun q => (x.core q).groupsDone k && (x.core q).storesDone) &&
          x.reqs.all (fun r => r.kind != .acquire) then
        if !x.atoms.isEmpty then
          (x.atoms.filter (fun a => !a.evicting)).foldl (fun s a => s.evictAtom t a) s
        else
        let s := (List.finRange 4).foldl (fun s q =>
          s.orReg (.VC_FLAGS t.val q.val) ((x.core q).leftFlags.setWidth 64)) s
        let s := s.updTile t (fun x => { x with cores := x.cores.map Core.endKernel })
        let s := if k.failed then s.wmEvent 3 [k.ctx] (some t.val) else s
        s.kernelOver t k.status
      else s)

end Sys2Proof.Machine
end

