-- ==== Sys2Proof/Machine/VecMem.lean ====
section
/-! DEFINITION. Memory instructions of a group (R166 to R168): their words, the checks of an access (R145, R146, R177),
loads, stores, atomics, fences, and the events that complete them. -/

namespace Sys2Proof.Machine

/-! ### Words of format V-M (R158, R166, R168) -/

def mUB (w : Word64) : Nat := bitsOf w 23 18
def mSZ (w : Word64) : BitVec 3 := BitVec.ofNat 3 (bitsOf w 17 15)
def mOS (w : Word64) : Bool := bitOf w 14
def mIMM14 (w : Word64) : Nat := bitsOf w 13 0
def mIMM10 (w : Word64) : Nat := bitsOf w 9 0
def mAOP (w : Word64) : BitVec 4 := BitVec.ofNat 4 (bitsOf w 13 10)

/-- The three address spaces of R166. -/
inductive MSpace where
  | ownSlab | blockLocal | virt
deriving DecidableEq, Repr

/-- The three kinds of access. -/
inductive MKind where
  | load | store | atomic
deriving DecidableEq, Repr

/-- The registers that a value of a size code spans (R155, R166). -/
def szSpan (sz : BitVec 3) : Nat := max 1 (szBytes sz / 4)

/-- UB and OS are RES0 outside virtual addresses (R166). -/
def mSpaceOk (w : Word64) (sp : MSpace) : Bool := sp == .virt || (mUB w == 0 && !mOS w)

/-- The word is well formed as a load, a store or an atomic (R155, R156, R158, R166, R168). DESIGN CHOICE (log entry 116): VB of a
CAS is aligned as a span of both of its values. -/
def mLegal (w : Word64) (sp : MSpace) (kind : MKind) : Bool :=
  guardOk w true && mSpaceOk w sp && (SrcKind.v 1).ok (vVA w) && keepOk (vKA w) (.v 1) (vVA w) &&
  (match kind with
   | .load => (mSZ w).toNat < 7 && (DstKind.v (szSpan (mSZ w))).ok (vVD w) && vVB w == 0 && !vKB w && !vKC w
   | .store => (mSZ w).toNat < 7 && (SrcKind.v (szSpan (mSZ w))).ok (vVD w) && vVB w == 0 && !vKB w &&
      keepOk (vKC w) (.v 1) (vVD w)
   | .atomic =>
     let n := szSpan (mSZ w)
     ((mSZ w).toNat == 4 || ((mSZ w).toNat == 5 && mAOP w != 10)) && (mAOP w).toNat ≤ 10 && (DstKind.v n).ok (vVD w) &&
     (if mAOP w == 9 then vVB w != 255 && (SrcKind.v (2 * n)).ok (vVB w) else (SrcKind.v n).ok (vVB w)) &&
     keepOk (vKB w) (.v 1) (vVB w) && !vKC w)

/-- The v registers that the word reads and writes. -/
def mSources (w : Word64) (kind : MKind) : List Nat :=
  spanRegs (vVA w) 1 ++
  (match kind with
   | .load => []
   | .store => spanRegs (vVD w) (szSpan (mSZ w))
   | .atomic => spanRegs (vVB w) (if mAOP w == 9 then 2 * szSpan (mSZ w) else szSpan (mSZ w)))

/-- The v registers that the word reads through the register cache, with their keep hints (R108, R156). -/
def mReads (w : Word64) (kind : MKind) : List (Nat × Bool) :=
  let data := (mSources w kind).drop (spanRegs (vVA w) 1).length
  (spanRegs (vVA w) 1).map (fun r => (r, vKA w)) ++ data.map (fun r => (r, if kind == .store then vKC w else vKB w))

def mDests (w : Word64) (kind : MKind) : List Nat :=
  match kind with
  | .store => []
  | _ => spanRegs (vVD w) (szSpan (mSZ w))

/-- The address of a thread (R166): a 32-bit offset in the slab and local spaces, a 64-bit virtual address otherwise. -/
def mAddress (gr : Group) (w : Word64) (sp : MSpace) (kind : MKind) (i : Nat) : Word64 :=
  let va := (gr.rdV (vVA w)).getD i 0
  let imm := if kind == .atomic then sext64 10 (mIMM10 w) else sext64 14 (mIMM14 w)
  match sp with
  | .virt => gr.rdU (mUB w) + (if mOS w then va.signExtend 64 else va.setWidth 64) + imm
  | _ => ((va + imm.setWidth 32).setWidth 64)

/-! ### Checks (R145, R146, R177) -/

/-- What the checks of one thread's access find. -/
inductive LaneCheck where
  | ok (tgt : Target) (count : Bool)
  | bad (code : Nat)
  | miss
deriving DecidableEq, Repr

/-- The target of an own-slab offset. -/
def State.ownTarget (s : State) (t : TileId) (off : Nat) : Target :=
  ⟨.localMem, s.chipId * 2 ^ 43 + slabAddr t off, .normal⟩

/-- One thread's checks in the order ALIGN, LOCAL_RANGE, TRANSLATION, PERMISSION, PLANE, DECODE (R127, R145, R166, R177,
R292, R321, R432). -/
def State.checkLane (s : State) (g : GroupId) (gr : Group) (k : Kernel) (sp : MSpace) (acc : BitVec 4) (n : Nat)
    (va : Word64) : LaneCheck :=
  let slab (off : Nat) : LaneCheck :=
    if s.revoked k.ctx || (off < slabSize && !s.slabOwned g.tile k.ctx off) then .bad Exc.ACC_PERMISSION
    else if off ≥ slabSize then .bad Exc.ACC_DECODE
    else .ok (s.ownTarget g.tile off) false
  if va.toNat % n != 0 then .bad Exc.ACC_ALIGN
  else
    match sp with
    | .ownSlab => slab va.toNat
    | .blockLocal =>
      if va.toNat + n > k.localUnits * 4096 then .bad Exc.ACC_LOCAL_RANGE
      else slab (k.poolBase[g.core] * 4096 + gr.blockSlot * (k.localUnits * 4096) + va.toNat)
    | .virt =>
      match s.translate (s.tile g.tile).rcV k.sched k.ctx va acc with
      | .miss => if k.sched then .bad Exc.ACC_TRANSLATION else .miss
      | .permission => .bad Exc.ACC_PERMISSION
      | .ok tgt count =>
        if s.revoked k.ctx then .bad Exc.ACC_PERMISSION
        else if k.sched && s.planeRefuses g.tile tgt (acc == accA) then .bad Exc.ACC_PLANE
        else if s.decodeRefuses tgt then .bad Exc.ACC_DECODE
        else .ok tgt count

/-- What stops an access, if anything does: the lowest-numbered thread that does not pass its checks decides (R146, R177). Its
failing check is reported with its address and the threads that fail the same check (R178); its missing range is walked. -/
inductive AccessStop where
  | fault (code : Nat) (va : Word64) (failMask : Word64)
  | walk (va : Word64)
deriving DecidableEq, Repr

def accessStop (cs : List (Nat × Word64 × LaneCheck)) : Option AccessStop :=
  cs.findSome? (fun x =>
    match x.2.2 with
    | .bad code => some (.fault code x.2.1 (maskOf (fun i => cs.any (fun y => y.1 == i && y.2.2 == .bad code))))
    | .miss => some (.walk x.2.1)
    | .ok _ _ => none)

/-- What a late report of the access carries, at a thread's address (R178). -/
def lateRec (gr : Group) (w : Word64) (m : Word64) (kind : MKind) (va : Word64) : LateRec where
  cause := 0
  pc := gr.pc
  addr := va
  failMask := m
  active := gr.mask
  word := w
  write := kind != .load
  atomic := kind == .atomic

/-- The accesses of an instruction pass their checks or raise one access fault; a missing range holds the group until its
walk is done (R146, R148). -/
def State.access (s : State) (g : GroupId) (gr : Group) (k : Kernel) (w : Word64) (kind : MKind)
    (cs : List (Nat × Word64 × LaneCheck)) (acc : BitVec 4) (go : List (Nat × Word64 × Target × Bool) → State) : State :=
  match accessStop cs with
  | some (.walk va) => s.leaveActive g (.walk va acc w)
  | some (.fault code va m) =>
    s.takeException g gr k
      { code := code, cause := 0, fetch := false, write := kind != .load, atomic := kind == .atomic, pc := gr.pc
        addr := va, failMask := m, active := gr.mask, word := w }
  | none => go (cs.filterMap (fun x =>
      match x.2.2 with
      | .ok tgt count => some (x.1, x.2.1, tgt, count)
      | _ => none))

/-! ### Loads -/

/-- Whether a target lies in the tile's own slab. -/
def State.isOwn (s : State) (t : TileId) (tgt : Target) : Bool :=
  tgt.cls == .localMem && chipOf tgt.addr == s.chipId &&
  (match placeOf (localOf tgt.addr) with
   | .slab n _ => n == t
   | _ => false)

/-- The register marks of a late report on threads of a load (R150). -/
def Group.markRegs (gr : Group) (vd : Nat) (sz : BitVec 3) (m : Word64) (r : LateRec) : Group :=
  { gr with marks := gr.marks ++ (liveRegs vd sz m).map (fun x => ⟨x.1, x.2, r⟩) }

/-- Earlier loads no longer write the registers of a load. -/
def Group.clearRegs (gr : Group) (vd : Nat) (sz : BitVec 3) (m : Word64) : Group :=
  (liveRegs vd sz m).foldl (fun (gr : Group) x => gr.clearReg x.1 x.2) gr

/-- A direct read of the own slab by threads of a load: refused by the slab through its window (R292), or an uncorrectable
error (R290), marks the registers of the threads concerned. via says that the access goes through the slab window. The group
after it, and what it records. -/
def State.directLoad (s : State) (g : GroupId) (gr : Group) (k : Kernel) (w : Word64) (m : Word64)
    (ls : List (Nat × Word64 × Target)) (via : Bool) : Group × (State → State) :=
  let n := szBytes (mSZ w)
  let off (x : Nat × Word64 × Target) : Nat := localOf x.2.2.addr
  let refused := ls.filter (fun x => via && !s.slabOwned g.tile k.ctx ((off x - slabBase) % 0x800000))
  let ok := ls.filter (fun x => !refused.contains x)
  let ues := ok.filter (fun x => (s.ueIn (off x) n).isSome)
  let good := ok.filter (fun x => !ues.contains x)
  let gm := maskOf (fun i => good.any (fun x => x.1 == i))
  let word (j i : Nat) : Word32 :=
    match good.find? (fun x => x.1 == i) with
    | some x => (szWords (mSZ w) (s.rdNat (off x) n)).getD j 0
    | none => 0
  let gr := (liveRegs (vVD w) (mSZ w) gm).foldl (fun gr x => gr.wrV x.1 x.2 (word (x.1 - vVD w))) gr
  let mark (gr : Group) (xs : List (Nat × Word64 × Target)) (cause : Byte) : Group :=
    match xs with
    | [] => gr
    | x :: _ =>
      let cm := maskOf (fun i => xs.any (fun y => y.1 == i))
      (gr.clearRegs (vVD w) (mSZ w) cm).markRegs (vVD w) (mSZ w) cm { (lateRec gr w m MKind.load x.2.1) with cause := cause }
  (mark (mark gr refused 1) ues 2, fun s =>
    let s := refused.foldl (fun s x => s.ownerRefusal k.ctx (off x) none) s
    match ues with
    | x :: _ => s.slabUE g.tile (off x) [k.ctx] n
    | [] => s)

/-- The line of the L1 data cache that holds a target (R141). -/
def Core.dline (c : Core) (tgt : Target) : Option DLine :=
  c.l1d.find? (fun l => l.cls == tgt.cls && l.addr == tgt.addr / 64 * 64)

/-- The line becomes the most recently used. -/
def Core.dtouch (c : Core) (tgt : Target) : Core :=
  match c.dline tgt with
  | some l => { c with l1d := l :: c.l1d.erase l }
  | none => c

/-- Lines with a parity error among those that the targets hit are invalidated and counted (R144). -/
def State.dropBadLines (s : State) (t : TileId) (c : CoreId) (tgts : List Target) : State :=
  let bad := (s.core t c).l1d.filter (fun l => l.parity && tgts.any (fun x => x.cls == l.cls && x.addr / 64 * 64 == l.addr))
  if bad.isEmpty then s
  else (s.updCore t c (fun x => { x with l1d := x.l1d.filter (fun l => !bad.contains l) })).countParity t bad.length

/-- The cache with a line filled: 4 ways of 256 sets, the least recently used line of the set replaced (R141). DESIGN CHOICE (log
entry 115): a line's set is its address / 64 mod 256, whatever its target class. -/
def dFill (ls : List DLine) (l : DLine) : List DLine :=
  let set_ (x : DLine) : Nat := x.addr / 64 % 256
  let rest := ls.filter (fun x => !(x.cls == l.cls && x.addr == l.addr))
  let same := rest.filter (fun x => set_ x == set_ l)
  let drop := if same.length < 4 then [] else same.drop 3
  l :: rest.filter (fun x => !drop.contains x)

/-- A load of the L1 data cache in open mode: NORMAL, and not a slab (R34, R141, R387). -/
def State.cacheable (_s : State) (k : Kernel) (tgt : Target) : Bool :=
  !k.sched && tgt.typ == .normal &&
  !(tgt.cls == .localMem &&
    (match placeOf (localOf tgt.addr) with
     | .slab _ _ => true
     | _ => false))

/-- The stores in flight that a load of the group sees: its own (R381), and those of its block that a released barrier has made
visible (R137), the latest first. -/
def Core.visibleWrites (c : Core) (gr : Group) : List PendWrite :=
  let shared (ws : List PendWrite) : List PendWrite := ws.filter (fun w => w.barrier == some gr.block)
  let others := (List.finRange 32).flatMap (fun i =>
    match c.group i with
    | some x => if x.block == gr.block && x.num == gr.num then [] else shared x.writes
    | none => [])
  ((gr.writes ++ others ++ shared c.orphans).foldr (insertBy (fun (w : PendWrite) => w.id)) []).reverse

/-- Their bytes, the latest first. -/
def Core.inFlight (c : Core) (gr : Group) : List (Nat × Byte) :=
  (c.visibleWrites gr).flatMap (fun w => w.bytes.map (fun b => (lineKey { w.tgt with addr := b.1 }, b.2)))

/-- An entry of the merge buffer, or a write of one in flight, holds bytes of a line that a STREAM or DEVICE load touches
(R388). -/
def Core.mergeHolds (c : Core) (tgt : Target) : Bool :=
  c.merge.any (fun e => e.tgt.cls == tgt.cls && e.tgt.addr == tgt.addr / 64 * 64)

def Core.streamInFlight (c : Core) (tgt : Target) : Bool :=
  let hits (w : PendWrite) : Bool :=
    w.tgt.typ == .stream && !w.performed && w.tgt.cls == tgt.cls && w.tgt.addr / 64 == tgt.addr / 64
  c.orphans.any hits || (List.finRange 32).any (fun i =>
    match c.group i with
    | some gr => gr.writes.any hits
    | none => false)

/-- Loads and atomics of the group whose lanes all have their value are performed. -/
def State.settleAtomics (s : State) (g : GroupId) : State :=
  match s.group g with
  | some gr => gr.loads.foldl (fun s l => if l.atomic.isSome && l.complete then s.loadDone g.tile g.core l.id else s) s
  | none => s

/-- A load or an atomic leaves for its targets and is outstanding until it returns. -/
def State.startAccess (s : State) (g : GroupId) (gr : Group) (k : Kernel) (w : Word64) (m : Word64) (kind : MKind)
    (lanes : List Lane) : State :=
  let id := (s.core g.tile g.core).nextId
  let l : PendLoad :=
    { id := id, ctx := k.ctx, lanes := lanes, vd := vVD w, sz := mSZ w, live := liveRegs (vVD w) (mSZ w) m
      atomic := if kind == .atomic then some (mAOP w) else none
      forward := if kind == .atomic then [] else (s.core g.tile g.core).inFlight gr
      lines := []
      later := []
      late := lateRec gr w m kind ((lanes.head?.map (fun x => x.va)).getD 0) }
  let gr := gr.clearRegs (vVD w) (mSZ w) m
  let s := s.updCore g.tile g.core (fun c => { c with nextId := id + 1 })
  ((s.finish g { gr with loads := gr.loads ++ [l] }).pump g).settleAtomics g

/-- The virtual address of a line that a STREAM store merges into, when its request will be counted (R332). -/
def countedLine (xs : List (Nat × Word64 × Target × Bool)) (line : Target) : Option Nat :=
  (xs.find? (fun x => x.2.2.2 && x.2.2.1.cls == line.cls && x.2.2.1.addr / 64 == line.addr / 64)).map (fun x => x.2.1.toNat / 64 * 64)

/-- Requests toward host memory under a counting entry are counted, one for each 64-byte line (R332). -/
def State.countLines (s : State) (k : Kernel) (xs : List (Nat × Word64 × Target × Bool)) : State :=
  ((xs.filter (fun x => x.2.2.2)).map (fun x => x.2.1.toNat / 64)).dedup.foldl (fun s l => s.countAccess k.ctx (l * 64)) s

/-- A load (R34, R141, R166, R167, R387, R388). -/
def State.load (s : State) (g : GroupId) (w : Word64) (opc : Nat) (sp : MSpace) : State :=
  if vOPC w == opc then
    s.issue g w (fun s gr k => s.operands g gr k w (mLegal w sp .load) (mSources w .load) (mDests w .load) (mReads w .load)
      (fun gr => let m := gr.taking w
       let n := szBytes (mSZ w)
       let cs := (threadsOf m).map (fun i =>
         let va := mAddress gr w sp .load i
         (i, va, s.checkLane g gr k sp accR n va))
       s.access g gr k w .load cs accR (fun xs =>
         let s := s.touchRanges g.tile k (if sp == .virt then xs.map (fun x => x.2.1) else [])
         let ls := xs.map (fun x => (x.1, x.2.1, x.2.2.1))
         let s := s.dropBadLines g.tile g.core ((ls.filter (fun x => s.cacheable k x.2.2)).map (fun x => x.2.2))
         let c := s.core g.tile g.core
         let own := ls.filter (fun x => s.isOwn g.tile x.2.2)
         let far := xs.filter (fun x => !s.isOwn g.tile x.2.2.1)
         let uncached := ls.filter (fun x => x.2.2.typ != .normal && !s.isOwn g.tile x.2.2)
         if m == 0 then s.finish g gr
         else if far.isEmpty then
           let (gr, record) := s.directLoad g gr k w m own (sp == .virt)
           record (s.finish g gr)
         else if uncached.any (fun x => c.mergeHolds x.2.2) then
           s.sendMerges g.tile g.core (fun e => uncached.any (fun x =>
             e.tgt.cls == x.2.2.cls && e.tgt.addr == x.2.2.addr / 64 * 64))
         else if uncached.any (fun x => c.streamInFlight x.2.2) then s
         else if ls.all (fun x => s.cacheable k x.2.2 && (c.dline x.2.2).isSome) then
           let val (x : Nat × Word64 × Target) : Nat :=
             match c.dline x.2.2 with
             | some d => leNat ((d.bytes.drop (x.2.2.addr % 64)).take n)
             | none => 0
           let word (j i : Nat) : Word32 :=
             match ls.find? (fun x => x.1 == i) with
             | some x => (szWords (mSZ w) (val x)).getD j 0
             | none => 0
           let gr := (liveRegs (vVD w) (mSZ w) m).foldl (fun gr x => gr.wrV x.1 x.2 (word (x.1 - vVD w))) gr
           (s.finish g gr).updCore g.tile g.core (fun c => ls.foldl (fun c x => c.dtouch x.2.2) c)
         else
           let hit (tgt : Target) : Option DLine := if s.cacheable k tgt then c.dline tgt else none
           let s := s.countLines k (xs.filter (fun x => (hit x.2.2.1).isNone))
           let s := s.updCore g.tile g.core (fun c => far.foldl (fun c x =>
             if (hit x.2.2.1).isSome then c.dtouch x.2.2.1 else c) c)
           let (gr, record) := s.directLoad g gr k w m own (sp == .virt)
           record (s.startAccess g gr k w (maskOf (fun i => far.any (fun x => x.1 == i))) .load (far.map (fun x =>
             let v := (hit x.2.2.1).map (fun d => leNat ((d.bytes.drop (x.2.2.1.addr % 64)).take n))
             ⟨x.1, x.2.1, x.2.2.1, 0, 0, v.isSome, v⟩))))))
  else s

/-! ### Stores -/

/-- The bytes of a store: those of a higher-numbered thread win (R384). -/
def storeBytes (gr : Group) (w : Word64) (ls : List (Nat × Word64 × Target)) : List (Target × Nat × Byte × Word64) :=
  ls.reverse.flatMap (fun x =>
    let v := leNat ((List.range (szSpan (mSZ w))).flatMap (fun j =>
      leBytes 4 ((gr.rdV (if vVD w = 255 then 255 else vVD w + j)).getD x.1 0).toNat))
    (leBytes (szBytes (mSZ w)) v).mapIdx (fun i b => (x.2.2, x.2.2.addr + i, b, x.2.1)))

/-- The cells that a store writes, one for each byte, by rising address. -/
def storeCellsOf (bs : List (Target × Nat × Byte × Word64)) : List (Target × Nat × Byte × Word64) :=
  (bs.foldl (fun (acc : List (Target × Nat × Byte × Word64)) b =>
    if acc.any (fun a => a.1.cls == b.1.cls && a.2.1 == b.2.1) then acc
    else insertBy (fun x => lineKey { x.1 with addr := x.2.1 }) b acc) [])

/-- Consecutive bytes of one line are one write; in scheduled mode a write is one run of consecutive bytes (R25, R379). -/
def splitWrites (sched : Bool) (split : Nat) :
    List (Target × Nat × Byte × Word64) → List (List (Target × Nat × Byte × Word64))
  | [] => []
  | x :: r =>
    match splitWrites sched split r with
    | [] => [[x]]
    | run :: rest =>
      match run with
      | y :: _ =>
        if x.1.cls == y.1.cls && x.2.1 / split == y.2.1 / split && (!sched || x.2.1 + 1 == y.2.1) then (x :: run) :: rest
        else [x] :: run :: rest
      | [] => [x] :: rest

/-- The address of the lowest-numbered thread whose part of a store reaches some of the bytes (R178). -/
def lowestVa (ls : List (Nat × Word64 × Target)) (n : Nat) (cls : TClass) (bytes : List Nat) : Word64 :=
  ((ls.find? (fun x => x.2.2.cls == cls && bytes.any (fun b => x.2.2.addr ≤ b && b < x.2.2.addr + n))).map
    (fun x => x.2.1)).getD 0

/-- The writes of a store: whole lines, but for DEVICE stores, which keep each thread's own size, in thread order, a
16-byte store as two halves (R387, R389, R397). -/
def State.newWrites (s : State) (g : GroupId) (gr : Group) (k : Kernel) (w : Word64) (m : Word64)
    (ls : List (Nat × Word64 × Target)) : List PendWrite :=
  let mk (run : List (Target × Nat × Byte × Word64)) : PendWrite :=
    let x := run.headD default
    { id := 0, ctx := k.ctx, tgt := { x.1 with addr := x.2.1 }, bytes := run.map (fun y => (y.2.1, y.2.2.1)), sent := false
      performed := false, acked := false, barrier := none
      late := lateRec gr w m .store (lowestVa ls (szBytes (mSZ w)) x.1.cls (run.map (fun y => y.2.1))) }
  let dev := ls.filter (fun x => x.2.2.typ == .device)
  let plain := ls.filter (fun x => x.2.2.typ != .device)
  let runs := splitWrites k.sched 64 (storeCellsOf (storeBytes gr w plain)) ++
    dev.flatMap (fun x => splitWrites true 8 (storeCellsOf (storeBytes gr w [x])))
  (runs.map mk).zipIdx.map (fun x => { x.1 with id := (s.core g.tile g.core).nextId + x.2 })

/-- A store updates the lines of the core's L1 data cache that are present, and those on their way to it (R141, R382). -/
def Core.storeThrough (c : Core) (bs : List (Target × Nat × Byte × Word64)) : Core :=
  let new := bs.map (fun b => (lineKey { b.1 with addr := b.2.1 }, b.2.2.1))
  let c := c.mapAccesses (fun l => some { l with later := new ++ l.later }) some
  { c with l1d := c.l1d.map (fun l =>
      { l with bytes := l.bytes.mapIdx (fun i old =>
          match bs.find? (fun b => b.1.cls == l.cls && b.2.1 == l.addr + i) with
          | some b => b.2.2.1
          | none => old) }) }

/-- A STREAM store merges a line's bytes into its entry, which is counted when it is sent; without a free entry the oldest is sent first; a complete entry
is sent (R388). -/
def State.mergeRun (s : State) (g : GroupId) (k : Kernel) (r : LateRec) (count : Target → Option Nat)
    (run : List (Target × Nat × Byte × Word64)) : State :=
  match run with
  | [] => s
  | x :: _ =>
    let line : Target := { x.1 with addr := x.2.1 / 64 * 64 }
    let new : List (Nat × Byte) := run.map (fun y => (y.2.1, y.2.2.1))
    let same (e : MergeEntry) : Bool := e.tgt.cls == line.cls && e.tgt.addr == line.addr && e.ctx == k.ctx
    let c := s.core g.tile g.core
    let s := match c.merge.find? same with
      | some e =>
        let key (b : Nat × Byte) : Nat := b.1
        let e' : MergeEntry :=
          { e with bytes := (new ++ e.bytes.filter (fun (b : Nat × Byte) => !new.any (fun n => n.1 == b.1))).foldr (insertBy key) []
                   slots := if e.slots.contains g.slot then e.slots else e.slots ++ [g.slot] }
        s.updCore g.tile g.core (fun c => { c with merge := c.merge.map (fun y => if same y then e' else y) })
      | none =>
        let s := if c.merge.length < 8 then s
          else match c.merge with
            | o :: _ => s.sendMerge g.tile g.core o
            | [] => s
        s.updCore g.tile g.core (fun c => { c with merge := c.merge ++ [(⟨line, k.ctx, new, [g.slot], r, count line⟩ : MergeEntry)] })
    s.sendMerges g.tile g.core (fun e => e.bytes.length == 64)

/-- The bytes of a store in the own slab (R292, R616). -/
def State.directStore (s : State) (g : GroupId) (k : Kernel) (r : LateRec) (via : Bool)
    (ls : List (Nat × Word64 × Target)) (n : Nat) (bs : List (Target × Nat × Byte × Word64)) : State :=
  let refused := bs.filter (fun b => via && !s.slabOwned g.tile k.ctx ((localOf b.2.1 - slabBase) % 0x800000))
  let good := bs.filter (fun b => !refused.contains b)
  let (s, bad) := s.storeCells (good.map (fun b => (localOf b.2.1, b.2.2.1)))
  let s := match refused with
    | b :: _ => (s.ownerRefusal k.ctx (localOf b.2.1) none).reportStore g.tile g.core (some g.slot)
        { r with addr := lowestVa ls n .localMem (refused.map (fun b => b.2.1)) } 1
    | [] => s
  if bad then
    let hit := good.filter (fun b => s.memUE.contains (localOf b.2.1 / 8 * 8))
    let b := hit.headD default
    (s.slabUE g.tile (localOf b.2.1 / 8 * 8) [k.ctx]).reportStore g.tile g.core (some g.slot)
      { r with addr := lowestVa ls n .localMem (hit.map (fun b => b.2.1)) } 2
  else s

/-- A store (R166, R167, R384, R387). -/
def State.store (s : State) (g : GroupId) (w : Word64) (opc : Nat) (sp : MSpace) : State :=
  if vOPC w == opc then
    s.issue g w (fun s gr k => s.operands g gr k w (mLegal w sp .store) (mSources w .store) [] (mReads w .store)
      (fun gr => let m := gr.taking w
       let n := szBytes (mSZ w)
       let cs := (threadsOf m).map (fun i =>
         let va := mAddress gr w sp .store i
         (i, va, s.checkLane g gr k sp accW n va))
       s.access g gr k w .store cs accW (fun xs =>
         let s := s.touchRanges g.tile k (if sp == .virt then xs.map (fun x => x.2.1) else [])
         let ls := xs.map (fun x => (x.1, x.2.1, x.2.2.1))
         let r := lateRec gr w m .store ((ls.head?.map (fun x => x.2.1)).getD 0)
         let own := ls.filter (fun x => s.isOwn g.tile x.2.2)
         let far := ls.filter (fun x => !s.isOwn g.tile x.2.2)
         let s := s.countLines k (xs.filter (fun x => x.2.2.1.typ != .stream))
         let s := s.finish g gr
         let s := s.directStore g k r (sp == .virt) own n (storeCellsOf (storeBytes gr w own))
         let stream := storeCellsOf (storeBytes gr w (far.filter (fun x => x.2.2.typ == .stream)))
         let s := (splitWrites false 64 stream).foldl (fun s run => s.mergeRun g k r (countedLine xs) run) s
         let rest := far.filter (fun x => x.2.2.typ != .stream)
         let s := s.updCore g.tile g.core (fun c =>
           c.storeThrough (storeBytes gr w (rest.filter (fun x => s.cacheable k x.2.2))))
         let ws := s.newWrites g gr k w m rest
         let s := s.updCore g.tile g.core (fun c => { c with nextId := c.nextId + ws.length })
         (s.updGroup g (fun gr => { gr with writes := gr.writes ++ ws })).pump g)))
  else s

/-! ### Atomics -/

/-- The operands of an atomic's thread (R168). -/
def atomOperand (gr : Group) (w : Word64) (swap : Bool) (i : Nat) : Nat :=
  let n := szSpan (mSZ w)
  let base := if swap then vVB w + n else vVB w
  leNat ((List.range n).flatMap (fun j => leBytes 4 ((gr.rdV (if vVB w = 255 then 255 else base + j)).getD i 0).toNat))

/-- The operations of an atomic at one own-slab location: in thread order, one access to memory (R138, R139). -/
def State.slabAtomic (s : State) (g : GroupId) (k : Kernel) (l : PendLoad) (loc : Target) (via : Bool) :
    State × PendLoad × Option Nat :=
  let a := localOf loc.addr
  let n := szBytes l.sz
  if via && !s.slabOwned g.tile k.ctx ((a - slabBase) % 0x800000) then
    (s.ownerRefusal k.ctx a none, l, some 1)
  else if (s.ueIn a n).isSome then (s.slabUE g.tile a [k.ctx], l, some 2)
  else
    let (fin, vals) := aopFold (l.atomic.getD 0) l.bits (s.rdNat a n) (l.at_ loc)
    (s.wrBytes a (leBytes n fin), l.takeFetched loc vals, none)

/-- An atomic (R138 to R140, R168, R348). All of its threads' locations lie in one kind of target or are taken each by
its own: own-slab locations at once, the others where R348 says. -/
def State.atomic (s : State) (g : GroupId) (w : Word64) (aop : BitVec 4) : State :=
  let sp : MSpace := if vOPC w == 0x46 then .ownSlab else if vOPC w == 0x47 then .blockLocal else .virt
  if (vOPC w == 0x46 || vOPC w == 0x47 || vOPC w == 0x48) && mAOP w == aop then
    s.issue g w (fun s gr k => s.operands g gr k w (mLegal w sp .atomic) (mSources w .atomic) (mDests w .atomic) (mReads w .atomic)
      (fun gr => let m := gr.taking w
       let n := szBytes (mSZ w)
       let cs := (threadsOf m).map (fun i =>
         let va := mAddress gr w sp .atomic i
         (i, va, s.checkLane g gr k sp accA n va))
       s.access g gr k w .atomic cs accA (fun xs =>
         if m == 0 then s.finish g gr
         else
           let s := s.touchRanges g.tile k (if sp == .virt then xs.map (fun x => x.2.1) else [])
           let lanes : List Lane := xs.map (fun x =>
             ⟨x.1, x.2.1, x.2.2.1, atomOperand gr w false x.1, if mAOP w == 9 then atomOperand gr w true x.1 else 0,
              s.isOwn g.tile x.2.2.1, none⟩)
           let uncached := lanes.filter (fun x => x.tgt.typ != .normal && !s.isOwn g.tile x.tgt)
           let c := s.core g.tile g.core
           if uncached.any (fun x => c.mergeHolds x.tgt) then
             s.sendMerges g.tile g.core (fun e => uncached.any (fun x =>
               e.tgt.cls == x.tgt.cls && e.tgt.addr == x.tgt.addr / 64 * 64))
           else if uncached.any (fun x => c.streamInFlight x.tgt) then s
           else
             let s := s.countLines k xs
             let s := s.startAccess g gr k w m .atomic lanes
             match (s.core g.tile g.core).findLoad c.nextId with
             | none => s
             | some (_, l) =>
               let own := l.locs.filter (fun loc => s.isOwn g.tile loc)
               let (s, l, cause) := own.foldl (fun (acc : State × PendLoad × Option (Nat × Target)) loc =>
                 match acc.1.slabAtomic g k acc.2.1 loc (sp == .virt) with
                 | (s', l', none) => (s', l', acc.2.2)
                 | (s', l', some cause) => (s', l', some (acc.2.2.getD (cause, loc)))) (s, l, none)
               let s := s.updCore g.tile g.core (fun c => c.updLoad l.id (fun _ => some l))
               match cause with
               | some (n, loc) => s.refuseLoad g.tile g.core l.id n ((l.at_ loc).head?.map (fun x => x.va))
               | none => s.settleAtomics g)))
  else s

/-! ### The instructions -/

/-- LDS: a load from the own slab. -/
def execLds (g : GroupId) (w : Word64) (s : State) : Host.Outcome State Fault Refusal :=
  s.commit (fun s => s.load g w 0x40 .ownSlab)

/-- STS: a store to the own slab. -/
def execSts (g : GroupId) (w : Word64) (s : State) : Host.Outcome State Fault Refusal :=
  s.commit (fun s => s.store g w 0x41 .ownSlab)

/-- LDL: a load from the block's local memory. -/
def execLdl (g : GroupId) (w : Word64) (s : State) : Host.Outcome State Fault Refusal :=
  s.commit (fun s => s.load g w 0x42 .blockLocal)

/-- STL: a store to the block's local memory. -/
def execStl (g : GroupId) (w : Word64) (s : State) : Host.Outcome State Fault Refusal :=
  s.commit (fun s => s.store g w 0x43 .blockLocal)

/-- LD: a load from a virtual address. -/
def execLd (g : GroupId) (w : Word64) (s : State) : Host.Outcome State Fault Refusal :=
  s.commit (fun s => s.load g w 0x44 .virt)

/-- ST: a store to a virtual address. -/
def execSt (g : GroupId) (w : Word64) (s : State) : Host.Outcome State Fault Refusal :=
  s.commit (fun s => s.store g w 0x45 .virt)

def execAopAdd (g : GroupId) (w : Word64) (s : State) : Host.Outcome State Fault Refusal :=
  s.commit (fun s => s.atomic g w 0)

def execAopSmin (g : GroupId) (w : Word64) (s : State) : Host.Outcome State Fault Refusal :=
  s.commit (fun s => s.atomic g w 1)

def execAopUmin (g : GroupId) (w : Word64) (s : State) : Host.Outcome State Fault Refusal :=
  s.commit (fun s => s.atomic g w 2)

def execAopSmax (g : GroupId) (w : Word64) (s : State) : Host.Outcome State Fault Refusal :=
  s.commit (fun s => s.atomic g w 3)

def execAopUmax (g : GroupId) (w : Word64) (s : State) : Host.Outcome State Fault Refusal :=
  s.commit (fun s => s.atomic g w 4)

def execAopAnd (g : GroupId) (w : Word64) (s : State) : Host.Outcome State Fault Refusal :=
  s.commit (fun s => s.atomic g w 5)

def execAopOr (g : GroupId) (w : Word64) (s : State) : Host.Outcome State Fault Refusal :=
  s.commit (fun s => s.atomic g w 6)

def execAopXor (g : GroupId) (w : Word64) (s : State) : Host.Outcome State Fault Refusal :=
  s.commit (fun s => s.atomic g w 7)

/-- EXCH: exchange. -/
def execExch (g : GroupId) (w : Word64) (s : State) : Host.Outcome State Fault Refusal :=
  s.commit (fun s => s.atomic g w 8)

/-- CAS: compare and swap. -/
def execCas (g : GroupId) (w : Word64) (s : State) : Host.Outcome State Fault Refusal :=
  s.commit (fun s => s.atomic g w 9)

/-- FADD: FP32 add, rounded at every step (R139, R168). -/
def execAopFadd (g : GroupId) (w : Word64) (s : State) : Host.Outcome State Fault Refusal :=
  s.commit (fun s => s.atomic g w 10)

/-- The address and the checks of ULDS and USTS (R167). -/
def State.uslab (s : State) (g : GroupId) (gr : Group) (k : Kernel) (w : Word64) (kind : MKind)
    (go : Nat → State) : State :=
  let va := gr.rdU (vVA w) + (vIMM w).signExtend 64
  let code :=
    if va.toNat % 8 != 0 then some Exc.ACC_ALIGN
    else if s.revoked k.ctx || (va.toNat < slabSize && !s.slabOwned g.tile k.ctx va.toNat) then some Exc.ACC_PERMISSION
    else if va.toNat ≥ slabSize then some Exc.ACC_DECODE
    else none
  match code with
  | some code =>
    s.takeException g gr k
      { code := code, cause := 0, fetch := false, write := kind != .load, atomic := false, pc := gr.pc, addr := va
        failMask := gr.mask, active := gr.mask, word := w }
  | none => go va.toNat

/-- ULDS: uD := a 64-bit word of the own slab (R167). A uniform register cannot be marked: the stored bits are returned
and an uncorrectable error halts the group before its next instruction. -/
def execUlds (g : GroupId) (w : Word64) (s : State) : Host.Outcome State Fault Refusal :=
  s.commit (fun s =>
    if vOPC w == 0x49 then
      s.issue g w (fun s gr k => s.operands g gr k w
        (guardOk w false && (DstKind.u).ok (vVD w) && (SrcKind.u).ok (vVA w) && !vKA w && !vKB w && !vKC w) [] [] []
        (fun gr => s.uslab g gr k w .load (fun off =>
          let a := slabAddr g.tile off
          let va := gr.rdU (vVA w) + (vIMM w).signExtend 64
          let s' := s.finish g (gr.wrU (vVD w) (BitVec.ofNat 64 (s.rdNat a 8)))
          if (s.ueIn a 8).isSome then
            (s'.slabUE g.tile a [k.ctx]).reportStore g.tile g.core (some g.slot) (lateRec gr w gr.mask .load va) 2
          else s')))
    else s)

/-- USTS: a 64-bit word of the own slab := uD (R167). -/
def execUsts (g : GroupId) (w : Word64) (s : State) : Host.Outcome State Fault Refusal :=
  s.commit (fun s =>
    if vOPC w == 0x4A then
      s.issue g w (fun s gr k => s.operands g gr k w
        (guardOk w false && (DstKind.u).ok (vVD w) && (SrcKind.u).ok (vVA w) && !vKA w && !vKB w && !vKC w) [] [] []
        (fun gr => s.uslab g gr k w .store (fun off =>
          (s.finish g gr).wrWords (slabAddr g.tile off) (leBytes 8 (gr.rdU (vVD w)).toNat))))
    else s)

/-! ### Fences (R391 to R393) -/

/-- The conditions of R391 for a group: loads and atomics performed, stores performed, no merge entry that holds a store
of the group; R392 adds that writes are acknowledged, where the port's flushing read stands for a peer write. -/
def State.fenceHolds (s : State) (g : GroupId) : Bool :=
  match s.group g with
  | some gr => gr.loads.isEmpty && gr.writes.all (fun w => w.performed) &&
      (s.core g.tile g.core).merge.all (fun e => !e.slots.contains g.slot)
  | none => false

/-- A fence completes: every line of the core's L1 data cache is invalid, the group goes on (R391). -/
def State.fenceDone (s : State) (g : GroupId) : State :=
  s.updCore g.tile g.core (fun c =>
    let c := { c with l1d := [] }
    match c.group g.slot with
    | some gr => (c.setGroup g.slot (some { gr with writes := gr.writes.filter (fun w => !w.performed) })).ready g.slot
    | none => c)

/-- A fence is issued: the group's merge entries are sent, a FENCE.END flushes peer writes, and the group waits, unless
nothing is outstanding (R388, R391, R392). -/
def State.fence (s : State) (g : GroupId) (w : Word64) (opc : Nat) (toEnd : Bool) : State :=
  s.control g w opc false (bitsOf w 47 0 == 0) (fun s gr _ =>
    let s := s.finish g gr
    let s := s.sendMerges g.tile g.core (fun e => e.slots.contains g.slot)
    let peers := ((s.group g).map (fun x => x.writes.filter (fun w => w.tgt.cls == .peer && w.performed))).getD []
    let s := if toEnd then
        match peers.getLast? with
        | some p => s.emit (.peerRead p.tgt.addr 0)
        | none => s
      else s
    if s.fenceHolds g && (!toEnd || peers.isEmpty) then s.fenceDone g
    else s.updGroup g (fun x => { x with wait := some (.fence toEnd) }))

def execFenceOrd (g : GroupId) (w : Word64) (s : State) : Host.Outcome State Fault Refusal :=
  s.commit (fun s => s.fence g w 0x4C false)

def execFenceEnd (g : GroupId) (w : Word64) (s : State) : Host.Outcome State Fault Refusal :=
  s.commit (fun s => s.fence g w 0x4D true)

/-- FENCE_COMPLETE: a waiting fence whose conditions hold completes. -/
def execFenceComplete (g : GroupId) (s : State) : Host.Outcome State Fault Refusal :=
  s.commit (fun s =>
    match s.group g with
    | some gr =>
      match gr.wait with
      | some (.fence _) => if s.fenceHolds g then s.fenceDone g else s
      | _ => s
    | none => s)

/-! ### Completion of accesses -/

/-- The code of a late report's cause (R179). -/
def lateCode : LateCause → Nat
  | .owner => 1
  | .data => 2
  | .port => 3
  | .lost => 4
  | .plane => 5
  | .decode => 6

/-- The source that a report sets, named with the target's unit (R36, R150, R289, R290, R302, R308, R341, R374): OWNER, DATA, LOST
and, for a scheduled access, PLANE at a target of this chip. Those of a port and of another chip are set there. -/
def State.targetSource (s : State) (sched : Bool) (ctx : Byte) (tgt : Target) (cause : Nat) : State :=
  let a := localOf tgt.addr
  let slice : Option Nat := some (homeSlice a).val
  if tgt.cls != .localMem || chipOf tgt.addr != s.chipId then s
  else
    match cause, placeOf a with
    | 1, .slab _ _ => s.ownerRefusal ctx a none
    | 1, _ => s.ownerRefusal ctx a slice
    | 2, .slab n _ => s.slabUE n a [ctx] 16
    | 2, .scratch _ => s.scratchUE (a / 64 * 64) ctx
    | 2, .tier1 => s.hbmUE (stackId a) a [ctx]
    | 2, .tier2 g => s.tier2UE g a [ctx]
    | 4, _ => s.wmEvent 20 [ctx] slice
    | 5, .slab n _ => if sched then s.wmEvent 9 [ctx] (some n.val) else s
    | _, _ => s

/-- LATE_ACCESS (R150): a target reports an error on the group's access i; its address is that of the lowest-numbered thread
whose part is outstanding. -/
def execLateAccess (g : GroupId) (i : Nat) (cause : LateCause) (s : State) : Host.Outcome State Fault Refusal :=
  s.commit (fun s =>
    if s.tileHolds g.tile then s
    else
      match (s.core g.tile g.core).findLoad i, (s.core g.tile g.core).findWrite i with
      | some (some j, l), _ =>
        if j == g.slot then
          match l.lanes.find? (fun x => x.val.isNone) with
          | some x => (s.targetSource (s.schedMode g.tile) l.ctx x.tgt (lateCode cause)).refuseLoad g.tile g.core i (lateCode cause) (some x.va)
          | none => s.refuseLoad g.tile g.core i (lateCode cause) none
        else s
      | _, some (some j, x) =>
        if j == g.slot then (s.targetSource (s.schedMode g.tile) x.ctx x.tgt (lateCode cause)).refuseWrite g.tile g.core i (lateCode cause) else s
      | _, _ => s)

/-- The data that comes from outside, host memory and peers, in thread order: a whole line where the load is NORMAL, else
the bytes of one lane. -/
def takeHost : Nat → PendLoad → List Byte → PendLoad
  | 0, l, _ => l
  | fuel + 1, l, bs =>
    match l.lanes.find? (fun x => x.sent && x.val.isNone && x.tgt.cls != .localMem) with
    | none => l
    | some x =>
      if x.tgt.typ == .normal then
        let line := x.tgt.addr / 64 * 64
        let data := (bs ++ List.replicate 64 0).take 64
        takeHost fuel
          { l with
            lines := l.lines ++ [⟨x.tgt.cls, line, data, false⟩]
            lanes := l.lanes.map (fun y =>
              if y.val.isNone && y.tgt.cls == x.tgt.cls && y.tgt.addr / 64 * 64 == line then
                { y with val := some (l.over y.tgt ((data.drop (y.tgt.addr % 64)).take (szBytes l.sz))) }
              else y) } (bs.drop 64)
      else
        takeHost fuel
          { l with lanes := l.lanes.map (fun y =>
              if y.thread == x.thread then { y with val := some (l.over y.tgt (bs.take (szBytes l.sz))) } else y) }
          (bs.drop (szBytes l.sz))

/-- The refusal that a lane of this chip meets when its data is read: a slab window's (R292), an uncorrectable error (R289, R290,
R302), or, for a scheduled read, a slab whose tile is in open mode, which discards it (R36), and the owner check at its target
(R340). A slab window's coherent request was accepted when it was sent. -/
def State.laneRefusal (s : State) (src : HbmSource) (l : PendLoad) (sched : Bool) (x : Lane) : Option Nat :=
  if x.val.isSome || !x.sent || x.tgt.cls != .localMem || chipOf x.tgt.addr != s.chipId then none
  else
    let a := localOf x.tgt.addr
    match placeOf a with
    | .slab n off =>
      if sched && !s.schedMode n then some 5
      else if !s.slabOwned n l.ctx off then some 1
      else if (s.ueIn a (szBytes l.sz)).isSome then some 2
      else none
    | .tier1 =>
      match s.hbmAt src a with
      | some r => if r.refused then some 1 else if (s.ueIn a (szBytes l.sz)).isSome then some 2 else none
      | none => none
    | _ =>
      if !sched then none
      else if !s.ownerOk l.ctx a false then some 1
      else if (s.ueIn a (szBytes l.sz)).isSome then some 2
      else none

/-- The lanes that memory of this chip answers now: slab windows, and every scheduled-mode target; tier 1 with the data that its
controller has read (R226). -/
def State.takeDirect (s : State) (src : HbmSource) (l : PendLoad) (sched : Bool) (x : Lane) : Lane :=
  if x.val.isSome || !x.sent || x.tgt.cls != .localMem || chipOf x.tgt.addr != s.chipId then x
  else
    let a := localOf x.tgt.addr
    match placeOf a with
    | .slab _ _ => { x with val := some (l.over x.tgt (s.rdBytes a (szBytes l.sz))) }
    | .tier1 =>
      match s.hbmAt src a with
      | some r => { x with val := some (l.over x.tgt ((r.bytes.drop (a % 256)).take (szBytes l.sz))) }
      | none => x
    | _ => if sched then { x with val := some (l.over x.tgt (s.rdBytes a (szBytes l.sz))) } else x

/-- Corrected errors of the scratch words that a scheduled load reads (R289). -/
def State.laneCe (s : State) (l : PendLoad) : State :=
  if s.memCE.isEmpty then s
  else (l.lanes.filter (fun x => x.val.isNone && x.sent && x.tgt.cls == .localMem && chipOf x.tgt.addr == s.chipId)).foldl
    (fun s x => s.scratchCe (localOf x.tgt.addr) (szBytes l.sz)) s

/-- The locations of an atomic in slab windows are performed at their slab, in thread order (R138). -/
def State.slabAtomics (s : State) (t : TileId) (c : CoreId) (l : PendLoad) : State :=
  l.locs.foldl (fun s loc =>
    let a := localOf loc.addr
    let isSlab := match placeOf a with
      | .slab _ _ => true
      | _ => false
    let waiting := (l.at_ loc).all (fun x => x.sent && x.val.isNone)
    if waiting && isSlab && loc.cls == .localMem && chipOf loc.addr == s.chipId then
      let n := szBytes l.sz
      let (fin, vals) := aopFold (l.atomic.getD 0) l.bits (s.rdNat a n) (l.at_ loc)
      (s.wrBytes a (leBytes n fin)).updCore t c (fun x => x.updLoad l.id (fun v => some (v.takeFetched loc vals)))
    else s) s

/-- The locations of an atomic in one line outside the block are performed on the line's bytes, one after another (R139). -/
def PendLoad.onLine (l : PendLoad) (line : Nat) (bytes : List Byte) : List Target → List Byte × PendLoad
  | [] => (bytes, l)
  | loc :: r =>
    let n := szBytes l.sz
    let off := loc.addr - line
    let (fin, vals) := aopFold (l.atomic.getD 0) l.bits (leNat ((bytes.drop off).take n)) (l.at_ loc)
    (l.takeFetched loc vals).onLine line (bytes.take off ++ leBytes n fin ++ bytes.drop (off + n)) r

/-- Atomics on host memory (R348, R421): the port owns each line, performs the operations on the host's bytes, 64 for each line
in the order of the lowest thread, and writes the line back in the same transaction. -/
def State.hostAtomics (s : State) (t : TileId) (c : CoreId) (id : Nat) : List (TClass × Nat) → List Byte → State
  | [], _ => s
  | (cls, line) :: r, bs =>
    match (s.core t c).findLoad id with
    | none => s
    | some (_, l) =>
      let locs := l.locs.filter (fun x => x.cls == cls && x.addr / 64 * 64 == line && (l.at_ x).all (fun y => y.sent && y.val.isNone))
      let (bytes, l') := l.onLine line ((bs ++ List.replicate 64 0).take 64) locs
      let cells := bytes.mapIdx (fun i b => (line + i, b))
      let s := match cls with
        | .host1 => s.hostSend 1 l.ctx (.atomic t c id) cells
        | .peer => s.hostSend 0 l.ctx .block cells true
        | _ => s.hostSend 0 l.ctx (.atomic t c id) cells
      let s := s.updCore t c (fun x => x.updLoad id (fun _ => some l'))
      s.hostAtomics t c id r (bs.drop 64)

/-- The lines outside the block that an atomic's outstanding lanes lie in. -/
def PendLoad.outerLines (l : PendLoad) : List (TClass × Nat) :=
  ((l.lanes.filter (fun x => x.sent && x.val.isNone && x.tgt.cls != .localMem)).map (fun x => (x.tgt.cls, x.tgt.addr / 64 * 64))).dedup

/-- The lines that a returned NORMAL load brings into the L1 data cache, with the stores of the group that were in flight
and those that the core has issued since (R141, R381, R382). -/
def PendLoad.fillLines (l : PendLoad) : List DLine :=
  (l.lines.filter (fun d => l.lanes.any (fun x =>
    x.tgt.typ == .normal && x.tgt.cls == d.cls && x.tgt.addr / 64 * 64 == d.addr))).map (fun d =>
    let key (i : Nat) : Nat := lineKey ⟨d.cls, d.addr + i, .normal⟩
    { d with bytes := d.bytes.mapIdx (fun i b =>
        match Assoc.get? l.later (key i), Assoc.get? l.forward (key i) with
        | some x, _ => x
        | none, some x => x
        | none, none => b) })

/-- LOAD_RETURN (R35, R380): the data of load i is there. An atomic on host memory is performed on the GO of its write-back (R421). Lanes of other chips and of homes have their value from DATA;
slab windows and scheduled targets are read now, tier 1 as its
controller found it (R226); host and peer lanes take hostData. -/
def execLoadReturn (g : GroupId) (i : Nat) (hostData : List Byte) (s : State) : Host.Outcome State Fault Refusal :=
  s.commit (fun s =>
    match (s.core g.tile g.core).findLoad i, (s.tile g.tile).kernel with
    | some (some j, l), some k =>
      if j != g.slot || s.tileHolds g.tile then s
      else
        let src := HbmSource.core g.tile g.core i
        match l.lanes.findSome? (fun x => (s.laneRefusal src l k.sched x).map (fun cause => (x, cause))) with
        | some (x, cause) =>
          let found := k.sched && placeOf (localOf x.tgt.addr) == .tier1
          ((if found then s else s.targetSource k.sched l.ctx x.tgt cause).dropHbm src).refuseLoad g.tile g.core i cause (some x.va)
        | none =>
          let s := match l.atomic with
            | none =>
              let l := takeHost 64 l hostData
              let s := if k.sched then s.laneCe l else s
              let lanes := l.lanes.map (s.takeDirect src l k.sched)
              (s.dropHbm src).updCore g.tile g.core (fun c => c.updLoad i (fun _ => some { l with lanes := lanes }))
            | some _ => (s.slabAtomics g.tile g.core l).hostAtomics g.tile g.core i l.outerLines hostData
          match (s.core g.tile g.core).findLoad i with
          | some (_, l) =>
            if l.complete && !s.hostWrites.any (fun x => x.src == .atomic g.tile g.core i) then
              let s := if l.atomic.isNone && !k.sched then
                  s.updCore g.tile g.core (fun c => { c with l1d := l.fillLines.foldl dFill c.l1d })
                else s
              (s.loadDone g.tile g.core i).pump g
            else s.pump g
          | none => s
    | _, _ => s)

/-- MERGE_FLUSH (R388): the entry of a line is sent. -/
def execMergeFlush (t : TileId) (c : CoreId) (line : Nat) (s : State) : Host.Outcome State Fault Refusal :=
  s.commit (fun s => s.sendMerges t c (fun e => e.tgt.addr == line))

end Sys2Proof.Machine
end

