-- ==== Sys2Proof/Machine/Sluice.lean ====
section
/-! DEFINITION. Sluice channels (R199 to R214, R612, R613): descriptors, their checks and translation at enqueue, the
pieces they move, WAIT, SIGNAL and JUMP, and how a channel stops. -/

namespace Sys2Proof.Machine

/-! ### Status codes (R205) -/

def Sl.ABORTED : Nat := 0x01
def Sl.DESCRIPTOR : Nat := 0x02
def Sl.CONTEXT : Nat := 0x03
def Sl.TRANSLATION : Nat := 0x04
def Sl.PERMISSION : Nat := 0x05
def Sl.PLANE : Nat := 0x06
def Sl.DECODE : Nat := 0x07
def Sl.OWNER : Nat := 0x08
def Sl.DATA : Nat := 0x09
def Sl.PORT : Nat := 0x0A
def Sl.LOST : Nat := 0x0B
def Sl.ANCHOR_MISMATCH : Nat := 0x0C
def Sl.RESIDUE : Nat := 0x0D
def Sl.UNMAPPED : Nat := 0x0E
def Sl.LINK : Nat := 0x0F

/-- The sluice status of a response's STATUS (R205, R355). -/
def slOfStatus (st : Nat) : Nat :=
  match st with
  | 1 => Sl.OWNER
  | 2 => Sl.LOST
  | 3 => Sl.DATA
  | 4 => Sl.PORT
  | 5 => Sl.DECODE
  | _ => Sl.PLANE

/-! ### Stopping -/

/-- A channel stops with a status at a descriptor: nothing more issues, and it is IDLE once what it issued is performed
or refused (R206). The first error stays. A quiet stop raises no source (R247). -/
def State.chanStop (s : State) (t : TileId) (c : ChanId) (at_ status : Nat) (ctx : Byte) (quiet : Bool := false) : State :=
  match (s.chan t c).ending with
  | some (_ + 1) => s
  | _ =>
    let s := s.updChan t c (fun x =>
      { x with ending := some status, todo := [], ahead := [], walk := none, refused := false })
    let s := (s.updChan t c (fun x => { x with tagged := false, fault := none })).leaveFaults (· == .channel t c)
    let s := if status == 0 || status == Sl.ABORTED then s else s.tileCount t 7 1
    let s := if status == Sl.RESIDUE then s.tileCount t 13 1 else s
    let r := Reg.SL_STATUS t.val c.val
    let s := if s.fld r F.SL_STATUS_STATE == 0 then s else s.setFld r F.SL_STATUS_STATE 1
    let s := (s.setFld r F.SL_STATUS_CTX ctx.toNat).setFld (.SL_DESC t.val c.val) F.SL_DESC_DESC at_
    if quiet then s
    else if status == Sl.DATA || status == Sl.ANCHOR_MISMATCH || status == Sl.RESIDUE || status == Sl.UNMAPPED ||
        status == Sl.LINK then
      let s := s.wmEvent 4 [ctx] (some t.val)
      if status == Sl.RESIDUE then s.wmEvent 5 [ctx] (some t.val) else s
    else s

/-- A piece ends with an error: it is no longer in flight, and its channel stops at its descriptor. -/
def State.moveFail (s : State) (t : TileId) (c : ChanId) (m : SlMove) (status : Nat) : State :=
  let s := s.updChan t c (fun x => { x with flight := x.flight.filter (fun y => y.id != m.id) })
  s.chanStop t c m.desc status m.ctx

/-- A piece of the channel by name. -/
def Chan.move (x : Chan) (id : Nat) : Option SlMove := x.flight.find? (fun m => m.id == id)

def State.updMove (s : State) (t : TileId) (c : ChanId) (id : Nat) (f : SlMove → SlMove) : State :=
  s.updChan t c (fun x => { x with flight := x.flight.map (fun m => if m.id == id then f m else m) })

/-- A piece's write is performed. -/
def State.moveDone (s : State) (t : TileId) (c : ChanId) (id : Nat) : State :=
  let n := match (s.chan t c).move id with
    | some m => m.bytes
    | none => 0
  let s := s.tileCount t 3 n
  s.updChan t c (fun x => { x with flight := x.flight.filter (fun m => m.id != id) })

/-- Writes toward other chips whose time has come are performed at their targets (R204, R225). -/
def State.chanSettle (s : State) (t : TileId) (c : ChanId) : State :=
  ((s.chan t c).flight.filter (fun m => match m.due with
    | some x => x.toNat ≤ (s.rd .TB_RAW).toNat
    | none => false)).foldl (fun s m => s.moveDone t c m.id) s

/-! ### Descriptors (R200, R201, R211, R613) -/

/-- The fields of a descriptor's 64 bytes. -/
def SlDesc.ofBytes (x : List Byte) (off : Nat) : SlDesc where
  op := (x.getD 0 0).toNat % 16
  ends := bitOf (x.getD 0 0) 4
  ctx := x.getD 1 0
  ssp := (x.getD 2 0).toNat % 4
  dsp := (x.getD 2 0).toNat / 4 % 4
  link := (x.getD 3 0).toNat
  stream := (x.getD 4 0).toNat
  pace := (x.getD 5 0).toNat
  a := Vector.ofFn (fun i : Fin 7 => BitVec.ofNat 64 (leNat ((x.drop (8 + 8 * i.val)).take 8)))
  off := off

/-- The header's reserved bits are 0, and so are the operand words that the operation does not use, the upper halves of
its 32-bit operands, and the spaces it has no use for (R200, R201). -/
def SlDesc.res0 (d : SlDesc) (x : List Byte) (sched : Bool) : Bool :=
  let w32 (i : Fin 7) : Bool := d.a[i].toNat < 2 ^ 32
  let z (i : Fin 7) : Bool := d.a[i] == 0
  (x.getD 0 0).toNat / 32 == 0 && (x.getD 2 0).toNat / 16 == 0 && x.getD 6 0 == 0 && x.getD 7 0 == 0 &&
  (d.link < 36 || d.link == 255) && (d.link != 255 || d.stream == 0) && (sched || d.pace == 0) &&
  (match d.op with
   | 0 => w32 2 && w32 3 && z 6
   | 1 => w32 2 && w32 3
   | 2 => w32 2 && w32 3
   | 3 => d.ssp == 0 && z 0
   | 4 => z 4 && z 5 && z 6
   | 5 => d.ssp == 0 && d.dsp == 0 && z 3 && z 4 && z 5 && z 6
   | 6 => d.ssp == 0 && d.dsp == 0 && z 0 && z 3 && z 4 && z 5 && z 6
   | 7 => d.ssp == 0 && d.dsp == 0 && z 0 && w32 2 && z 3 && z 4 && z 5 && z 6
   | _ => false)

/-- The operand values that the operation defines (R201, R202, R204). -/
def SlDesc.values (d : SlDesc) : Bool :=
  d.ssp != 3 && d.dsp != 3 &&
  (match d.op with
   | 0 => d.a[3].toNat ≥ 1
   | 3 => 1 ≤ d.a[2].toNat && d.a[2].toNat ≤ 32
   | 4 => 1 ≤ d.a[2].toNat && d.a[2].toNat ≤ 256
   | 5 => if d.a[0] == 0 then d.a[1].toNat < 64 else d.a[0] == 1 && d.a[2].toNat < 1800
   | 6 => d.a[1].toNat < 2 ^ 25 && bitsOf d.a[1] 7 6 == 0 && bitsOf d.a[1] 15 14 == 0 && bitsOf d.a[1] 13 8 < 48
   | _ => true)

/-- The alignments of scheduled mode (R211). -/
def SlDesc.schedOk (d : SlDesc) : Bool :=
  let m (i : Fin 7) : Bool := d.a[i].toNat % 256 == 0
  match d.op with
  | 0 => m 0 && m 1 && m 2 && m 4 && m 5
  | 1 => m 0 && m 1 && m 2 && m 4 && m 5 && m 6
  | 2 => m 0 && m 1 && m 2 && m 4 && m 5 && m 6
  | 3 => d.a[1].toNat % 32 == 0
  | 4 => m 0 && m 1 && m 3 && d.a[2].toNat % 8 == 0
  | _ => true

/-- The first check of a descriptor before any of its data moves (R613): 0 where its words are legal. -/
def SlDesc.wordStatus (d : SlDesc) (x : List Byte) (sched : Bool) : Nat :=
  if d.res0 x sched && d.values && (!sched || d.schedOk) then 0 else Sl.DESCRIPTOR

/-- The other checks of a descriptor before any of its data moves, in the order of R613; 0 where it passes. -/
def State.descStatus (s : State) (t : TileId) (d : SlDesc) : Nat :=
  if !s.ctxAllowed t d.ctx then Sl.CONTEXT
  else if ((d.ssp == 2 || d.dsp == 2) && d.ctx != 0) || s.revoked d.ctx ||
      (d.link < 36 && d.ctx != 0 && s.leveeNibble .LV_LINK d.link != s.ctxField d.ctx) then Sl.PERMISSION
  else 0

/-! ### Translation at enqueue (R202, R207 to R209, R214) -/

/-- The mode that a channel was started in (R199): true is scheduled. -/
def State.chanSched (s : State) (t : TileId) (c : ChanId) : Bool :=
  s.fld (.SL_STATUS t.val c.val) F.SL_STATUS_MODE == 1

/-- What the translation of one address of a descriptor answers. -/
inductive SlXlat where
  | ok (tgt : Target) (slab count : Bool)
  | miss (va : Word64) (acc : BitVec 4)
  | bad (status : Nat)
deriving DecidableEq, Repr

/-- One address of a descriptor: TRANSLATION, PERMISSION, PLANE, DECODE in that order (R613). DESIGN CHOICE (log 119): a SLAB
operand at or beyond 6 MiB answers DECODE, and bits [63:52] of a PHYSICAL operand are ignored (R202). -/
def State.slTranslate (s : State) (t : TileId) (d : SlDesc) (sched isDst : Bool) (space : Nat) (a : Word64)
    (acc : BitVec 4) : SlXlat :=
  let placed (tgt : Target) (count : Bool) : SlXlat :=
    let remote := tgt.cls == .localMem && chipOf tgt.addr != s.chipId
    if sched && remote then
      if isDst && d.link < 36 && s.rotRunning then .ok tgt false count else .bad Sl.PLANE
    else if sched && s.planeRefuses t tgt false then .bad Sl.PLANE
    else if s.decodeRefuses tgt then .bad Sl.DECODE
    else .ok tgt false count
  match space with
  | 0 => if a.toNat ≥ slabSize then .bad Sl.DECODE else .ok (s.ownTarget t a.toNat) true false
  | 2 =>
    let x := a.toNat % 2 ^ 52
    placed ⟨.localMem, x, MemType.stricter 0 (s.windowType .localMem x)⟩ false
  | _ =>
    match s.translate (s.tile t).rcS sched d.ctx a acc with
    | .miss => if sched then .bad Sl.TRANSLATION else .miss a acc
    | .permission => .bad Sl.PERMISSION
    | .ok tgt count => placed tgt (count && (tgt.cls == .host0 || tgt.cls == .host1))

/-- The ranges of bytes that a row of n bytes is cut into, at every multiple of g on either side. -/
def cutRow : Nat → Nat → Nat → Nat → Nat → List (Nat × Nat × Nat)
  | 0, _, _, _, _ => []
  | fuel + 1, g, a, b, n =>
    if n = 0 then []
    else
      let k := min n (min (g - a % g) (g - b % g))
      (a, b, k) :: cutRow fuel g (a + k) (b + k) (n - k)

/-- The rows of a descriptor's data: source, destination and length, with the role of a WREDUCE input (R203). -/
def State.slRows (s : State) (t : TileId) (d : SlDesc) : List (MoveRole × Option Nat × Option Nat × Nat) :=
  let w (i : Fin 7) : Nat := d.a[i].toNat
  let wrap (n : Nat) : Nat := n % 2 ^ 64
  let index (i : Nat) : Nat := s.rdNat (slabAddr t (w 4 + 4 * i)) 4
  match d.op with
  | 0 => (List.range (w 3)).map (fun i => (.copy, some (wrap (w 0 + i * w 4)), some (wrap (w 1 + i * w 5)), w 2))
  | 1 => (List.range (w 3)).map (fun i => (.copy, some (wrap (w 0 + index i * w 5)), some (wrap (w 1 + i * w 6)), w 2))
  | 2 => (List.range (w 3)).map (fun i => (.copy, some (wrap (w 0 + i * w 6)), some (wrap (w 1 + index i * w 5)), w 2))
  | 3 => [(.copy, none, some (w 1), w 2)]
  | 4 => [(.first, some (w 0), none, 32 * w 2), (.second, some (w 3), none, 32 * w 2), (.sum, none, some (w 1), 32 * w 2)]
  | _ => []

/-- The indices of a GATHER or a SCATTER lie in the slab, may be read by the context and have no error (R201, R290). -/
def State.slIndex (s : State) (t : TileId) (d : SlDesc) : Nat :=
  let i := d.a[4].toNat
  let n := 4 * d.a[3].toNat
  if d.op != 1 && d.op != 2 then 0
  else if n == 0 then 0
  else if i + n > slabSize then Sl.DECODE
  else if !((List.range n).all (fun k => s.slabOwned t d.ctx (i + k))) then Sl.OWNER
  else if (s.ueIn (slabAddr t i) n).isSome then Sl.DATA
  else 0

/-- A piece of a descriptor before its translation: what it is for, its row, its source, its destination and its bytes. -/
structure SlPart where
  role : MoveRole
  row : Nat
  src : Option Nat
  dst : Option Nat
  bytes : Nat
deriving DecidableEq, Repr

/-- The pieces of a descriptor's rows: 256-byte lines in scheduled mode, 64-byte lines in open mode (R211). -/
def State.slParts (s : State) (t : TileId) (d : SlDesc) (sched : Bool) : List SlPart :=
  (s.slRows t d).zipIdx.flatMap (fun x =>
    let (role, src, dst, n) := x.1
    (cutRow n (if sched then 256 else 64) (src.getD (dst.getD 0)) (dst.getD (src.getD 0)) n).map (fun y =>
      ⟨role, x.2, src.map (fun _ => y.1), dst.map (fun _ => y.2.1), y.2.2⟩))

/-- The address next to a target. -/
def Target.next (x : Target) (n : Nat) : Target := { x with addr := x.addr + n }

/-- What the translation of a piece answers. -/
inductive SlPiece where
  | ok (m : SlMove)
  | stop (e : SlXlat)
deriving DecidableEq, Repr

/-- A piece with its addresses translated (R202, R207). A row begins a sub-descriptor, and so does a piece that does not follow
on from the piece before it on both sides: a range boundary lies between them. -/
def State.slPiece (s : State) (t : TileId) (d : SlDesc) (sched : Bool) (id idx : Nat) (last : Option (SlMove × Nat))
    (p : SlPart) : SlPiece :=
  let accD : BitVec 4 := if d.op == 4 then accR ||| accW else accW
  let inl : List Byte := (List.range 4).flatMap (fun i => leBytes 8 (d.a.toList.getD (3 + i) 0).toNat)
  let xs := p.src.map (fun a => s.slTranslate t d sched false d.ssp (BitVec.ofNat 64 a) accR)
  let xd := p.dst.map (fun a => s.slTranslate t d sched true d.dsp (BitVec.ofNat 64 a) accD)
  let tgt (x : Option SlXlat) : Option (Target × Bool) :=
    match x with
    | some (.ok a b _) => some (a, b)
    | _ => none
  let counted (a : Option Nat) (x : Option SlXlat) : Option Nat :=
    match x with
    | some (.ok _ _ true) => a
    | _ => none
  let err (x : Option SlXlat) : Option SlXlat :=
    match x with
    | some (.ok _ _ _) => none
    | y => y
  match err xs, err xd with
  | some e, _ => .stop e
  | none, some e => .stop e
  | none, none =>
    let src := (tgt xs).map (fun x => x.1)
    let dst := (tgt xd).map (fun x => x.1)
    let sub := match last with
      | some (m, row) =>
        if row == p.row && src == m.src.map (fun x => x.next m.bytes) && dst == m.dst.map (fun x => x.next m.bytes) then m.sub
        else idx
      | none => idx
    .ok
      { id := id, idx := idx, sub := sub, desc := d.off, ctx := d.ctx, role := p.role, src := src, dst := dst
        srcSlab := ((tgt xs).map (fun x => x.2)).getD false, dstSlab := ((tgt xd).map (fun x => x.2)).getD false
        link := d.link, srcCount := counted p.src xs, dstCount := counted p.dst xd
        bytes := p.bytes, data := if d.op == 3 then (inl.drop (p.dst.getD 0 - d.a[1].toNat)).take p.bytes else []
        arrived := d.op == 3, sent := false, performed := false, due := none }

/-- A virtual address that a piece names is the most recently used of the sluice range cache (R322). -/
def State.slTouch (s : State) (t : TileId) (d : SlDesc) (p : SlPart) : State :=
  let touch (rc : List RCEntry) (space : Nat) (a : Option Nat) : List RCEntry :=
    match a with
    | some a =>
      if space == 1 then
        match rcLookup rc (s.schedMode t) d.ctx a with
        | some e => rcTouch rc e
        | none => rc
      else rc
    | none => rc
  s.updTile t (fun x => { x with rcS := touch (touch x.rcS d.ssp p.src) d.dsp p.dst })

/-- The sub-descriptors that a channel's queue holds (R207). -/
def Chan.subs (x : Chan) : List Nat := (x.todo.map (fun m => m.sub)).dedup

/-- One piece of the running descriptor enters the queue; a piece that begins a seventeenth sub-descriptor waits (R207). A missing
range is walked, and any other refusal stops the channel (R208, R209, R613). -/
def State.slEnqueue (s : State) (t : TileId) (c : ChanId) (d : SlDesc) (parts : List SlPart) (p : SlPart) (i : Nat) : State :=
  let x := s.chan t c
  if x.ending.isSome || x.walk.isSome || i != x.enq then s
  else
    let last := x.todo.getLast?.map (fun m => (m, ((parts[m.idx]?).map (fun q => q.row)).getD 0))
    match s.slPiece t d (s.chanSched t c) x.nextId i last p with
    | .ok m =>
      if !x.subs.contains m.sub && 16 ≤ x.subs.length then s
      else (s.slTouch t d p).updChan t c (fun y =>
        { y with todo := y.todo ++ [m], enq := i + 1, nextId := y.nextId + 1 })
    | .stop (.miss va acc) => s.updChan t c (fun y => { y with walk := some (va, acc) })
    | .stop (.bad status) => s.chanStop t c d.off status d.ctx
    | .stop (.ok _ _ _) => s

/-- The running descriptor's pieces enter the queue as it has room (R207). -/
def State.slFill (s : State) (t : TileId) (c : ChanId) : State :=
  match (s.chan t c).desc with
  | some d =>
    let parts := s.slParts t d (s.chanSched t c)
    parts.zipIdx.foldl (fun s p => s.slEnqueue t c d parts p.1 p.2) s
  | none => s

/-! ### The chain -/

/-- The channel goes on at a slab offset: its descriptor is done (R199, R206). A descriptor with END stops it with OK. -/
def State.chanNext (s : State) (t : TileId) (c : ChanId) (d : SlDesc) (next : Nat) : State :=
  let s := s.wr (.SL_COUNT t.val c.val) (BitVec.ofNat 64 ((s.rd (.SL_COUNT t.val c.val)).toNat + 1) &&& 0xFFFFFFFF#64)
  let s := s.setFld (.SL_STATUS t.val c.val) F.SL_STATUS_STATE 1
  if d.ends then s.updChan t c (fun x => { x with desc := none, todo := [], enq := 0, ahead := [], ending := some 0 })
  else
    let s := s.updChan t c (fun x => { x with desc := none, todo := [], enq := 0, next := next })
    s.setFld (.SL_DESC t.val c.val) F.SL_DESC_DESC next

/-- Whether a channel issues: RUNNING and not stopping. What belongs to the rotation holds in the appended cycles (R212, R219). -/
def State.chanRuns (s : State) (t : TileId) (c : ChanId) : Bool :=
  s.chanState t c.val == 1 && (s.chan t c).ending.isNone && !(s.tile t).inReset && !(s.chanSched t c && s.appended)

/-- Whether a channel executes: it issues, and walks no range. -/
def State.chanLive (s : State) (t : TileId) (c : ChanId) : Bool := s.chanRuns t c && (s.chan t c).walk.isNone

/-- A descriptor read from the slab with context 0 (R199), and what stops the channel at it: its offset, an error in the slab, or
its words. -/
def State.slFetch (s : State) (t : TileId) (sched : Bool) (off : Nat) : SlAhead × State :=
  let blank : SlDesc := { (default : SlDesc) with off := off }
  if off % 64 != 0 || off ≥ slabSize then (⟨blank, Sl.DESCRIPTOR⟩, s)
  else if (s.ueIn (slabAddr t off) 64).isSome then (⟨blank, Sl.DATA⟩, s.slabUE t (slabAddr t off) [0] 64)
  else
    let bytes := s.rdBytes (slabAddr t off) 64
    let d := SlDesc.ofBytes bytes off
    (⟨d, d.wordStatus bytes sched⟩, s)

/-- The descriptor that a channel runs next is checked and begins to enter the queue (R207, R613). DESIGN CHOICE (log 119): where
it could not be fetched, SL_STATUS.CTX shows 0. -/
def State.slBegin (s : State) (t : TileId) (c : ChanId) (x : SlAhead) : State :=
  let d := x.desc
  let s := s.setFld (.SL_STATUS t.val c.val) F.SL_STATUS_CTX d.ctx.toNat
  let st := if x.status != 0 then x.status else s.descStatus t d
  if st != 0 then s.chanStop t c d.off st d.ctx
  else
    let at_ := slabAddr t d.a[4].toNat
    let ix := s.slIndex t d
    if ix != 0 then
      (if ix == Sl.DATA then s.slabUE t at_ [d.ctx] (4 * d.a[3].toNat)
       else if ix == Sl.OWNER then s.ownerRefusal d.ctx at_ none else s).chanStop t c d.off ix d.ctx
    else (s.updChan t c (fun y => { y with desc := some d, enq := 0, todo := [] })).slFill t c

/-- SLUICE_DESC_FETCH: the next descriptor is fetched (R199) and run, or, while one runs, fetched ahead of it: a channel keeps up
to 4 descriptors, and none beyond a JUMP, an END or an error (R207). -/
def execSluiceDescFetch (t : TileId) (c : ChanId) (s : State) : Host.Outcome State Fault Refusal :=
  s.commit (fun s =>
    let x := s.chan t c
    let sched := s.chanSched t c
    if !s.chanLive t c then s
    else
      match x.desc with
      | none =>
        (match x.ahead with
         | y :: rest => (s.updChan t c (fun z => { z with ahead := rest })).slBegin t c y
         | [] =>
           let (y, s) := s.slFetch t sched x.next
           s.slBegin t c y)
      | some d =>
        let last := x.ahead.getLast?.getD ⟨d, 0⟩
        if 3 ≤ x.ahead.length || last.status != 0 || last.desc.ends || last.desc.op == 7 then s
        else
          let (y, s) := s.slFetch t sched (last.desc.off + 64)
          s.updChan t c (fun z => { z with ahead := z.ahead ++ [y] }))

/-! ### Moving data -/

/-- Whether a target lies in a slab window of this chip, with its tile and offset. -/
def State.slabOf (s : State) (tgt : Target) : Option (TileId × Nat) :=
  if tgt.cls == .localMem && chipOf tgt.addr == s.chipId then
    match placeOf (localOf tgt.addr) with
    | .slab n off => some (n, off)
    | _ => none
  else none

/-- The write of a piece whose bytes are there is issued (R25, R203, R214, R223, R379). -/
def State.moveWrite (s : State) (t : TileId) (c : ChanId) (m : SlMove) (data : List Byte) : State :=
  let sched := s.chanSched t c
  let s := s.updMove t c m.id (fun x => { x with data := data, arrived := true, sent := true })
  match m.dst with
  | none => s.moveDone t c m.id
  | some tgt =>
    let cells := data.mapIdx (fun i b => (tgt.addr + i, b))
    let desc := (s.chan t c).desc
    let s := match m.dstCount with
      | some va => s.countAccess m.ctx va
      | none => s
    let host (p : HostPortId) : State :=
      if s.portOk p m.ctx false then s.hostSend p m.ctx (.chan t c m.id) cells else s.moveFail t c m Sl.PORT
    match tgt.cls with
    | .host0 => host 0
    | .host1 => host 1
    | .peer =>
      if s.portOk 0 m.ctx true then
        let s := s.hostSend 0 m.ctx (.chan t c m.id) cells true
        if s.holdsWrites then s else s.moveDone t c m.id
      else s.moveFail t c m Sl.PORT
    | .localMem =>
      let a := localOf tgt.addr
      let coherent : State :=
        let full := lineMask cells == 2 ^ 64 - 1
        match s.cohSend t (.chan c m.id) (if full then 0x05 else 0x06) m.ctx { tgt with addr := tgt.addr / 64 * 64 }
          (lineMask cells) (lineData cells) 0 0 0 0 with
        | some s' => s'
        | none => s.moveFail t c m Sl.PORT
      if chipOf tgt.addr != s.chipId then
        if !sched then coherent
        else if !s.rotRunning then s.moveFail t c m Sl.PLANE
        else
          match desc with
          | some d =>
            let inl := d.op == 3
            s.emit (.linkFlit (linkId d.link)
              { tile := t, piece := some (c, m.id), stream := BitVec.ofNat 8 d.stream, arrival := 0
                parcel := .inl
                  { stream := BitVec.ofNat 8 d.stream, destChip := BitVec.ofNat 9 (chipOf tgt.addr), part := inl
                    win := if inl then BitVec.ofNat 3 (a / 32) else 0, ctx := m.ctx
                    plenM1 := if inl then BitVec.ofNat 5 (data.length - 1) else 0, laddr := BitVec.ofNat 35 (a / 256)
                    data := data } })
          | none => s
      else
        match placeOf a with
        | .slab n off =>
          if n == t || !sched then
            let owner := !s.slabOwned n m.ctx off
            if n != t && s.slabShut n then s.moveFail t c m Sl.PLANE
            else if owner then (s.ownerRefusal m.ctx a none).moveFail t c m Sl.OWNER
            else
              let (s', bad) := s.storeCells (cells.map (fun x => (localOf x.1, x.2)))
              if bad then (s'.slabUE n a [m.ctx] m.bytes).moveFail t c m Sl.DATA else s'.moveDone t c m.id
          else s.emit (.schedFlit (schedWriteFlit m.ctx a cells))
        | .tier1 =>
          if !sched then coherent
          else if !s.rotRunning then s.moveFail t c m Sl.PLANE
          else s.emit (.schedFlit (schedWriteFlit m.ctx a cells))
        | _ => if sched then s.emit (.schedFlit (schedWriteFlit m.ctx a cells)) else coherent

/-- The refusal that the read of a piece meets at a slab, or at a scheduled target (R36, R289 to R292, R340). A scheduled read of
another slab needs its tile in scheduled mode; an open-mode one was accepted before the slab shut. -/
def State.moveRefusal (s : State) (t : TileId) (c : ChanId) (m : SlMove) (tgt : Target) (sched : Bool) : Nat :=
  let a := localOf tgt.addr
  match s.slabOf tgt with
  | some (n, off) =>
    if n != t && sched && !s.schedMode n then Sl.PLANE
    else if !s.slabOwned n m.ctx off then Sl.OWNER
    else if (s.ueIn a m.bytes).isSome then Sl.DATA
    else 0
  | none =>
    if !sched then 0
    else if placeOf a == .tier1 then
      if (s.hbmAt (.chan t c m.id) a).any (fun r => r.refused) then Sl.OWNER
      else if (s.ueIn a m.bytes).isSome then Sl.DATA
      else 0
    else if !s.ownerOk m.ctx a false then Sl.OWNER
    else if (s.ueIn a m.bytes).isSome then Sl.DATA
    else 0

/-- What a refused read records where its bytes lie (R36, R289, R290, R341); a controller of tier 1 has recorded what it found. -/
def State.moveSource (s : State) (m : SlMove) (tgt : Target) (status : Nat) : State :=
  let a := localOf tgt.addr
  let ue := (s.ueIn a m.bytes).getD a
  match placeOf a with
  | .slab n _ =>
    if status == Sl.OWNER then s.ownerRefusal m.ctx a none
    else if status == Sl.DATA then s.slabUE n a [m.ctx] m.bytes
    else if status == Sl.PLANE then s.wmEvent 9 [m.ctx] (some n.val)
    else s
  | .scratch _ =>
    if status == Sl.OWNER then s.ownerRefusal m.ctx a (some (homeSlice a).val)
    else if status == Sl.DATA then s.scratchUE (ue / 64 * 64) m.ctx
    else s
  | _ => s

/-- A piece waits for an earlier write of a SCATTER whose bytes its own overlap: the element with the higher index remains
(R203). -/
def State.moveWaits (s : State) (t : TileId) (c : ChanId) (m : SlMove) : Bool :=
  match (s.chan t c).desc, m.dst with
  | some d, some x => d.op == 2 && (s.chan t c).flight.any (fun y =>
      match y.dst with
      | some z => z.cls == x.cls && z.addr < x.addr + m.bytes && x.addr < z.addr + y.bytes
      | none => false)
  | _, _ => false

/-- A piece is issued (R203, R207, R612): its read is sent, or, in the own slab, done with its write at once. -/
def State.moveIssue (s : State) (t : TileId) (c : ChanId) (m : SlMove) : State :=
  let sched := s.chanSched t c
  let s := s.updChan t c (fun x => { x with todo := x.todo.filter (fun y => y.id != m.id), flight := x.flight ++ [m] })
  let s := match m.srcCount with
    | some va => s.countAccess m.ctx va
    | none => s
  match m.src with
  | none => s.moveWrite t c m m.data
  | some tgt =>
    let host (p : HostPortId) : State :=
      if s.portOk p m.ctx false then s.emit (.hostRead p tgt.addr m.bytes) else s.moveFail t c m Sl.PORT
    match tgt.cls with
    | .host0 => host 0
    | .host1 => host 1
    | .peer => if s.portOk 0 m.ctx true then s.emit (.peerRead tgt.addr m.bytes) else s.moveFail t c m Sl.PORT
    | .localMem =>
      match s.slabOf tgt with
      | some (n, _) =>
        if n != t then (if !sched && s.slabShut n then s.moveFail t c m Sl.PLANE else s)
        else
          let st := s.moveRefusal t c m tgt sched
          if st != 0 then (s.moveSource m tgt st).moveFail t c m st
          else
            let data := s.rdBytes (localOf tgt.addr) m.bytes
            if m.role == .copy then s.moveWrite t c m data
            else s.updMove t c m.id (fun x => { x with data := data, arrived := true, sent := true })
      | none =>
        if sched then
          if placeOf (localOf tgt.addr) == .tier1 && !s.rotRunning then s.moveFail t c m Sl.PLANE else s
        else
          match s.cohSend t (.chan c m.id) 0x04 m.ctx { tgt with addr := tgt.addr / 64 * 64 } 0 [] 0 0 0 0 with
          | some s' => s'
          | none => s.moveFail t c m Sl.PORT

/-- Every piece of the running descriptor has entered the queue. -/
def State.slAll (s : State) (t : TileId) (c : ChanId) (d : SlDesc) : Bool :=
  (s.chan t c).enq == (s.slParts t d (s.chanSched t c)).length

/-- The wide partials of a WREDUCE's input, in the order of its pieces. -/
def Chan.input (x : Chan) (r : MoveRole) (i : Nat) : Wide :=
  let bytes := (x.flight.filter (fun m => m.role == r)).flatMap (fun m => m.data)
  Wide.ofBits (BitVec.ofNat 256 (leNat ((bytes.drop (32 * i)).take 32)))

/-- One sum of a WREDUCE as the adder gives it: fault names a sum that it gets wrong and the bits of the integer that differ. -/
def Wide.sumWith (x y : Wide) (fault : Option (Nat × BitVec 192)) (i : Nat) : Wide :=
  let w := x.combine y
  match fault with
  | some (j, e) => if j == i then { w with int := w.int ^^^ e } else w
  | none => w

/-- The residue check of one sum (R73): the residue of the result is that of the sum of the inputs' residues. A sum that
saturates is excluded. -/
def Wide.sumFails (x y w : Wide) : Bool :=
  !x.saturates y.int.toInt && residueOf w.int != (residueOf x.int + residueOf y.int) % 127

/-- The sums of a WREDUCE whose inputs are all there (R59, R60, R73, R203): anchors that differ, or a residue that does not agree,
stop the channel with nothing written; else the sums are written. -/
def State.reduce (s : State) (t : TileId) (c : ChanId) (d : SlDesc) (fault : Option (Nat × BitVec 192)) : State :=
  let x := s.chan t c
  let ready := x.ending.isNone && s.slAll t c d && x.todo.all (fun m => m.role == .sum) &&
    x.flight.all (fun m => m.role == .copy || m.arrived)
  if !ready then s
  else
    let ids := List.range d.a[2].toNat
    let a := x.input .first
    let b := x.input .second
    let sum (i : Nat) : Wide := (a i).sumWith (b i) fault i
    let s := s.updChan t c (fun y =>
      { y with flight := y.flight.filter (fun m => m.role != .first && m.role != .second) })
    if ids.any (fun i => (a i).mismatch (b i)) then s.chanStop t c d.off Sl.ANCHOR_MISMATCH d.ctx
    else if ids.any (fun i => (a i).sumFails (b i) (sum i)) then s.chanStop t c d.off Sl.RESIDUE d.ctx
    else
      let bytes := ids.flatMap (fun i => leBytes 32 (sum i).toBits.toNat)
      let s := (x.todo.foldl (fun (r : State × Nat) m =>
        (if (r.1.chan t c).ending.isSome then r.1
         else r.1.moveIssue t c { m with role := .copy, data := (bytes.drop r.2).take m.bytes, arrived := true },
         r.2 + m.bytes)) (s, 0)).1
      if (s.chan t c).ending.isSome then s else s.chanNext t c d (d.off + 64)

/-- The descriptor is done once every piece has issued; the sums of a WREDUCE are its command's. -/
def State.chanAdvance (s : State) (t : TileId) (c : ChanId) : State :=
  let x := s.chan t c
  match x.desc with
  | some d =>
    if x.ending.isSome || !x.todo.isEmpty || !s.slAll t c d then s
    else if d.op ≤ 3 then s.chanNext t c d (d.off + 64)
    else s
  | none => s

/-- The queued pieces of a tagged channel are translated again before one of them issues (R336): they leave the queue and enter
it anew. -/
def State.retranslate (s : State) (t : TileId) (c : ChanId) : State :=
  let x := s.chan t c
  let s := if x.tagged then
      s.updChan t c (fun y => { y with tagged := false, todo := [], enq := y.enq - y.todo.length })
    else s
  if (s.chan t c).walk.isNone then s.slFill t c else s

/-- The next piece issues, unless it must wait: a WREDUCE is translated in full before any of its data moves (R208), and a part of
its sums waits for them. -/
def State.chanStep (s : State) (t : TileId) (c : ChanId) : State :=
  let s := s.retranslate t c
  match (s.chan t c).todo with
  | m :: _ =>
    let whole := match (s.chan t c).desc with
      | some d => d.op != 4 || s.slAll t c d
      | none => false
    if s.chanRuns t c && whole && m.role != .sum && !s.moveWaits t c m then (s.moveIssue t c m).chanAdvance t c else s
  | [] => s.chanAdvance t c

/-- Every piece of the running descriptor is issued, in order, until one stops the channel or must wait. -/
def State.chanMoves (s : State) (t : TileId) (c : ChanId) (op : Nat) : State :=
  match (s.chan t c).desc with
  | some d =>
    if s.chanRuns t c && d.op == op then
      (List.range ((s.slParts t d (s.chanSched t c)).length + 1)).foldl (fun s _ =>
        if ((s.chan t c).desc.map (fun e => e.off)) == some d.off then s.chanStep t c else s) s
    else s
  | none => s

/-- COPY: rows of bytes (R203). -/
def execSluiceCopy (t : TileId) (c : ChanId) (s : State) : Host.Outcome State Fault Refusal :=
  s.commit (fun s => s.chanMoves t c 0)

/-- GATHER: indexed elements into a strided destination (R203). -/
def execGather (t : TileId) (c : ChanId) (s : State) : Host.Outcome State Fault Refusal :=
  s.commit (fun s => s.chanMoves t c 1)

/-- SCATTER: strided elements to indexed destinations, the higher element remaining where they overlap (R203). -/
def execScatter (t : TileId) (c : ChanId) (s : State) : Host.Outcome State Fault Refusal :=
  s.commit (fun s => s.chanMoves t c 2)

/-- INLINE: the descriptor's own bytes (R203). -/
def execSluiceInline (t : TileId) (c : ChanId) (s : State) : Host.Outcome State Fault Refusal :=
  s.commit (fun s => s.chanMoves t c 3)

/-- WREDUCE: its inputs are read, and once they are all there, their sums are checked and written (R73, R203, R208). c.fault is an
error of the adder. -/
def execWreduce (t : TileId) (c : ReduceRun) (s : State) : Host.Outcome State Fault Refusal :=
  s.commit (fun s =>
    let s := s.chanMoves t c.chan 4
    match (s.chan t c.chan).desc with
    | some d => if s.chanRuns t c.chan && d.op == 4 then s.reduce t c.chan d c.fault else s
    | none => s)

/-- SLUICE_FLIT_ISSUE: a scheduled-mode channel issues its next data flit (R212). -/
def execSluiceFlitIssue (t : TileId) (c : ChanId) (s : State) : Host.Outcome State Fault Refusal :=
  s.commit (fun s => if s.chanRuns t c && s.chanSched t c && (s.chan t c).desc.isSome then s.chanStep t c else s)

/-- SLUICE_LINE_ARRIVE: the bytes of the channel's oldest outstanding read reach it, and its write is issued (R612). Slab
and scheduled reads take memory, coherent reads the line that their home sent, host, peer reads hostData; ue is an
uncorrectable error at the source. A channel that stops issues no write (R206). -/
def execSluiceLineArrive (t : TileId) (c : ChanId) (hostData : List Byte) (ue : Bool) (s : State) :
    Host.Outcome State Fault Refusal :=
  s.commit (fun s =>
    let sched := s.chanSched t c
    if sched && s.appended then s
    else
      match (s.chan t c).flight.find? (fun m => m.src.isSome && !m.sent) with
      | none => s
      | some m =>
        let tgt := m.src.getD default
        let here := tgt.cls == .localMem && chipOf tgt.addr == s.chipId && (sched || (s.slabOf tgt).isSome)
        let src := HbmSource.chan t c m.id
        let fromHbm := here && placeOf (localOf tgt.addr) == .tier1
        let read := s.hbmAt src (localOf tgt.addr)
        if tgt.cls == .localMem && !here && !m.arrived && !ue then s
        else if fromHbm && read.isNone then s
        else
          let s := s.dropHbm src
          let st := if fromHbm && read.any (fun r => r.refused) then Sl.OWNER
            else if ue then Sl.DATA else if here then s.moveRefusal t c m tgt sched else 0
          if st != 0 then (if here then s.moveSource m tgt st else s).moveFail t c m st
          else if (s.chan t c).ending.isSome then
            s.updChan t c (fun x => { x with flight := x.flight.filter (fun y => y.id != m.id) })
          else
            let data := if fromHbm then (((read.map (fun r => r.bytes)).getD []).drop (tgt.addr % 256)).take m.bytes
              else if here then s.rdBytes (localOf tgt.addr) m.bytes
              else if tgt.cls == .localMem then m.data
              else (hostData ++ List.replicate m.bytes 0).take m.bytes
            if m.role == .copy then s.moveWrite t c m data
            else s.updMove t c m.id (fun x => { x with data := data, arrived := true, sent := true }))

/-! ### WAIT, SIGNAL, JUMP -/

/-- The condition of a WAIT descriptor (R204): a signal's value, or a point that has come. -/
def State.slWaitOver (s : State) (t : TileId) (d : SlDesc) : Bool :=
  if d.a[0] == 0 then d.a[2].toNat ≤ (s.signal t (d.a[1].toNat % 64)).toNat
  else !s.before d.a[1] d.a[2].toNat

/-- SLUICE_WAIT (R204). -/
def execSluiceWait (t : TileId) (c : ChanId) (s : State) : Host.Outcome State Fault Refusal :=
  s.commit (fun s =>
    match (s.chan t c).desc with
    | some d =>
      if s.chanLive t c && d.op == 5 then
        if s.slWaitOver t d then s.chanNext t c d (d.off + 64)
        else s.setFld (.SL_STATUS t.val c.val) F.SL_STATUS_STATE 2
      else s
    | none => s)

/-- SLUICE_WAIT_SATISFIED (R204). -/
def execSluiceWaitSatisfied (t : TileId) (c : ChanId) (s : State) : Host.Outcome State Fault Refusal :=
  s.commit (fun s =>
    match (s.chan t c).desc with
    | some d =>
      if s.chanState t c.val == 2 && (s.chan t c).ending.isNone && !(s.chanSched t c && s.appended) && d.op == 5 &&
          s.slWaitOver t d then
        s.chanNext t c d (d.off + 64)
      else s
    | none => s)

/-- SLUICE_SIGNAL (R204): once every earlier write of the channel is performed at its target; on the scheduled plane to the own chip, in
an S slot of LINK to another; in open mode as SIG_ADD, which leaves in C slots to another chip. -/
def execSluiceSignal (t : TileId) (c : ChanId) (s : State) : Host.Outcome State Fault Refusal :=
  s.commit (fun s =>
    let s := s.chanSettle t c
    match (s.chan t c).desc with
    | some d =>
      if s.chanLive t c && d.op == 6 && (s.chan t c).flight.isEmpty then
        let chip := bitsOf d.a[1] 24 16
        let tile := bitsOf d.a[1] 13 8
        let sig := bitsOf d.a[1] 5 0
        let sched := s.chanSched t c
        if sched && chip == s.chipId then
          (s.emit (.schedFlit
            { stop := .tile ⟨tile % 48, Nat.mod_lt _ (by decide)⟩, ctx := d.ctx, addr := 0, data := []
              signal := some (tile, sig, d.a[2]), crcOk := true, collided := false })).chanNext t c d (d.off + 64)
        else if sched then
          if d.link < 36 && s.rotRunning then
            (s.emit (.linkFlit (linkId d.link)
              { tile := t, piece := none, stream := BitVec.ofNat 8 d.stream, arrival := 0
                parcel := .inr
                  { stream := BitVec.ofNat 8 d.stream, destChip := BitVec.ofNat 9 chip, ctx := d.ctx
                    tile := BitVec.ofNat 6 tile, sig := BitVec.ofNat 6 sig, add := d.a[2] } })).chanNext t c d (d.off + 64)
          else s.chanStop t c d.off Sl.PLANE d.ctx
        else
          let tgt : Target := ⟨.localMem, chip * 2 ^ 43 + slabBase + tile * 0x800000 + sig * 8, .normal⟩
          if chip != s.chipId && (s.linkTo chip).isNone then s.chanStop t c d.off Sl.PORT d.ctx
          else
            (s.emit (.coh
              { cls := 0, hasData := false, opc := 0x0A, ctx := d.ctx, grant := 0, typ := 0, status := 0
                srcAgent := BitVec.ofNat 8 t.val, srcChip := BitVec.ofNat 9 s.chipId, dstAgent := BitVec.ofNat 8 tile
                dstChip := BitVec.ofNat 9 chip, txn := 0, aop := 0, sz := 0, addr := BitVec.ofNat 64 tgt.addr, byteMask := 0
                opA := d.a[2], opB := BitVec.ofNat 64 sig, data := [] })).chanNext t c d (d.off + 64)
      else s
    | none => s)

/-- JUMP under the channel's loop counter (R203). -/
def execJump (t : TileId) (c : ChanId) (s : State) : Host.Outcome State Fault Refusal :=
  s.commit (fun s =>
    match (s.chan t c).desc with
    | some d =>
      if s.chanLive t c && d.op == 7 then
        let x := s.chan t c
        let target := d.a[1].toNat
        let repeat_ := d.a[2].toNat
        if repeat_ == 0 then s.chanNext t c d target
        else
          let lc := (if x.lc == 0 then repeat_ + 1 else x.lc) - 1
          let s := s.updChan t c (fun y => { y with lc := lc })
          s.chanNext t c d (if lc != 0 then target else d.off + 64)
      else s
    | none => s)

/-! ### Stop -/

/-- ABORT (R206): a channel that is not IDLE stops with ABORTED; one that waits on a fault leaves it (R331). -/
def State.chanAbort (s : State) (t : TileId) (c : ChanId) : State :=
  let x := s.chan t c
  if s.chanState t c.val == 0 || x.ending.isSome then s
  else
    let at_ := (x.desc.map (fun d => d.off)).getD x.next
    let ctx := BitVec.ofNat 8 (s.fld (.SL_STATUS t.val c.val) F.SL_STATUS_CTX)
    (s.updChan t c (fun y => { y with fault := none })).chanStop t c at_ Sl.ABORTED ctx

/-- CHANNEL_IDLE (R206): everything that a stopping channel issued has been performed or refused; it is IDLE with its status. The
inputs of a WREDUCE that have arrived are dropped. -/
def execChannelIdle (t : TileId) (c : ChanId) (s : State) : Host.Outcome State Fault Refusal :=
  s.commit (fun s =>
    let s := s.chanSettle t c
    let x := s.chan t c
    match x.ending with
    | some status =>
      if s.chanState t c.val != 0 && x.flight.all (fun m => (m.role == .first || m.role == .second) && m.arrived) then
        let r := Reg.SL_STATUS t.val c.val
        let s := (s.setFld r F.SL_STATUS_STATE 0).setFld r F.SL_STATUS_STATUS status
        let s := s.updChan t c (fun y =>
          { y with ending := none, desc := none, enq := 0, ahead := [], flight := [], fault := none })
        s.seqWake t
      else s
    | none => s)

/-! ### Signals on the coherent plane -/

/-- SIG_ADD (R191, R204, R354): an open-mode SIGNAL adds to a tile signal of this chip. -/
def execSigAdd (m : CohMsg) (s : State) : Host.Outcome State Fault Refusal :=
  s.commit (fun s =>
    if m.opc == 0x0A && m.dstAgent.toNat < 48 && m.dstChip.toNat == s.chipId then
      s.addSignal ⟨m.dstAgent.toNat % 48, Nat.mod_lt _ (by decide)⟩ (m.opB.toNat % 64) m.opA
    else s)

/-- ABORT (R206): a write of SL_CTRL.ABORT stops the channel between flits. -/
def execAbort (t : TileId) (c : ChanId) (s : State) : Host.Outcome State Fault Refusal :=
  s.commit (fun s => s.chanAbort t c)

end Sys2Proof.Machine
end

