-- ==== Sys2Proof/Machine/Responses.lean ====
section
/-! DEFINITION. What a requester does with the answers of a home (R354, R355, R359, R379), and what a snooped agent
answers (R354, R356, R360, R361). The agents with lines of their own here are tiles (R348) and the rider cluster (R350);
an engine or a host answers from outside. -/

namespace Sys2Proof

/-- A flit with a line of data. -/
def CohMsg.withData (m : CohMsg) (d : List Byte) : CohMsg := { m with hasData := true, data := d }

/-- The line of a message. -/
def CohMsg.line (m : CohMsg) : Nat := m.addr.toNat / 64 * 64

end Sys2Proof

namespace Sys2Proof.Machine

/-! ### Messages -/

/-- A flit of the coherent mesh between two agents of this block about an address. -/
def State.flit (s : State) (cls : Nat) (opc : Nat) (src dst : Byte) (addr : Nat) (txn : BitVec 12) : CohMsg where
  cls := BitVec.ofNat 2 cls
  hasData := false
  opc := BitVec.ofNat 8 opc
  ctx := 0
  grant := 0
  typ := 0
  status := 0
  srcAgent := src
  srcChip := BitVec.ofNat 9 s.chipId
  dstAgent := dst
  dstChip := BitVec.ofNat 9 (chipOf addr)
  txn := txn
  aop := 0
  sz := 0
  addr := BitVec.ofNat 64 addr
  byteMask := 0
  opA := 0
  opB := 0
  data := []

/-- ACK of the requester to the home of a line (R358). -/
def State.sendAck (s : State) (m : CohMsg) : State :=
  s.emit (.coh (s.flit 2 0x49 m.dstAgent (homeAgent (localOf m.addr.toNat)) m.addr.toNat m.txn))

/-- The LATE_ACCESS cause of a response's STATUS (R179, R355). -/
def lateOfStatus (st : Nat) : Nat :=
  match st with
  | 1 => 1
  | 2 => 4
  | 3 => 2
  | 4 => 3
  | 5 => 6
  | _ => 5

/-- A tile's number from an agent number below 48. -/
def tileOf (a : Byte) : TileId := ⟨a.toNat % 48, Nat.mod_lt _ (by decide)⟩

def riderOf (a : Byte) : RiderId := ⟨(a.toNat - 48) % 8, Nat.mod_lt _ (by decide)⟩

def engineOf (a : Byte) : EngineId := ⟨(a.toNat - 56) % 16, Nat.mod_lt _ (by decide)⟩

def hostOf (a : Byte) : HostPortId := ⟨(a.toNat - 72) % 2, Nat.mod_lt _ (by decide)⟩

/-! ### The requests of a tile -/

def Tile.findReq (x : Tile) (tag : BitVec 12) : Option TileReq := x.reqs.find? (fun r => r.tag == tag)

def State.dropReq (s : State) (t : TileId) (r : TileReq) : State :=
  s.updTile t (fun x => { x with reqs := x.reqs.erase r })

/-- The atomics of a tile that wait for a line: core, access and location. -/
def Tile.atomicsAt (x : Tile) (line : Nat) : List (CoreId × Nat × Target) :=
  (List.finRange 4).flatMap (fun c =>
    let k := x.core c
    let ls := (List.finRange 32).flatMap (fun i => ((k.group i).map (fun g => g.loads)).getD []) ++ k.orphanLoads
    (ls.filter (fun l => l.atomic.isSome)).flatMap (fun l =>
      ((l.lanes.filter (fun y => y.sent && y.val.isNone && y.tgt.cls == .localMem && y.tgt.addr / 64 * 64 == line)).map
        (fun y => y.tgt)).dedup.map (fun a => (c, l.id, a))))

/-- A request of a tile ends refused with a STATUS of R355. -/
def State.failReq (s : State) (t : TileId) (r : TileReq) (status : Nat) : State :=
  let s := s.dropReq t r
  let at_ (c : CoreId) (id : Nat) : Option Word64 :=
    ((s.core t c).findLoad id).bind (fun l => l.2.lowestVa (fun x => x.tgt.addr / 64 == r.addr / 64))
  match r.kind with
  | .load c id => (s.refuseLoad t c id (lateOfStatus status) (at_ c id)).pumpCore t c
  | .write c id => (s.refuseWrite t c id (lateOfStatus status)).pumpCore t c
  | .atomic c id => (s.refuseLoad t c id (lateOfStatus status) (at_ c id)).pumpCore t c
  | .acquire =>
    ((s.tile t).atomicsAt r.addr).foldl (fun s x => s.refuseLoad t x.1 x.2.1 (lateOfStatus status) (at_ x.1 x.2.1)) s
  | .evict => s.updTile t (fun x => { x with atoms := x.atoms.filter (fun a => !(a.addr == r.addr && a.evicting)) })
  | .chan c i =>
    match (s.chan t c).move i with
    | some m => s.moveFail t c m (slOfStatus status)
    | none => s

/-- A location's atomic leaves for the line's home (R365: every way of the set is LOST, so no copy was granted). -/
def State.sendAtomic (s : State) (t : TileId) (c : CoreId) (id : Nat) (loc : Target) : State :=
  match (s.core t c).findLoad id with
  | some (_, l) => (s.atomicRequest t c l loc).getD (s.refuseLoad t c id 3 (l.lowestVa (fun x => x.tgt == loc)))
  | none => s

/-- A location of an atomic takes its old value from its home, whose data flit holds the line: the threads' operations follow in
thread order (R139). A stepwise atomic of another chip has had one thread's operation performed. -/
def State.atomicCmp (s : State) (t : TileId) (c : CoreId) (id addr : Nat) (data : List Byte) : State :=
  let s := s.updCore t c (fun k => k.updLoad id (fun l =>
    match l.lanes.find? (fun y => y.tgt.addr == addr && y.val.isNone) with
    | some y =>
      let old := leNat ((data.drop (addr % 64)).take (szBytes l.sz))
      if l.atomic.any aopStepwise && chipOf addr != s.chipId then
        some { l with lanes := l.lanes.map (fun x => if x.tgt == y.tgt && x.sent && x.val.isNone then { x with val := some old } else x) }
      else some (l.takeFetched y.tgt (aopFold (l.atomic.getD 0) l.bits old (l.at_ y.tgt)).2)
    | none => some l))
  s.atomicProgress t c id

/-- DATA at a tile (R348, R358, R380, R612). -/
def State.tileData (s : State) (t : TileId) (m : CohMsg) : State :=
  match (s.tile t).findReq m.txn with
  | none => s
  | some r =>
    let s := (s.dropReq t r).sendAck m
    match r.kind with
    | .load c id =>
      (s.updCore t c (fun k => k.updLoad id (fun l => some (l.takeLine r.addr m.data)))).atomicProgress t c id
    | .acquire =>
      let waiting := (s.tile t).atomicsAt r.addr
      if m.grant == 0 then waiting.foldl (fun s x => s.sendAtomic t x.1 x.2.1 x.2.2) s
      else
        waiting.foldl (fun s x =>
          match (s.core t x.1).findLoad x.2.1 with
          | some (_, l) => ((s.storeAtomic t x.1 l x.2.2).atomicProgress t x.1 l.id).pumpCore t x.1
          | none => s) (s.fillAtom t r.addr m.ctx m.data (m.grant == 3))
    | .chan c i =>
      s.updMove t c i (fun y =>
        { y with data := (m.data.drop ((y.src.getD default).addr % 64)).take y.bytes, arrived := true })
    | _ => s

/-- The answer to an engine's request leaves on its link (R356); that to one of an engine lost since is discarded (R481). -/
def State.engineAnswer (s : State) (m : CohMsg) : State :=
  let e := engineOf m.dstAgent
  match (s.eslot e).reqs.find? (fun r => r.tag == m.txn) with
  | some r =>
    let s := s.updEslot e (fun x => { x with reqs := x.reqs.erase r })
    if r.live then s.emit (.engine e (.go m)) else s
  | none => s

/-- The answer to a host's request leaves on its port (R356); a request of transaction tag 1 is a write, one of tag 2 the
eviction that a read brings with it. A refused write completes normally, a refused read with data of all ones (R423). -/
def State.hostAnswer (s : State) (m : CohMsg) : State :=
  let p := hostOf m.dstAgent
  if m.txn == 2 then s
  else if m.txn == 1 then s.emit (.port p.val .cmp)
  else if m.opc == 0x4A then s.emit (.port p.val (.readData (List.replicate 64 0xFF#8)))
  else s.emit (.port p.val (.readData m.data))

/-- Status of a headgate command for a STATUS of R355 (R448, R451); a slab of a scheduled tile refuses as a port does. -/
def hgOfStatus (st : Nat) : Nat :=
  match st with
  | 1 => 0x07
  | 2 => 0x0A
  | 3 => 0x08
  | 5 => 0x0B
  | _ => 0x09

/-- A transfer of a headgate's command fails: the command ends with a status unless it has failed already (R448). -/
def State.unitFail (s : State) (head slot status : Nat) : State :=
  let end_ (c : HgCmd) : HgCmd :=
    if c.slot == slot && !c.record && (c.result == none || c.result == some (1, 0, 0)) then { c with result := some (status, 0, 0) }
    else c
  { s with heads := { s.heads with
      list := s.heads.list.map (fun x => if x.1 == head then (x.1, { x.2 with cmds := x.2.cmds.map end_ }) else x) } }

/-- The answer to a write of the headgate unit: a refusal ends its command (R448). -/
def State.unitAnswer (s : State) (m : CohMsg) : State :=
  match s.heads.writes.find? (fun w => w.tag == m.txn) with
  | none => s
  | some w =>
    let s := { s with heads := { s.heads with writes := s.heads.writes.erase w } }
    if m.opc == 0x4A then s.unitFail w.head w.slot (hgOfStatus m.status.toNat) else s

/-- The answer to an agent beyond the tiles and the riders. -/
def State.outerAnswer (s : State) (m : CohMsg) : State :=
  if m.dstAgent.toNat < 56 then s
  else if m.dstAgent.toNat < 72 then s.engineAnswer m
  else if m.dstAgent.toNat < 74 then s.hostAnswer m
  else s.unitAnswer m

/-- What a FENCE of a rider core waits for is over (R395): its uncached writes and atomics are performed, and so are its writes toward
the host. -/
def State.riderFenceOver (s : State) (k : RiderId) : Bool :=
  (s.rider k).writes.isEmpty && !s.hostWrites.any (fun w => w.src == .rider k)

/-- The answer to an uncached write or an atomic of a rider core: a FENCE that waits only for it is over (R379, R395). -/
def State.riderAnswer (s : State) (k : RiderId) (m : CohMsg) : State :=
  let s := s.updRider k (fun x => { x with writes := x.writes.erase m.txn })
  if s.riderFenceOver k then s.updRider k (fun x => { x with fence := none }) else s

/-- DATA (R358): the requester has the line and answers with ACK. -/
def execData (m : CohMsg) (s : State) : Host.Outcome State Fault Refusal :=
  s.commit (fun s =>
    if m.opc != 0x40 || m.dstChip.toNat != s.chipId then s
    else if m.dstAgent.toNat < 48 then s.tileData (tileOf m.dstAgent) m
    else if m.dstAgent.toNat < 56 then
      let k := riderOf m.dstAgent
      (s.updHome (fun h =>
        { h with riderLines :=
          (if m.grant == 0 then [] else [⟨k, localOf m.line, m.data, m.grant == 3, m.grant == 1, false⟩]) ++
            h.riderLines.filter (fun l => l.addr != localOf m.line) })).sendAck m
    else if m.dstAgent.toNat < 74 then (s.outerAnswer m).sendAck m
    else s)

/-- GNT (R359): a grant without data for CLAIM. -/
def execGnt (m : CohMsg) (s : State) : Host.Outcome State Fault Refusal :=
  s.commit (fun s =>
    if m.opc == 0x41 && m.dstChip.toNat == s.chipId && 48 ≤ m.dstAgent.toNat && m.dstAgent.toNat < 74 then
      (if m.dstAgent.toNat < 56 then s.updHome (fun h => { h with riderLines := h.riderLines.map (fun l =>
          if l.core == riderOf m.dstAgent && l.addr == localOf m.line then { l with shared := false } else l) })
       else s.outerAnswer m).sendAck m
    else s)

/-- CMP at a tile (R379). -/
def State.tileCmp (s : State) (t : TileId) (m : CohMsg) : State :=
  match (s.tile t).findReq m.txn with
  | none => s
  | some r =>
    if m.status != 0 then s.failReq t r m.status.toNat
    else
      let s := s.dropReq t r
      match r.kind with
      | .write c id => (s.writeDone t c id).pumpCore t c
      | .atomic c id => (s.atomicCmp t c id r.addr m.data).pumpCore t c
      | .chan c i => s.moveDone t c i
      | _ => s

/-- CMP: a write or an atomic is performed (R379). -/
def State.cmp (s : State) (m : CohMsg) : State :=
  if m.opc != 0x42 || m.dstChip.toNat != s.chipId then s
  else if m.dstAgent.toNat < 48 then s.tileCmp (tileOf m.dstAgent) m
  else if m.dstAgent.toNat < 56 then s.riderAnswer (riderOf m.dstAgent) m
  else s.outerAnswer m

/-- EVICT_ACK (R359): the agent releases the line's data. -/
def execEvictAck (m : CohMsg) (s : State) : Host.Outcome State Fault Refusal :=
  s.commit (fun s =>
    if m.opc != 0x48 || m.dstChip.toNat != s.chipId then s
    else if m.dstAgent.toNat < 48 then
      s.updTile (tileOf m.dstAgent) (fun x =>
        { x with
          atoms := x.atoms.filter (fun a => !(a.evicting && a.addr / 64 * 64 == m.line))
          reqs := x.reqs.filter (fun r => !(r.kind == .evict && r.addr / 64 * 64 == m.line)) })
    else if m.dstAgent.toNat < 56 then
      s.updHome (fun h => { h with riderLines := h.riderLines.filter (fun l =>
        !(l.core == riderOf m.dstAgent && l.addr == localOf m.line && l.evicting)) })
    else s.outerAnswer m)

/-- A REFUSE arrives (R355): the requester reports the cause. -/
def State.refused (s : State) (m : CohMsg) : State :=
  if m.opc != 0x4A || m.dstChip.toNat != s.chipId then s
  else if m.dstAgent.toNat < 48 then
    match (s.tile (tileOf m.dstAgent)).findReq m.txn with
    | some r => s.failReq (tileOf m.dstAgent) r m.status.toNat
    | none => s
  else if m.dstAgent.toNat < 56 then s.riderAnswer (riderOf m.dstAgent) m
  else s.outerAnswer m

/-! ### Snooped agents -/

/-- A reply of a snooped agent to the home. -/
def State.snoopReply (s : State) (m : CohMsg) (opc : Nat) (data : Option (List Byte)) : State :=
  let f := s.flit 2 opc m.dstAgent (homeAgent (localOf m.addr.toNat)) m.addr.toNat m.txn
  s.emit (.coh (match data with
    | some d => f.withData d
    | none => f))

/-- A line that a snooped agent forwards to the requester, which the snoop names as its source. -/
def State.snoopForward (s : State) (m : CohMsg) (grant : Nat) (data : List Byte) : State :=
  s.emit (.coh { (s.flit 2 0x40 m.dstAgent m.srcAgent m.addr.toNat m.txn).withData data with
    grant := BitVec.ofNat 2 grant, dstChip := m.srcChip })

/-- What the atomic store or the rider cluster holds of a line for an agent: its bytes and whether it is modified. A line
in eviction is no longer held (R361). -/
def State.heldLine (s : State) (agent : Byte) (line : Nat) : Option (List Byte × Bool) :=
  if agent.toNat < 48 then
    ((s.tile (tileOf agent)).atoms.find? (fun a => localOf a.addr == line && !a.evicting)).map (fun a => (a.bytes, a.dirty))
  else
    (s.home.riderLines.find? (fun l => l.core == riderOf agent && l.addr == line && !l.evicting)).map (fun l => (l.bytes, l.dirty))

/-- A rider core stores to a line that it holds exclusive with no message (R349, R350): when a snoop finds one, whether it has and
what it has stored are free values. DESIGN CHOICE (log 39). -/
def State.riderStores (s : State) (agent : Byte) (line : Nat) : State :=
  let mine (l : RiderLine) : Bool := l.core == riderOf agent && l.addr == line && !l.evicting && !l.shared
  if agent.toNat < 48 || !s.home.riderLines.any mine then s
  else
    let (n, s) := s.takeFresh
    if Config.freeBool n then
      s.updHome (fun h => { h with riderLines := h.riderLines.map (fun l =>
        if mine l then { l with dirty := true, bytes := (List.range 64).map (fun i => BitVec.ofNat 8 (Config.freeBits n i)) } else l) })
    else s

/-- An agent's copy is dropped. -/
def State.dropLine (s : State) (agent : Byte) (line : Nat) : State :=
  if agent.toNat < 48 then
    s.updTile (tileOf agent) (fun x => { x with atoms := x.atoms.filter (fun a => !(localOf a.addr == line && !a.evicting)) })
  else s.updHome (fun h =>
    { h with riderLines := h.riderLines.filter (fun l => !(l.core == riderOf agent && l.addr == line && !l.evicting)) })

/-- An agent's copy becomes a clean shared copy. -/
def State.shareLine (s : State) (agent : Byte) (line : Nat) : State :=
  if agent.toNat < 48 then
    s.updTile (tileOf agent) (fun x => { x with atoms := x.atoms.map (fun a =>
      if localOf a.addr == line && !a.evicting then { a with dirty := false, shared := true } else a) })
  else s.updHome (fun h =>
    { h with riderLines := h.riderLines.map (fun l =>
      if l.core == riderOf agent && l.addr == line && !l.evicting then { l with dirty := false, shared := true } else l) })

/-- An agent that drops a clean exclusive copy sends EVICT_CLEAN (R359). -/
def State.sendEvictClean (s : State) (agent : Byte) (addr : Nat) : State :=
  s.emit (.coh (s.flit 0 0x08 agent (homeAgent (localOf addr)) addr 0))

/-- Whether a snoop is for an agent of this model: a tile or a rider core of this chip. -/
def State.snoopsHere (s : State) (m : CohMsg) (opc : Nat) : Bool :=
  m.opc.toNat == opc && m.dstChip.toNat == s.chipId && m.dstAgent.toNat < 56

/-- Whether a held copy is a shared one, whose drop needs no eviction. -/
def State.heldShared (s : State) (agent : Byte) (line : Nat) : Bool :=
  if agent.toNat < 48 then
    (s.tile (tileOf agent)).atoms.any (fun a => localOf a.addr == line && !a.evicting && a.shared)
  else s.home.riderLines.any (fun l => l.core == riderOf agent && l.addr == line && !l.evicting && l.shared)

/-- SNP_INV (R354): the agent invalidates its copy and returns modified data; a clean exclusive copy is dropped with
EVICT_CLEAN (R359). -/
def execSnpInv (m : CohMsg) (s : State) : Host.Outcome State Fault Refusal :=
  s.commit (fun s =>
    if !s.snoopsHere m 0x20 then s
    else
      let s := s.riderStores m.dstAgent (localOf m.line)
      let line := localOf m.line
      match s.heldLine m.dstAgent line with
      | none => s.snoopReply m 0x43 none
      | some (d, true) => (s.dropLine m.dstAgent line).snoopReply m 0x47 (some d)
      | some (_, false) =>
        let s' := (s.dropLine m.dstAgent line).snoopReply m 0x43 none
        if s.heldShared m.dstAgent line then s' else s'.sendEvictClean m.dstAgent m.line)

/-- SNP_FWD_S (R356, R359): the line goes to the requester and stays as a shared copy; a modified line also goes to the
home. -/
def execSnpFwdS (m : CohMsg) (s : State) : Host.Outcome State Fault Refusal :=
  s.commit (fun s =>
    if !s.snoopsHere m 0x21 then s
    else
      let s := s.riderStores m.dstAgent (localOf m.line)
      let line := localOf m.line
      match s.heldLine m.dstAgent line with
      | none => s.snoopReply m 0x43 none
      | some (d, dirty) =>
        ((s.shareLine m.dstAgent line).snoopForward m 1 d).snoopReply m 0x44 (if dirty then some d else none))

/-- SNP_FWD_O (R356, R359): the line goes to the requester, with GRANT M when it is modified and E when it is clean, and
is invalidated. -/
def execSnpFwdO (m : CohMsg) (s : State) : Host.Outcome State Fault Refusal :=
  s.commit (fun s =>
    if !s.snoopsHere m 0x22 then s
    else
      let s := s.riderStores m.dstAgent (localOf m.line)
      let line := localOf m.line
      match s.heldLine m.dstAgent line with
      | none => s.snoopReply m 0x43 none
      | some (d, dirty) =>
        ((s.dropLine m.dstAgent line).snoopForward m (if dirty then 3 else 2) d).snoopReply m 0x46 none)

/-- SNP_PEEK (R360): modified data goes to the requester; a clean line is kept and said so. -/
def execSnpPeek (m : CohMsg) (s : State) : Host.Outcome State Fault Refusal :=
  s.commit (fun s =>
    if !s.snoopsHere m 0x23 then s
    else
      let s := s.riderStores m.dstAgent (localOf m.line)
      match s.heldLine m.dstAgent (localOf m.line) with
      | none => s.snoopReply m 0x43 none
      | some (d, true) => (s.snoopForward m 0 d).snoopReply m 0x46 none
      | some (_, false) => s.snoopReply m 0x45 none)

end Sys2Proof.Machine
end

