-- ==== Sys2Proof/Machine/Rotation.lean ====
section
/-! DEFINITION. The rotation unit and the timebase: arming and stopping a rotation (R222, R223), arming the epoch (R235),
link pings (R233, R234, R239), and the latency signature (R237). -/

namespace Sys2Proof.Machine

/-! ### The latency signature (R237) -/

/-- One bit step of the bit-reflected CRC-32 of IEEE 802.3. -/
def crc32Bit (c : Nat) : Nat := if c % 2 == 1 then Nat.xor (c / 2) 0xEDB88320 else c / 2

/-- One byte of the CRC-32. -/
def crc32Byte (c : Nat) (b : Byte) : Nat := (List.range 8).foldl (fun c _ => crc32Bit c) (Nat.xor c b.toNat)

/-- CRC-32 with polynomial 0x04C1_1DB7, bit-reflected, initial value and final XOR of all ones (R237). -/
def crc32 (bs : List Byte) : Nat := Nat.xor (bs.foldl crc32Byte 0xFFFFFFFF) 0xFFFFFFFF

/-- The 144 bytes that TB_LATSIG signs (R237). -/
def State.latBytes (s : State) : List Byte :=
  (List.range 36).flatMap (fun l =>
    if s.fld (.LK_PING l) F.LK_PING_LAT_VALID == 1 then
      leBytes 2 (s.fld (.LK_LAT l) F.LK_LAT_OUT) ++ leBytes 2 (s.fld (.LK_LAT l) F.LK_LAT_IN)
    else [0, 0, 0, 0])

/-- TB_LATSIG recomputed (R237). -/
def State.latSig (s : State) : State := s.setFld .TB_LATSIG F.TB_LATSIG_SIG (crc32 s.latBytes)

/-! ### Errors of a link (R272) -/

/-- A canal S-parcel error of a link (R272). -/
def State.sParcelError (s : State) (l : LinkId) : State :=
  (s.setFld (.CN_STATUS l.val) F.CN_STATUS_S_ERR 1).wmEvent 99 [] none

/-- A latency change of a link (R239, R264). -/
def State.latChange (s : State) (l : LinkId) : State :=
  (s.setFld (.CN_STATUS l.val) F.CN_STATUS_LAT_CHG 1).wmEvent 101 [] none

/-! ### Arming -/

/-- The corrected time (R231). -/
def State.corrected (s : State) : Word64 := s.rd .TB_RAW + s.rd .TB_OFFSET

def State.armErr (s : State) (e : Nat) : State := s.setFld .ROT_STATUS F.ROT_STATUS_ARM_ERR e

def State.rotState (s : State) : Nat := s.fld .ROT_STATUS F.ROT_STATUS_STATE

/-- The state leaves RUNNING or ARMED for IDLE (R223, R269): the links may send S parcels again in the next rotation. -/
def State.rotIdle (s : State) : State :=
  let s := { s with rot := { s.rot with stop := none } }.setFld .ROT_STATUS F.ROT_STATUS_STATE 0
  (List.range 36).foldl (fun s l => s.setFld (.CN_STATUS l) F.CN_STATUS_S_BLOCKED 0) s

/-- The cause for which START_ARM is refused, 0 for none (R222). DESIGN CHOICE (log 42): where several conditions hold, the first of
the rule's table. -/
def State.startRefusal (s : State) : Nat :=
  if s.rotState != 0 then 4
  else if s.fld .ROT_STATUS F.ROT_STATUS_EPOCH_VALID == 0 then 3
  else if (s.rd .ROT_START).toNat < s.turnNo.toNat + 2 then 1
  else if s.rd .ROT_LATSIG != s.rd .TB_LATSIG then 2
  else 0

/-- START_ARM (R222). -/
def State.startArm (s : State) : State :=
  let s := s.armErr s.startRefusal
  if s.fld .ROT_STATUS F.ROT_STATUS_ARM_ERR == 0 then
    { s.setFld .ROT_STATUS F.ROT_STATUS_STATE 1 with rot := { s.rot with start := s.rd .ROT_START, stop := none } }
  else s

/-- START_ARM. -/
def execStartArm (s : State) : Host.Outcome State Fault Refusal := s.commit (fun s => s.startArm)

/-- STOP_ARM (R223). -/
def State.stopArm (s : State) : State :=
  if s.rotState != 2 then s.armErr 4
  else if (s.rd .ROT_STOP).toNat < s.turnNo.toNat + 2 then s.armErr 1
  else { s.armErr 0 with rot := { s.rot with stop := some (s.rd .ROT_STOP) } }

/-- STOP_ARM. -/
def execStopArm (s : State) : Host.Outcome State Fault Refusal := s.commit (fun s => s.stopArm)

/-- The cause for which EPOCH_ARM is refused, 0 for none (R235). -/
def State.epochRefusal (s : State) : Nat :=
  if s.rotState != 0 then 4
  else if s.fld .TB_CHIP F.TB_CHIP_IN_DOMAIN == 1 && s.fld .TB_CHIP F.TB_CHIP_OFFSET_VALID == 0 then 5
  else if (s.rd .TB_EPOCH).toNat < s.corrected.toNat + 2 ^ 20 then 1
  else if s.fld .ROT_STATUS F.ROT_STATUS_EPOCH_PEND == 1 then 4
  else 0

/-- EPOCH_ARM (R235). While it is pending, TB_EPOCH and TB_OFFSET take no write, so the registers are the latches. -/
def State.epochArm (s : State) : State :=
  let e := s.epochRefusal
  if e == 0 then (s.armErr 0).setFld .ROT_STATUS F.ROT_STATUS_EPOCH_PEND 1 else s.armErr e

/-- EPOCH_ARM. -/
def execEpochArm (s : State) : Host.Outcome State Fault Refusal := s.commit (fun s => s.epochArm)

/-- TIMEBASE_MISMATCH (R538). -/
def execTimebaseMismatch (s : State) : Host.Outcome State Fault Refusal :=
  s.commit (fun s => s.wmEvent 132 [] none)

/-! ### Pings -/

def State.updPing (s : State) (l : LinkId) (f : PingState → PingState) : State :=
  s.updLink l (fun x => { x with ping := f x.ping })

def State.epochValid (s : State) : Bool := s.fld .ROT_STATUS F.ROT_STATUS_EPOCH_VALID == 1

/-- This side's pair (SIDE, CHIP_ID) as one number (R233). -/
def State.sidePair (s : State) : Nat := 512 * s.fld .TB_CHIP F.TB_CHIP_SIDE + s.chipId

/-- A ping starts here as initiator (R233). -/
def State.pingStart (s : State) (l : LinkId) (asked auto : Bool) : State :=
  (s.setFld (.LK_PING l.val) F.LK_PING_PSTATE 1).updPing l (fun p =>
    { p with busy := true, asked := asked, auto := auto, initiator := true, due := some 1, valid := false, waited := 0 })

/-- A ping ends FAILED with a cause; LK_LAT and LAT_VALID stay. A repeated ping that fails raises the latency-change
source (R234, R239). -/
def State.pingFail (s : State) (l : LinkId) (cause : Nat) : State :=
  let auto := (s.link l).ping.auto
  let s := (s.setFld (.LK_PING l.val) F.LK_PING_PSTATE 3).setFld (.LK_PING l.val) F.LK_PING_FAIL cause
  let s := s.updPing l (fun p => { p with busy := false, asked := false, auto := false, due := none })
  if auto then s.latChange l else s

/-- The failure of a finished exchange (R234). -/
def State.pingJudge (s : State) (l : LinkId) : Option Nat :=
  let p := (s.link l).ping
  let out := p.farIn
  if p.rtt % 2 ^ 16 != p.farRtt then some 1
  else if 1700 < (p.rtt + 1) / 2 then some 2
  else if p.valid && !(1 ≤ p.inLat && p.inLat ≤ 1700 && 1 ≤ out && out ≤ 1700) then some 2
  else none

/-- The measured latencies are recorded, or a repeated ping compares them (R233, R239). -/
def State.pingRecord (s : State) (l : LinkId) : State :=
  let p := (s.link l).ping
  if !p.valid then s
  else if p.auto then
    if p.inLat == s.fld (.LK_LAT l.val) F.LK_LAT_IN && p.farIn == s.fld (.LK_LAT l.val) F.LK_LAT_OUT then s else s.latChange l
  else
    (((s.setFld (.LK_LAT l.val) F.LK_LAT_IN p.inLat).setFld (.LK_LAT l.val) F.LK_LAT_OUT p.farIn).setFld
      (.LK_PING l.val) F.LK_PING_LAT_VALID 1).latSig

/-- A ping that has come to its end: DONE with its record, or FAILED. -/
def State.pingEnd (s : State) (l : LinkId) : State :=
  match s.pingJudge l with
  | some f => s.pingFail l f
  | none =>
    let s := (s.pingRecord l).setFld (.LK_PING l.val) F.LK_PING_PSTATE 2
    s.updPing l (fun p => { p with busy := false, asked := false, auto := false, due := none })

/-- PING_GO (R233, R234): a ping on a link that is not trained fails with DOWN. -/
def State.pingGo (s : State) (l : LinkId) : State :=
  if s.fld (.LK_PING l.val) F.LK_PING_PSTATE == 1 then s.updPing l (fun p => { p with asked := true })
  else if s.linkUp l then s.pingStart l true false
  else (s.updPing l (fun p => { p with auto := false })).pingFail l 3

def execPingGo (l : LinkId) (s : State) : Host.Outcome State Fault Refusal := s.commit (fun s => s.pingGo l)

/-- What every message of a ping tells: the far side's OFFSET_VALID at its last message (R245), its EPOCH_VALID, its chip
and its side. -/
def State.pingSeen (s : State) (l : LinkId) (m : PingMsg) : State :=
  (s.setFld (.LK_PING l.val) F.LK_PING_FAR_VALID (if m.offsetValid then 1 else 0)).updPing l (fun p =>
    { p with farChip := m.chip, farSide := m.side, farEpoch := m.epochValid, waited := 0 })

/-- A time of this side as the exchange counts it: a timestamp when both sides have their epoch, else the raw count. -/
def State.pingTime (s : State) (both : Bool) : Word64 := if both then s.timestamp else s.rd .TB_RAW

/-- M1 at the responder (R233). When both sides have started, the one with the lower pair initiates. -/
def State.pingM1 (s : State) (l : LinkId) (m : PingMsg) : State :=
  let p := (s.link l).ping
  let far := (if m.side then 512 else 0) + m.chip.toNat
  if !s.linkUp l || (p.busy && p.initiator && s.sidePair < far) then s
  else
    let both := s.epochValid && m.epochValid
    let b1 := s.pingTime both
    let auto := s.rotRunning && s.fld (.LK_PING l.val) F.LK_PING_LAT_VALID == 1 && !p.asked && s.turnNo.toNat % 1024 == 0
    let s := s.pingSeen l m
    let s := ((s.setFld (.LK_PING l.val) F.LK_PING_PSTATE 1).setFld (.LK_PING l.val) F.LK_PING_FAR_DEPTH
      m.depth.toNat).wr (.LK_FAR l.val) m.offset
    (s.wr (.LK_DELTA l.val) (b1 - m.t1)).updPing l (fun p =>
      { p with
        busy := true, initiator := false, auto := auto, due := some 2, a1 := m.t1, b1 := b1, valid := both
        inLat := (b1 - m.t1).toNat })

/-- M2 at the initiator (R233). -/
def State.pingM2 (s : State) (l : LinkId) (m : PingMsg) : State :=
  let p := (s.link l).ping
  if !(s.linkUp l && p.busy && p.initiator && p.due.isNone) then s
  else
    let both := p.valid && m.epochValid
    let a1 := if both then p.a1 else p.a1Raw
    let a2 := s.pingTime both
    let s := s.pingSeen l m
    let rtt := ((a2 - a1) - (m.t2 - m.t1)).toNat
    ((s.wr (.LK_DELTA l.val) (a2 - m.t2)).setFld (.LK_RTT l.val) F.LK_RTT_RTT rtt).updPing l (fun p =>
      { p with due := some 3, a1 := a1, b1 := m.t1, b2 := m.t2, a2 := a2, rtt := rtt, valid := both, inLat := (a2 - m.t2).toNat })

/-- M3 at the responder (R233): M4 is due. -/
def State.pingM3 (s : State) (l : LinkId) (m : PingMsg) : State :=
  let p := (s.link l).ping
  if !(s.linkUp l && p.busy && !p.initiator && p.due.isNone) then s
  else
    let b3 := s.pingTime p.valid
    let s := s.pingSeen l m
    let rtt := ((b3 - p.b2) - (m.t3 - m.t2)).toNat
    let s := (s.setFld (.LK_RTT l.val) F.LK_RTT_RTT rtt).setFld (.LK_RTT l.val) F.LK_RTT_FAR_RTT m.rtt.toNat
    s.updPing l (fun p =>
      { p with
        due := some 4, a2 := m.t2, a3 := m.t3, b3 := b3, rtt := rtt, farRtt := m.rtt.toNat, farIn := m.inLat.toNat })

/-- M4 at the initiator (R234): the ping ends. -/
def State.pingM4 (s : State) (l : LinkId) (m : PingMsg) : State :=
  let p := (s.link l).ping
  if !(s.linkUp l && p.busy && p.initiator && p.due.isNone) then s
  else
    let s := (s.pingSeen l m).setFld (.LK_RTT l.val) F.LK_RTT_FAR_RTT m.rtt.toNat
    (s.updPing l (fun p => { p with farRtt := m.rtt.toNat, farIn := m.inLat.toNat })).pingEnd l

def execPingM1 (l : LinkId) (m : PingMsg) (s : State) : Host.Outcome State Fault Refusal :=
  s.commit (fun s => s.pingM1 l m)

def execPingM2 (l : LinkId) (m : PingMsg) (s : State) : Host.Outcome State Fault Refusal :=
  s.commit (fun s => s.pingM2 l m)

def execPingM3 (l : LinkId) (m : PingMsg) (s : State) : Host.Outcome State Fault Refusal :=
  s.commit (fun s => s.pingM3 l m)

def execPingM4 (l : LinkId) (m : PingMsg) (s : State) : Host.Outcome State Fault Refusal :=
  s.commit (fun s => s.pingM4 l m)

/-- PING (R233, R256): a PING parcel is received, and its message is the one its number names. -/
def execPing (l : LinkId) (m : PingMsg) (s : State) : Host.Outcome State Fault Refusal :=
  s.commit (fun s =>
    match m.num with
    | 1 => s.pingM1 l m
    | 2 => s.pingM2 l m
    | 3 => s.pingM3 l m
    | 4 => s.pingM4 l m
    | _ => s)

/-- PING_TIMEOUT (R234): a message that the ping waits for has not come within 8 turns, the epoch's end of a turn counted. -/
def execPingTimeout (l : LinkId) (s : State) : Host.Outcome State Fault Refusal :=
  s.commit (fun s =>
    let p := (s.link l).ping
    if p.busy && p.due.isNone && 8 ≤ p.waited then s.pingFail l 0 else s)

/-- The message of a ping that a slot 1 sends (R233, R256), and the ping after it: the responder's ping ends, and records its
latencies, as M4 leaves. DESIGN CHOICE (log 120): M1 carries a timestamp once this side has EPOCH_VALID 1, for it cannot know the
far side's; where M2 says 0, the initiator goes on with the raw count of its M1. -/
def State.pingSend (s : State) (l : LinkId) (k : Nat) : PingMsg × State :=
  let p := (s.link l).ping
  let now := s.pingTime (if k == 1 then s.epochValid else p.valid)
  let m : PingMsg :=
    { num := k
      t1 := if k == 1 then now else if k == 2 then p.b1 else if k == 3 then p.a1 else 0
      t2 := if k == 2 then now else if k == 3 then p.a2 else 0
      t3 := if k == 3 then now else 0
      offset := s.rd .TB_OFFSET
      rtt := if k == 3 || k == 4 then BitVec.ofNat 16 p.rtt else 0
      inLat := if (k == 3 || k == 4) && p.valid then BitVec.ofNat 16 p.inLat else 0
      offsetValid := s.fld .TB_CHIP F.TB_CHIP_OFFSET_VALID == 1
      epochValid := s.epochValid
      side := s.fld .TB_CHIP F.TB_CHIP_SIDE == 1
      depth := BitVec.ofNat 8 (s.fld .TB_CHIP F.TB_CHIP_DEPTH)
      chip := BitVec.ofNat 9 s.chipId }
  let s := s.updPing l (fun p =>
    { p with
      due := none, waited := 0
      valid := if k == 1 then s.epochValid else p.valid
      a1 := if k == 1 then now else p.a1
      a1Raw := if k == 1 then s.rd .TB_RAW else p.a1Raw
      b2 := if k == 2 then now else p.b2
      a3 := if k == 3 then now else p.a3 })
  (m, if k == 4 then s.pingEnd l else s)

end Sys2Proof.Machine
end

