-- ==== Sys2Proof/Machine/Home.lean ====
section
/-! DEFINITION. Home slices (R275 to R289, R340, R341) and the directory (R346 to R378): the checks of a request, what the
home does for it in each state of the line's entry, crossings, victims and the retry queue, reservoir lines and refills,
dead agents and LOST lines, and the requests that a tile serves for its slab window (R36, R292). -/

namespace Sys2Proof.Machine

/-! ### Sets -/

/-- Directory set of a line: L[16:5] (R351). -/
def dirSet (line : Nat) : Nat := line / 64 / 32 % 4096

/-- Reservoir set of a line: L[17:5] (R275). -/
def resSet (line : Nat) : Nat := line / 64 / 32 % 8192

def sameDirSet (a b : Nat) : Bool := homeSlice a == homeSlice b && dirSet a == dirSet b

def sameResSet (a b : Nat) : Bool := homeSlice a == homeSlice b && resSet a == resSet b

/-! ### The directory -/

/-- The entry of a line, none when it is FREE. -/
def State.dirFind (s : State) (line : Nat) : Option DirEntry := s.home.dir.find? (fun e => e.line == line)

/-- An entry written: it becomes the most recently used of its set. -/
def State.dirPut (s : State) (e : DirEntry) : State :=
  s.updHome (fun h => { h with dir := e :: h.dir.filter (fun x => x.line != e.line) })

/-- The entry of a line becomes FREE. -/
def State.dirFree (s : State) (line : Nat) : State :=
  s.updHome (fun h => { h with dir := h.dir.filter (fun x => x.line != line) })

/-- An agent leaves the presence of a line's entry, which becomes FREE when nobody is left. -/
def State.dirLeave (s : State) (line : Nat) (a : Byte) : State :=
  match s.dirFind line with
  | some e =>
    let p := e.presence.filter (fun x => x != a)
    if p.isEmpty && e.state != .lost then s.dirFree line else s.dirPut { e with presence := p }
  | none => s

/-- The open transaction of a line (R357). -/
def State.txnAt (s : State) (line : Nat) : Option Txn := s.home.txns.find? (fun x => x.line == line)

def State.updTxn (s : State) (line : Nat) (f : Txn → Txn) : State :=
  s.updHome (fun h => { h with txns := h.txns.map (fun x => if x.line == line then f x else x) })

/-- Open transactions of a slice. -/
def State.openTxns (s : State) (n : SliceId) : Nat :=
  (s.home.txns.filter (fun x => homeSlice x.line == n)).length

/-- What a request that needs a directory entry finds in its set (R362 to R365). -/
inductive Way where
  | way (n : Nat)
  | victim (e : DirEntry)
  | wait
  | allLost
deriving DecidableEq, Repr

def State.dirWay (s : State) (line : Nat) : Way :=
  let es := s.home.dir.filter (fun e => sameDirSet e.line line)
  match (List.range 16).find? (fun w => !es.any (fun e => e.way == w)) with
  | some w => .way w
  | none =>
    match (es.filter (fun e => (s.txnAt e.line).isNone && e.state != .lost)).getLast? with
    | some e => .victim e
    | none => if es.all (fun e => e.state == .lost) then .allLost else .wait

/-! ### The lost-line log (R375) -/

/-- The word of a record: the line and the agent that died. -/
def llWord (line agent : Nat) : Nat := line + agent * 2 ^ 43

/-- A line that became LOST is posted. -/
def State.llPost (s : State) (line agent : Nat) : State :=
  let tail := s.fld .LL_TAIL F.LL_TAIL_INDEX
  if s.fld .LL_CTRL F.LL_CTRL_ENABLE == 0 || (tail + 1) % 4096 == s.fld .LL_HEAD F.LL_HEAD_INDEX then
    (s.countUp .LL_OVERFLOW F.LL_OVERFLOW_COUNT).wmEvent 23 [] (some (homeSlice line).val)
  else
    let a := s.fld .LL_BASE F.LL_BASE_ADDR * 2 ^ 16 + 16 * tail
    ((s.wrBytes a (leBytes 8 (llWord line agent) ++ leBytes 8 s.timestamp.toNat)).setFld .LL_TAIL F.LL_TAIL_INDEX
      ((tail + 1) % 4096)).notify (s.fld .LL_CTRL F.LL_CTRL_VECTOR)

/-- A line enters LOST (R373, R374). -/
def State.makeLost (s : State) (line : Nat) (agent : Nat) : State :=
  match s.dirFind line with
  | some e => (s.dirPut { e with state := .lost, presence := [] }).llPost line agent
  | none =>
    match s.dirWay line with
    | .way w => (s.dirPut ⟨line, w, .lost, []⟩).llPost line agent
    | _ => s.llPost line agent

/-- An access that R374 refuses or answers with stale data raises the LOST-access source. -/
def State.lostAccess (s : State) (line : Nat) (ctx : Byte) : State := s.wmEvent 20 [ctx] (some (homeSlice line).val)

/-! ### Answers of a home -/

/-- The reply of a home to a requester. -/
def State.homeFlit (s : State) (m : CohMsg) (opc : Nat) : CohMsg :=
  { s.flit 2 opc (homeAgent (localOf m.addr.toNat)) m.srcAgent m.addr.toNat m.txn with dstChip := m.srcChip, ctx := m.ctx }

/-- The requester is this chip's. -/
def State.ours (s : State) (m : CohMsg) : Bool := m.srcChip.toNat == s.chipId

/-- A request is refused with a STATUS of R355; a host's is completed as R423 gives. -/
def State.homeRefuse (s : State) (m : CohMsg) (status : Nat) : State :=
  let s := s.emit (.coh { s.homeFlit m 0x4A with status := BitVec.ofNat 4 status })
  if s.ours m && (m.srcAgent == 72 || m.srcAgent == 73) then
    match status with
    | 5 => s.hostRefuse (hostOf m.srcAgent) 0 m.line
    | 1 => s.hostRefuse (hostOf m.srcAgent) 1 m.line
    | 6 => s.hostRefuse (hostOf m.srcAgent) 2 m.line
    | _ => s
  else s

/-- DATA with a grant: 0 I, 1 S, 2 E, 3 M. -/
def State.homeData (s : State) (m : CohMsg) (data : List Byte) (grant : Nat) : State :=
  s.emit (.coh { (s.homeFlit m 0x40).withData data with grant := BitVec.ofNat 2 grant })

def State.homeCmp (s : State) (m : CohMsg) (data : List Byte) : State :=
  s.emit (.coh (if data.isEmpty then s.homeFlit m 0x42 else (s.homeFlit m 0x42).withData data))

/-! ### Lines in memory -/

/-- A line that no directory entry and no reservoir line ever covers: scratch, rotation-locked granules (R40, R288, R347),
and the run of a LOCK command from the command on (R370). -/
def State.untracked (s : State) (line : Nat) : Bool :=
  match placeOf line with
  | .scratch _ => true
  | .tier1 => s.rotLocked line ||
    (match s.home.bias with
     | some (.lock _ start count) => start ≤ line / 2 ^ 16 && line / 2 ^ 16 < start + count
     | _ => false)
  | _ => false

/-- A request allocates a reservoir line (R278). -/
def State.allocates (s : State) (m : CohMsg) : Bool := m.typ == 0 && s.ours m && !s.untracked (localOf m.line)

/-- The physical way that holds a scratch way (R277). -/
def scratchWay (j : Nat) : Nat := 11 - j

/-- Where a scratch offset X lies in its slice: physical way and set (R277). -/
def scratchPlace (x : Nat) : Nat × Nat := (scratchWay (x / 2 ^ 24), 4 * (x % 2 ^ 24 / 2 ^ 13) + x / 64 % 4)

/-- A line counts as dirty when it is, or when the copies of its state disagree (R281). -/
def RLine.isDirty (l : RLine) : Bool := l.dirty || !l.agree

/-- A tier-2 group that is LOST refuses every access to its range (R309). -/
def State.t2Gone (s : State) (line : Nat) : Bool :=
  match placeOf line with
  | .tier2 g => s.fld (.T2_STATUS g.val) F.T2_STATUS_STATE == 2
  | _ => false

/-- A tier-2 group whose link needs IDE and has none carries no request of the block (R308, R436). -/
def State.t2Barred (s : State) (line : Nat) : Bool :=
  match placeOf line with
  | .tier2 g => s.ideBars (g.val + 2)
  | _ => false

/-- Cache ways of a slice, 0 up: 12 less the converted ones (R277, R286). -/
def State.cacheWays (s : State) : Nat :=
  let w := s.fld .RSV_SCRATCH F.RSV_SCRATCH_WAYS
  12 - (if s.fld .RSV_SCRATCH F.RSV_SCRATCH_BUSY == 1 then max w s.home.scratchFrom else w)

/-- A reservoir line is dropped, written back when it is dirty. -/
def State.resvDrop (s : State) (l : RLine) (writeBack : Bool) : State :=
  let s := s.updHome (fun h => { h with resv := h.resv.filter (fun x => x.addr != l.addr) })
  if writeBack && l.isDirty then s.tierWrite (l.bytes.mapIdx (fun i b => (l.addr + i, b))) else s

/-- The way that a line of a set can take, and the line that leaves it: the lowest way in no use, or else that of the least
recently used line with no open transaction; none when every way is busy (R279). -/
def State.resvRoom (s : State) (line : Nat) : Option (Nat × Option RLine) :=
  let ls := s.home.resv.filter (fun l => sameResSet l.addr line && l.way < s.cacheWays)
  match (List.range s.cacheWays).find? (fun w => !ls.any (fun l => l.way == w)) with
  | some w => some (w, none)
  | none => ((ls.filter (fun l => (s.txnAt l.addr).isNone)).getLast?).map (fun l => (l.way, some l))

/-- A reservoir line that is used becomes the most recently used (R279). -/
def State.resvTouch (s : State) (l : RLine) : State :=
  s.updHome (fun h => { h with resv := l :: h.resv.filter (fun x => x.addr != l.addr) })

/-- A line enters the reservoir, or is written below it when there is no room. -/
def State.resvPut (s : State) (line : Nat) (bytes : List Byte) (dirty : Bool) : State :=
  let put (s : State) (w : Nat) : State := s.updHome (fun h => { h with resv := ⟨line, bytes, dirty, w, true, false⟩ :: h.resv })
  match s.resLine line with
  | some l => s.resvTouch ⟨line, bytes, dirty || l.isDirty, l.way, true, false⟩
  | none =>
    match s.resvRoom line with
    | some (w, none) => put s w
    | some (w, some v) => put (s.resvDrop v true) w
    | none => if dirty then s.tierWrite (bytes.mapIdx (fun i b => (line + i, b))) else s

/-- A whole line written to memory by the home: the reservoir line, or the tier (R352). A LOST tier-2 group takes nothing. -/
def State.memPut (s : State) (line : Nat) (bytes : List Byte) (alloc : Bool) : State :=
  if s.t2Gone line then s
  else if alloc || (s.resLine line).isSome then s.resvPut line bytes true
  else s.tierWrite (bytes.mapIdx (fun i b => (line + i, b)))

/-- The bytes that a write request writes, by address. -/
def writeCells (m : CohMsg) : List (Nat × Byte) :=
  let line := localOf m.line
  ((m.data.mapIdx (fun i b => (i, b))).filter (fun x => x.1 < 64 && (m.opc == 0x05 || m.byteMask.getLsbD x.1))).map
    (fun x => (line + x.1, x.2))

/-! ### Atomics at a home (R139, R359) -/

/-- The value that an atomic leaves: a tile's combined operations in thread order, or the one operation of the message. -/
def State.atomicResult (s : State) (m : CohMsg) (old : Nat) : Nat :=
  let n := 8 * szBytes m.sz
  let single := aopApply m.aop n old m.opA.toNat m.opB.toNat
  if s.ours m && m.srcAgent.toNat < 48 then
    let t := tileOf m.srcAgent
    match (s.tile t).findReq m.txn with
    | some ⟨_, .atomic c id, _⟩ =>
      match (s.core t c).findLoad id with
      | some (_, l) =>
        let lanes := l.lanes.filter (fun y => y.tgt.addr == m.addr.toNat && y.val.isNone)
        if lanes.isEmpty then single else (aopFold m.aop n old lanes).1
      | none => single
    | _ => single
  else single

/-- The line after an atomic, which its CMP answers with the line before (R353, R359). -/
def State.atomicLine (s : State) (m : CohMsg) (line : List Byte) : List Byte :=
  let n := szBytes m.sz
  let off := m.addr.toNat % 64
  line.take off ++ leBytes n (s.atomicResult m (leNat ((line.drop off).take n))) ++ line.drop (off + n)

/-! ### The slab window (R36, R290 to R292) -/

/-- A coherent request that a tile serves for its slab. -/
def State.slabServe (s : State) (t : TileId) (m : CohMsg) : State :=
  let a := localOf m.addr.toNat
  let line := localOf m.line
  let off := a - slabAddr t 0
  if s.schedMode t || (s.tile t).draining then s.homeRefuse m 6
  else if slabSize ≤ off then s.homeRefuse m 5
  else if !s.slabOwned t m.ctx off then (s.ownerRefusal m.ctx a none).homeRefuse m 1
  else
    match m.opc.toNat with
    | 5 | 6 =>
      let (s', bad) := s.storeCells (writeCells m)
      if bad then (s'.slabUE t line [m.ctx]).homeRefuse m 3 else s'.homeCmp m []
    | 7 =>
      if (s.ueIn a (szBytes m.sz)).isSome then (s.slabUE t a [m.ctx]).homeRefuse m 3
      else
        let old := s.rdBytes line 64
        (s.wrBytes line (s.atomicLine m old)).homeCmp m old
    | 1 | 2 | 3 | 4 =>
      if (s.ueIn line 64).isSome then (s.slabUE t line [m.ctx]).homeRefuse m 3
      else s.homeData m (s.rdBytes line 64) 0
    | _ => s.homeCmp m []

/-! ### Finishing a request -/

/-- An agent is dead (R373). -/
def State.agentDead (s : State) (a : Nat) : Bool := a < 74 && (s.rd (.COH_DEAD (a / 32))).getLsbD (a % 32)

/-- The stage of a line's transaction; a dead requester sends no ACK. -/
def State.stage (s : State) (line : Nat) (g : TxnStage) : State :=
  s.updTxn line (fun x => { x with stage :=
    if g == .ack && (x.req.map (fun m => s.ours m && s.agentDead m.srcAgent.toNat)).getD false then .done else g })

/-- The presence that a granted shared copy leaves (R359): the copies that stay, and the requester. -/
def State.grantShared (s : State) (line : Nat) (r : Byte) : State :=
  match s.dirFind line with
  | some e => s.dirPut { e with state := .shared, presence := r :: e.presence.filter (fun x => x != r) }
  | none => s

def State.grantOwned (s : State) (line : Nat) (r : Byte) : State :=
  match s.dirFind line with
  | some e => s.dirPut { e with state := .owned, presence := [r] }
  | none => s

/-- A way that no copy uses any more is free again. -/
def State.dirReserved (s : State) (line : Nat) : State :=
  match s.dirFind line with
  | some e => if e.presence.isEmpty && e.state != .lost then s.dirFree line else s
  | none => s

/-- A write or an atomic is performed on the whole line (R359). In a rotation-locked granule a controller performs it in a coherent
window, and its CMP, with the data that the transaction keeps, follows (R40). -/
def State.performLine (s : State) (x : Txn) (m : CohMsg) (new cmp : List Byte) : State :=
  let line := x.line
  if placeOf line == .tier1 && s.untracked line then
    let changed := new.mapIdx (fun i b => (line + i, b))
    let s := s.dirFree line
    (s.updHome (fun h =>
      { h with
        tierOps := h.tierOps ++ [⟨line, some changed, false, false⟩]
        txns := h.txns.map (fun y => if y.line == line then { y with data := some cmp } else y) })).stage line .tierWrite
  else
    let s := (s.memPut line new (s.allocates m)).dirFree line
    (s.homeCmp m cmp).stage line .done

/-- The request's effect once the line's current bytes are at the home (R359, R360). -/
def State.finishWith (s : State) (x : Txn) (m : CohMsg) (bytes : List Byte) : State :=
  let line := x.line
  let r := m.srcAgent
  let tracked := s.ours m && !s.untracked line
  match m.opc.toNat with
  | 1 =>
    if tracked && (s.dirFind line).isSome then ((s.homeData m bytes 1).grantShared line r).stage line .ack
    else (s.homeData m bytes 0).stage line .ack
  | 2 | 3 =>
    if tracked && (s.dirFind line).isSome then ((s.homeData m bytes 2).grantOwned line r).stage line .ack
    else (s.homeData m bytes 0).stage line .ack
  | 4 => ((s.dirReserved line).homeData m bytes 0).stage line .ack
  | 7 => s.performLine x m (s.atomicLine m bytes) bytes
  | _ => s.performLine x m (mergeLine line bytes (writeCells m)) []

/-- The first byte of its line that a request asks for. -/
def firstByte (m : CohMsg) : Nat :=
  if m.opc == 0x06 then (threadsOf m.byteMask).headD 0 else m.addr.toNat % 64

/-- A read of a tier is asked for: of a line that will be cached as a refill, with the half first that holds the first byte
asked for (R280); tier 1 is read by its HBM controller (R301). -/
def State.fetchLine (s : State) (m : CohMsg) (cached : Bool) : State :=
  let line := localOf m.line
  s.updHome (fun h =>
    { h with
      refills := if cached then h.refills ++ [⟨line, 32 ≤ firstByte m, [], false, false⟩] else h.refills
      tierOps := match placeOf line with
        | .tier1 => h.tierOps ++ [⟨line, none, false, false⟩]
        | _ => h.tierOps })

/-- A request goes to a line whose entry is LOST (R374). -/
def State.homeLost (s : State) (m : CohMsg) : State :=
  let line := localOf m.line
  let stale := s.rdBytes line 64
  let host := s.ours m && (m.srcAgent == 72 || m.srcAgent == 73)
  let engine := s.ours m && 56 ≤ m.srcAgent.toNat && m.srcAgent.toNat < 72
  if m.opc == 0x05 then ((s.memPut line m.data (s.allocates m)).dirFree line).homeCmp m []
  else if m.opc == 0x08 || m.opc == 0x09 then
    (s.emit (.coh (s.homeFlit m 0x48))).countUp (.DIR_STRAY (homeSlice line).val) F.DIR_STRAY_COUNT
  else if host then
    let s := s.portViral (hostOf m.srcAgent)
    if m.opc == 0x06 then (s.memPut line (mergeLine line stale (writeCells m)) false).homeCmp m []
    else (s.lostAccess line m.ctx).homeData m stale 0
  else if engine then ((s.engineViral (engineOf m.srcAgent)).lostAccess line m.ctx).homeData m stale 0
  else (s.lostAccess line m.ctx).homeRefuse m 2

/-- A read has found a parity error in a dirty reservoir line (R283): it is recorded and its source set. With that source below
block-fatal, the line is discarded and LOST, and the request is answered so. At block-fatal the safe state begins and the request
has no answer: DESIGN CHOICE (log 123). -/
def State.dirtyParity (s : State) (x : Txn) (m : CohMsg) (l : RLine) : State :=
  let n := (homeSlice x.line).val
  let r := Reg.RSV_STATUS n
  let s := if s.fld r F.RSV_STATUS_DIRTY_PAR == 1 || s.fld r F.RSV_STATUS_UE == 1 || s.fld r F.RSV_STATUS_SCRUB_UE == 1 then s
    else s.setFld (.RSV_ERRADDR n) F.RSV_ERRADDR_LINE (x.line / 64)
  let s := (s.setFld r F.RSV_STATUS_DIRTY_PAR 1).wmEvent 14 [m.ctx] (some n)
  if s.fld (.WM_SRC 14) F.WM_SRC_SEVERITY == 3 then s.stage x.line .mem
  else (((s.resvDrop l false).makeLost x.line 0xFF).homeLost m).stage x.line .done

/-- The stage of a transaction that reads memory: at once, or after the tier's answer. A parity error in a clean reservoir line
invalidates it, and it is fetched again (R282). -/
def State.readStage (s : State) (x : Txn) (m : CohMsg) : State :=
  let line := x.line
  match placeOf line with
  | .scratch _ =>
    if (s.ueIn line 64).isSome then ((s.scratchUE line m.ctx).homeRefuse m 3).stage line .done
    else (s.scratchCe line 64).finishWith x m (s.rdBytes line 64)
  | _ =>
    let fetch (s : State) (cached : Bool) : State :=
      if s.t2Barred line then ((s.dirReserved line).homeRefuse m 4).stage line .done
      else (s.fetchLine m cached).stage line .mem
    match s.resLine line with
    | none => fetch s (s.allocates m)
    | some l =>
      if !l.parity then (s.resvTouch l).finishWith x m l.bytes
      else if l.isDirty then s.dirtyParity x m l
      else fetch ((s.resvDrop l false).countUp (.RSV_CECNT (homeSlice line).val) F.RSV_CECNT_COUNT) true

/-- The write of a request that needs no old bytes (R40, R278, R279): a whole line, an uncached write, scratch. -/
def State.writeStage (s : State) (x : Txn) (m : CohMsg) : State :=
  let line := x.line
  let scratch := match placeOf line with
    | .scratch _ => true
    | _ => false
  if scratch then
    let (s', bad) := s.storeCells (writeCells m)
    if bad then ((s'.scratchUE line m.ctx).homeRefuse m 3).stage line .done else (s'.homeCmp m []).stage line .done
  else if s.untracked line then
    (s.updHome (fun h => { h with tierOps := h.tierOps ++ [⟨line, some (writeCells m), false, false⟩] })).stage line .tierWrite
  else if m.opc == 0x05 then (((s.memPut line m.data (s.allocates m)).dirFree line).homeCmp m []).stage line .done
  else if s.allocates m || (s.resLine line).isSome then s.readStage x m
  else if s.t2Barred line then ((s.dirReserved line).homeRefuse m 4).stage line .done
  else (((s.tierWrite (writeCells m)).dirFree line).homeCmp m []).stage line .done

/-- A line's entry after its snooped copies are gone: an owner's, or the last, frees it. -/
def State.dirInvalidated (s : State) (line : Nat) : State :=
  match s.dirFind line with
  | some e => if e.state == .owned || e.presence.isEmpty then s.dirFree line else s
  | none => s

/-- A transaction whose snoops are all answered goes on (R359, R360, R363). -/
def State.proceed (s : State) (line : Nat) : State :=
  match s.txnAt line with
  | none => s
  | some x =>
    if x.stage != .snoop || !x.owed.isEmpty || !x.evict.isEmpty then s
    else
      match x.req, x.victim with
      | none, _ | some _, true =>
        let s : State := match x.data with
          | some d => s.memPut line d false
          | none => s
        (s.dirInvalidated line).stage line .done
      | some m, false =>
        let r := m.srcAgent
        if s.t2Gone line && !x.forwarded then ((s.dirReserved line).homeRefuse m 4).stage line .done
        else if x.forwarded then
          match m.opc.toNat with
          | 1 => (s.grantShared line r).stage line .ack
          | 2 | 3 => (s.grantOwned line r).stage line .ack
          | _ => s.stage line .ack
        else
          match x.data, m.opc.toNat with
          | some d, 1 => (((s.memPut line d (s.allocates m)).homeData m d 1).grantShared line r).stage line .ack
          | some d, 2 | some d, 3 => ((s.homeData m d 3).grantOwned line r).stage line .ack
          | some d, 4 => (s.homeData m d 0).stage line .ack
          | some d, 5 => (s.memPut line d (s.allocates m)).writeStage x m
          | some d, _ => s.finishWith x m d
          | none, 3 =>
            if (s.dirFind line).any (fun e => e.presence.contains r) then
              ((s.emit (.coh { s.homeFlit m 0x41 with grant := 2 })).grantOwned line r).stage line .ack
            else s.readStage x m
          | none, 5 | none, 6 => s.writeStage x m
          | none, _ => s.readStage x m

/-! ### Starting a request -/

/-- A snoop from the home to an agent; its source names the requester, to which the agent forwards (R356). -/
def State.snoop (s : State) (line : Nat) (opc : Nat) (dst : Byte) (m : Option CohMsg) : State :=
  let addr := s.chipId * 2 ^ 43 + line
  let src := (m.map (fun m => m.srcAgent)).getD (homeAgent line)
  let f := s.flit 1 opc src dst addr ((m.map (fun m => m.txn)).getD 0)
  s.emit (.coh { f with srcChip := (m.map (fun m => m.srcChip)).getD f.srcChip, ctx := (m.map (fun m => m.ctx)).getD 0 })

/-- A transaction opens and sends its snoops. -/
def State.openTxn (s : State) (line : Nat) (req : Option CohMsg) (victim : Bool) (opc : Nat) (dsts : List Byte) : State :=
  let s := s.updHome (fun h => { h with
    txns := h.txns ++ [⟨line, req, victim, .snoop, dsts, [], none, false, []⟩] })
  dsts.foldl (fun s a => s.snoop line opc a req) s

/-- A transaction that is done is closed; the answer holds its conflict chain, its victim's request first. -/
def State.closeTxn (s : State) (line : Nat) : List CohMsg × State :=
  match s.txnAt line with
  | some x =>
    if x.stage == .done then
      ((if x.victim then x.req.toList else []) ++ x.chain,
        s.updHome (fun h => { h with txns := h.txns.filter (fun y => y.line != line) }))
    else ([], s)
  | none => ([], s)

/-- Agents to snoop for a request: the entry's presence without the requester (R359), an agent of this chip. -/
def State.othersOf (s : State) (e : DirEntry) (m : CohMsg) : List Byte :=
  e.presence.filter (fun a => !(s.ours m && a == m.srcAgent))

/-- An eviction with no open transaction on its line (R359). -/
def State.homeEvict (s : State) (m : CohMsg) : State :=
  let line := localOf m.line
  let a := m.srcAgent
  let ack := Output.coh (s.homeFlit m 0x48)
  match s.dirFind line with
  | some e =>
    if m.opc == 0x09 && e.state == .owned && e.presence.contains a then
      ((s.memPut line m.data (s.allocates m)).dirFree line).emit ack
    else if m.opc == 0x08 && e.presence.contains a then (s.dirLeave line a).emit ack
    else (s.emit ack).countUp (.DIR_STRAY (homeSlice line).val) F.DIR_STRAY_COUNT
  | none => (s.emit ack).countUp (.DIR_STRAY (homeSlice line).val) F.DIR_STRAY_COUNT

/-- A request has to wait in the retry queue: for a way of its directory set (R364), or for one of its reservoir set
(R279). -/
def State.mustWait (s : State) (m : CohMsg) : Bool :=
  let line := localOf m.line
  let needs := m.opc == 1 || m.opc == 2 || m.opc == 3
  (s.txnAt line).isNone && m.opc != 8 && m.opc != 9 &&
    ((needs && s.ours m && !s.untracked line && (s.dirFind line).isNone && s.dirWay line == .wait) ||
     (s.allocates m && (s.resLine line).isNone && (s.resvRoom line).isNone))

/-- A request on a line with no open transaction starts (R359 to R365). -/
def State.homeStart (s : State) (m : CohMsg) : State :=
  let line := localOf m.line
  let r := m.srcAgent
  let m := if (!s.ours m || s.untracked line) && (m.opc == 1 || m.opc == 2 || m.opc == 3) then { m with opc := 4 } else m
  let finish (s : State) : State := ((s.proceed line).closeTxn line).2
  if s.t2Gone line then s.homeRefuse m 4
  else if s.mustWait m then s.updHome (fun h => { h with retry := h.retry ++ [m] })
  else
  match s.dirFind line with
  | some e =>
    if e.state == .lost then s.homeLost m
    else
      match m.opc.toNat with
      | 8 | 9 => s.homeEvict m
      | 4 =>
        if e.state == .owned then finish (s.openTxn line (some m) false 0x23 (s.othersOf e m))
        else finish (s.openTxn line (some m) false 0x23 [])
      | 1 => finish (s.openTxn line (some m) false 0x21 (if e.state == .owned then s.othersOf e m else []))
      | 2 => finish (s.openTxn line (some m) false (if e.state == .owned then 0x22 else 0x20) (s.othersOf e m))
      | 3 =>
        if e.presence.contains r then finish (s.openTxn line (some m) false 0x20 (s.othersOf e m))
        else finish (s.openTxn line (some { m with opc := 2 }) false (if e.state == .owned then 0x22 else 0x20) (s.othersOf e m))
      | _ => finish (s.openTxn line (some m) false 0x20 (s.othersOf e m))
  | none =>
    match m.opc.toNat with
    | 8 | 9 => s.homeEvict m
    | 1 | 2 | 3 =>
      let m := if m.opc == 3 then { m with opc := 2 } else m
      match s.dirWay line with
      | .way w => finish ((s.dirPut ⟨line, w, .shared, []⟩).openTxn line (some m) false 0x20 [])
      | .victim e =>
        if e.presence.isEmpty then
          finish (((s.dirFree e.line).dirPut ⟨line, e.way, .shared, []⟩).openTxn line (some m) false 0x20 [])
        else s.openTxn e.line (some m) true 0x20 e.presence
      | .wait => s
      | .allLost => finish (s.openTxn line (some m) false 0x20 [])
    | _ => finish (s.openTxn line (some m) false 0x20 [])

/-- An eviction from an agent that the open transaction of its line has snooped is absorbed at once (R357, R361). -/
def State.absorb (s : State) (m : CohMsg) : State :=
  let line := localOf m.line
  let s := if m.opc == 0x09 then s.memPut line m.data (s.allocates m) else s
  let s := match s.dirFind line with
    | some e => s.dirPut { e with presence := e.presence.filter (fun a => a != m.srcAgent) }
    | none => s
  (s.updTxn line (fun x => { x with evict := x.evict.filter (fun a => a != m.srcAgent) })).emit (.coh (s.homeFlit m 0x48))

/-- A request is dispatched: it starts, joins the conflict chain of its line, or, as an eviction that a snoop crossed, is
absorbed (R357). -/
def State.homeDispatch (s : State) (m : CohMsg) : State :=
  match s.txnAt (localOf m.line) with
  | some x =>
    if (m.opc == 8 || m.opc == 9) && (x.owed.contains m.srcAgent || x.evict.contains m.srcAgent) then s.absorb m
    else s.updTxn x.line (fun x => { x with chain := x.chain ++ [m] })
  | none => s.homeStart m

/-- A transaction goes on as far as it can; when it is done, its chain is dispatched (R357). -/
def State.settle (s : State) (line : Nat) : State :=
  let (ms, s) := (s.proceed line).closeTxn line
  ms.foldl (fun s m => s.homeDispatch m) s

/-! ### Accepting a request -/

/-- Window granule of a line, while the culvert covers it (R366, R414). -/
def State.granuleOf (s : State) (line : Nat) : Option Nat :=
  let base := s.fld .CUL_BASE F.CUL_BASE_GIB * 2 ^ 30
  if s.fld .CUL_CTRL F.CUL_CTRL_ENABLE == 1 && base ≤ line && line < base + 2 ^ 36 then some ((line - base) / 2 ^ 16) else none

/-- A checked request meets the bias of its granule (R366, R367): a host request to a granule in device bias asks for a flip,
a device request to a granule that flips waits. -/
def State.homeBias (s : State) (m : CohMsg) : State :=
  let host := s.ours m && (m.srcAgent == 72 || m.srcAgent == 73)
  match s.granuleOf (localOf m.line) with
  | none => s.homeDispatch m
  | some g =>
    let flipping := s.home.flips.any (fun f => f.granule == g)
    if flipping then
      s.updHome (fun h => { h with flips := h.flips.map (fun f =>
        if f.granule == g then
          if host then { f with host := f.host ++ [m] } else { f with waiting := f.waiting ++ [m] }
        else f) })
    else if host && !s.home.hostBias.contains g then
      s.updHome (fun h => { h with flips := h.flips ++ [⟨g, [m], []⟩] })
    else s.homeDispatch m

/-- A request whose owner entry is at hand is checked (R341, R357, R376), then dispatched. -/
def State.homeChecked (s : State) (m : CohMsg) : State :=
  let line := localOf m.line
  let write := m.opc == 5 || m.opc == 6 || m.opc == 7 || m.opc == 9
  if s.t2Gone line then s.homeRefuse m 4
  else if !s.ownerOk m.ctx line write then (s.ownerRefusal m.ctx line (some (homeSlice line).val)).homeRefuse m 1
  else if s.home.dirUE.contains (homeSlice line, dirSet line) then
    ((s.setFld (.DIR_STATUS (homeSlice line).val) F.DIR_STATUS_UE 1).wmEvent 17 [] (some (homeSlice line).val)).homeRefuse m 3
  else s.homeBias m

/-- The data bytes of a request that the weir counts (R284). -/
def weirBytes (m : CohMsg) : Nat :=
  match m.opc.toNat with
  | 1 | 2 | 4 | 5 | 9 => 64
  | 6 => (threadsOf m.byteMask).length
  | 7 => szBytes m.sz
  | _ => 0

/-- The granule of a request flips: the weir does not hold it (R367). -/
def State.weirExempt (s : State) (m : CohMsg) : Bool :=
  (s.granuleOf (localOf m.line)).any (fun g => s.home.flips.any (fun f => f.granule == g))

/-- The weir holds requests of a slice (R284). -/
def State.weirHolds (s : State) (n : SliceId) (m : CohMsg) : Bool :=
  let cap := s.fld (.RSV_WEIR n.val) F.RSV_WEIR_CAP
  s.rotRunning && cap != 0 && cap * 64 ≤ s.fld (.RSV_WEIR_COUNT n.val) F.RSV_WEIR_COUNT_BYTES && !s.weirExempt m

/-- An owner-cache entry that is present becomes the most recently used. -/
def Home.touchOwner (h : Home) (n : SliceId) (e : Nat) : Home :=
  { h with owners := if h.owners.contains (n, e) then (n, e) :: h.owners.erase (n, e) else h.owners }

/-- A slice takes no further request now (R364, R501, R549): its transactions or its retry queue are full, its stack is being
cleared, or it or the owner mirrors are not ready after a reset. -/
def State.homeFull (s : State) (n : SliceId) (m : CohMsg) : Bool :=
  let line := localOf m.line
  let zero := match placeOf line with
    | .tier1 => s.zeroing.any (fun k => k.val == line / 256 % 8)
    | _ => false
  let mirrors := s.rst.phase == .mirrors && m.ctx != 0 && (ownerIndex line).isSome
  256 ≤ s.openTxns n || zero || s.rst.phase == .units || mirrors ||
    (s.mustWait m && 64 ≤ (s.home.retry.filter (fun q => homeSlice (localOf q.line) == n)).length)

/-- A slice takes a request (R284, R340, R357): the checks of decode and owner come before the directory acts. -/
def State.homeTake (s : State) (m : CohMsg) : State :=
  let line := localOf m.line
  let n := homeSlice line
  if s.ours m && s.agentDead m.srcAgent.toNat then s.homeRefuse m 4
  else
    let s := if s.rotRunning && s.fld (.RSV_WEIR n.val) F.RSV_WEIR_CAP != 0 then
        s.setFld (.RSV_WEIR_COUNT n.val) F.RSV_WEIR_COUNT_BYTES
          (s.fld (.RSV_WEIR_COUNT n.val) F.RSV_WEIR_COUNT_BYTES + weirBytes m)
      else s
    if !s.backed line then s.homeRefuse m 5
    else if s.t2Gone line then s.homeRefuse m 4
    else
      let entry := match placeOf line with
        | .scratch _ => none
        | _ => ownerIndex line
      match entry with
      | none => (s.homeChecked m).settle line
      | some e =>
        if m.ctx == 0 || s.home.owners.contains (n, e) then
          ((s.updHome (fun h => h.touchOwner n e)).homeChecked m).settle line
        else s.updHome (fun h => { h with ownerWait := h.ownerWait ++ [(e, m)] })

/-- A request stays in the mesh's request channel: the weir holds it, its slice is full, or an earlier request for that slice stays
there (R31, R357, R364). ahead are the requests before it in the channel. -/
def State.homeHolds (s : State) (m : CohMsg) (ahead : List CohMsg) : Bool :=
  let n := homeSlice (localOf m.line)
  s.weirHolds n m || s.homeFull n m || (!s.weirExempt m && ahead.any (fun q => homeSlice (localOf q.line) == n))

/-- A home accepts a request (R31, R284, R364, R373), or it waits in the mesh behind those that do. -/
def State.homeAccept (s : State) (m : CohMsg) : State :=
  let line := localOf m.line
  let n := homeSlice line
  if s.ours m && s.agentDead m.srcAgent.toNat then s.homeRefuse m 4
  else
    match placeOf line with
    | .slab t _ => s.slabServe t m
    | _ =>
      let s := if s.weirHolds n m then s.setFld (.RSV_STATUS n.val) F.RSV_STATUS_WEIR_HELD 1 else s
      if s.homeHolds m s.home.held then s.updHome (fun h => { h with held := h.held ++ [m] }) else s.homeTake m

/-- Requests of the mesh that their slices take now, in arrival order, at most a number of them. -/
def State.homePumpN : Nat → State → State
  | 0, s => s
  | fuel + 1, s =>
    match (s.home.held.zipIdx).find? (fun x => !s.homeHolds x.1 (s.home.held.take x.2)) with
    | some (m, _) => State.homePumpN fuel ((s.updHome (fun h => { h with held := h.held.erase m })).homeTake m)
    | none => s

/-- The requests that waited in the mesh and whose slices take them now (R31, R364). -/
def State.homePump (s : State) : State := State.homePumpN s.home.held.length s

/-- A command that can free a home: what waited in the mesh follows it. -/
def State.homeCommit (s : State) (f : State → State) : Host.Outcome State Fault Refusal := s.commit (fun s => (f s).homePump)

/-- A request of a host port reaches its home, or waits for it in the mesh. -/
def State.hostRequest (s : State) (m : CohMsg) : State := s.homeAccept m

/-- What the rider cluster records as a core's message leaves it: an uncached write or an atomic that a FENCE waits for, or the
eviction of a line (R350, R395). -/
def State.riderSends (s : State) (m : CohMsg) : State :=
  let k := riderOf m.srcAgent
  match m.opc.toNat with
  | 5 | 6 | 7 => s.updRider k (fun x => { x with writes := x.writes ++ [m.txn] })
  | 8 | 9 =>
    s.updHome (fun h => { h with riderLines := h.riderLines.map (fun l =>
      if l.core == k && l.addr == localOf m.line then { l with evicting := true, dirty := m.opc == 9 } else l) })
  | _ => s

/-- A request row: the message has the row's opcode and reaches the home of its line on this chip. A rider core that waits at a FENCE
sends none but evictions (R395). -/
def State.homeRow (s : State) (n : SliceId) (m : CohMsg) (opc : Nat) : State :=
  if m.opc.toNat == opc && m.dstChip.toNat == s.chipId && chipOf m.addr.toNat == s.chipId &&
      (homeSlice (localOf m.line) == n || (match placeOf (localOf m.line) with | .slab _ _ => true | _ => false)) then
    if s.ours m && 48 ≤ m.srcAgent.toNat && m.srcAgent.toNat < 56 then
      if (s.rider (riderOf m.srcAgent)).fence.isSome && opc < 8 then s else (s.riderSends m).homeAccept m
    else s.homeAccept m
  else s

def execRdShared (n : SliceId) (m : CohMsg) (s : State) : Host.Outcome State Fault Refusal :=
  s.commit (fun s => s.homeRow n m 0x01)

def execRdOwn (n : SliceId) (m : CohMsg) (s : State) : Host.Outcome State Fault Refusal :=
  s.commit (fun s => s.homeRow n m 0x02)

def execClaim (n : SliceId) (m : CohMsg) (s : State) : Host.Outcome State Fault Refusal :=
  s.commit (fun s => s.homeRow n m 0x03)

def execRdPeek (n : SliceId) (m : CohMsg) (s : State) : Host.Outcome State Fault Refusal :=
  s.commit (fun s => s.homeRow n m 0x04)

def execWrFull (n : SliceId) (m : CohMsg) (s : State) : Host.Outcome State Fault Refusal :=
  s.commit (fun s => s.homeRow n m 0x05)

def execWrPart (n : SliceId) (m : CohMsg) (s : State) : Host.Outcome State Fault Refusal :=
  s.commit (fun s => s.homeRow n m 0x06)

def execAtomic (n : SliceId) (m : CohMsg) (s : State) : Host.Outcome State Fault Refusal :=
  s.commit (fun s => s.homeRow n m 0x07)

def execEvictClean (n : SliceId) (m : CohMsg) (s : State) : Host.Outcome State Fault Refusal :=
  s.commit (fun s => s.homeRow n m 0x08)

def execEvictDirty (n : SliceId) (m : CohMsg) (s : State) : Host.Outcome State Fault Refusal :=
  s.commit (fun s => s.homeRow n m 0x09)

/-- OWNER_CACHE_FILL (R340): a slice's owner cache of 1,024 entries receives an entry, and what waited for it is checked. -/
def execOwnerCacheFill (n : SliceId) (entry : Nat) (s : State) : Host.Outcome State Fault Refusal :=
  s.homeCommit (fun s =>
    let mine (x : Nat × CohMsg) : Bool := x.1 == entry && homeSlice (localOf x.2.line) == n
    let waiting := s.home.ownerWait.filter mine
    let s := s.updHome (fun h =>
      let own := (h.owners.filter (fun x => x.1 == n && x.2 != entry)).take 1023
      { h with
        owners := (n, entry) :: (own ++ h.owners.filter (fun x => x.1 != n))
        ownerWait := h.ownerWait.filter (fun x => !mine x) })
    waiting.foldl (fun s x => (s.homeChecked x.2).settle (localOf x.2.line)) s)

/-! ### Replies to a home (R354, R360, R361) -/

/-- The open transaction that waits for a reply of an agent, and the reply taken from what is owed. -/
def State.replyRow (s : State) (n : SliceId) (m : CohMsg) (opc : Nat) (f : State → Txn → State) : State :=
  let line := localOf m.line
  if m.opc.toNat == opc && homeSlice line == n && m.dstChip.toNat == s.chipId then
    match s.txnAt line with
    | some x =>
      if x.stage == .snoop && x.owed.contains m.srcAgent then
        (f (s.updTxn line (fun x => { x with owed := x.owed.erase m.srcAgent })) x).settle line
      else s
    | none => s
  else s

/-- RSP_I: no copy now. On an OWNED line with no eviction yet the home waits for the owner's eviction (R361). -/
def execRspI (n : SliceId) (m : CohMsg) (s : State) : Host.Outcome State Fault Refusal :=
  s.homeCommit (fun s => s.replyRow n m 0x43 (fun s x =>
    match s.dirFind x.line with
    | some e =>
      if e.state == .owned && e.presence.contains m.srcAgent then
        s.updTxn x.line (fun x => { x with evict := x.evict ++ [m.srcAgent] })
      else s.dirPut { e with presence := e.presence.filter (fun a => a != m.srcAgent) }
    | none => s))

/-- RSP_S: the agent kept a shared copy; a modified line reaches memory. An internal agent has forwarded the line. -/
def execRspS (n : SliceId) (m : CohMsg) (s : State) : Host.Outcome State Fault Refusal :=
  s.homeCommit (fun s => s.replyRow n m 0x44 (fun s x =>
    let s := if m.hasData then s.memPut x.line m.data (x.req.any s.allocates) else s
    if m.srcAgent.toNat < 56 then s.updTxn x.line (fun x => { x with forwarded := true }) else s))

/-- RSP_KEEP: the agent keeps the line clean; the home sends memory's data. -/
def execRspKeep (n : SliceId) (m : CohMsg) (s : State) : Host.Outcome State Fault Refusal :=
  s.homeCommit (fun s => s.replyRow n m 0x45 (fun s _ => s))

/-- RSP_FWD: the agent forwarded the line to the requester. -/
def execRspFwd (n : SliceId) (m : CohMsg) (s : State) : Host.Outcome State Fault Refusal :=
  s.homeCommit (fun s => s.replyRow n m 0x46 (fun s x => s.updTxn x.line (fun x => { x with forwarded := true })))

/-- RSP_DATA: modified data returns to the home, which sends it on (R356). -/
def execRspData (n : SliceId) (m : CohMsg) (s : State) : Host.Outcome State Fault Refusal :=
  s.homeCommit (fun s => s.replyRow n m 0x47 (fun s x => s.updTxn x.line (fun x => { x with data := some m.data })))

/-- ACK closes a transaction that granted data (R358). -/
def execAck (n : SliceId) (m : CohMsg) (s : State) : Host.Outcome State Fault Refusal :=
  s.homeCommit (fun s =>
    let line := localOf m.line
    match s.txnAt line with
    | some x =>
      if m.opc == 0x49 && homeSlice line == n && x.stage == .ack &&
          (x.req.map (fun q => (q.srcAgent, q.txn))) == some (m.srcAgent, m.txn) then
        (s.stage line .done).settle line
      else s
    | none => s)

/-- COH_PROTOCOL_ERROR (R354): the flit is discarded and the receiving unit's source is raised. -/
def execCohProtocolError (slice : Option SliceId) (m : CohMsg) (s : State) : Host.Outcome State Fault Refusal :=
  s.commit (fun s => s.wmEvent 18 [m.ctx] (slice.map (fun n => n.val)))

/-- RETRY_QUEUE_SERVE (R364): a way of a set has freed, and the oldest waiting request of that set is served. -/
def execRetryQueueServe (n : SliceId) (s : State) : Host.Outcome State Fault Refusal :=
  s.homeCommit (fun s =>
    match s.home.retry.find? (fun m => homeSlice (localOf m.line) == n && !s.mustWait m) with
    | some m =>
      ((s.updHome (fun h => { h with retry := h.retry.erase m })).homeDispatch m).settle (localOf m.line)
    | none => s)

/-! ### Data of a tier (R280, R301, R302, R308) -/

/-- The error that a tier's answer of some bytes carries, recorded (R302, R304, R308): tier 1's may have been found as its command was
issued. -/
def State.tierError (s : State) (a n : Nat) (ctx : Byte) (ecc : EccResult) : Bool × State :=
  let line := a / 64 * 64
  match placeOf line with
  | .tier1 =>
    if s.home.tierOps.any (fun o => o.line == line && o.ue) then (true, s)
    else if ecc == .uncorrectable then (true, s.hbmUE (stackId a) a [ctx])
    else (false, if ecc == .corrected then s.countUp (.HB_CECNT (stackOf a)) F.HB_CECNT_COUNT else s)
  | .tier2 g =>
    if ecc == .uncorrectable || (s.ueIn a n).isSome then (true, s.tier2UE g line [ctx]) else (false, s)
  | _ => (false, s)

/-- A tier-1 read of a line has been issued by its controller. -/
def State.tierIssued (s : State) (line : Nat) : Bool :=
  match placeOf line with
  | .tier1 => s.home.tierOps.any (fun o => o.line == line && o.write.isNone && o.issued)
  | _ => true

def State.dropTierRead (s : State) (line : Nat) : State :=
  s.updHome (fun h => { h with tierOps := h.tierOps.filter (fun o => !(o.line == line && o.write.isNone)) })

/-- Whether a write or atomic lies inside a half of its line (R280). -/
def inHalf (m : CohMsg) (second : Bool) : Bool :=
  let lo := if second then 32 else 0
  match m.opc.toNat with
  | 6 => (threadsOf m.byteMask).all (fun i => lo ≤ i && i < lo + 32)
  | 7 => lo ≤ m.addr.toNat % 64 && m.addr.toNat % 64 + szBytes m.sz ≤ lo + 32
  | _ => false

/-- Requests that lie inside the first half of a refill complete, in order, with that half; what they write stays in it (R280). The
data flit of an atomic's CMP has the half's bytes in their places and free values elsewhere. -/
def State.halfServe (s : State) (second : Bool) : List CohMsg → List Byte → List Byte × State
  | [], half => (half, s)
  | m :: r, half =>
    let lo := if second then 32 else 0
    let (n, s) := s.takeFresh
    let rest := (List.range 32).map (fun i => BitVec.ofNat 8 (Config.freeBits n i))
    let bytes := if second then rest ++ half else half ++ rest
    let new := if m.opc == 7 then s.atomicLine m bytes else mergeLine (localOf m.line) bytes (writeCells m)
    (s.homeCmp m (if m.opc == 7 then bytes else [])).halfServe second r ((new.drop lo).take 32)

/-- The requests of a transaction that complete with a half: its own, and those of its chain that follow it inside the half. Only
writes and atomics to a line that nobody holds lie inside one. -/
def State.halfRequests (s : State) (x : Txn) (second : Bool) : List CohMsg :=
  ((x.req.toList ++ x.chain).takeWhile (fun m => inHalf m second && s.allocates m)).filter (fun _ => (s.dirFind x.line).isNone)

/-- REFILL_HALF (R280): a half of a refilled line arrives. Requests inside the first half complete with it; the line enters the
reservoir with the second, and the other requests complete. -/
def execRefillHalf (n : SliceId) (line : Nat) (second : Bool) (ecc : EccResult) (s : State) :
    Host.Outcome State Fault Refusal :=
  s.homeCommit (fun s =>
    match s.home.refills.find? (fun r => r.line == line), s.txnAt line with
    | some r, some x =>
      let expected := if r.halves.isEmpty then r.secondFirst else !r.secondFirst
      if homeSlice line != n || second != expected || !s.tierIssued line then s
      else
        let at_ := line + (if second then 32 else 0)
        let (ue, s) := s.tierError at_ 32 ((x.req.map (fun m => m.ctx)).getD 0) ecc
        let half := (List.range 32).map (fun i => s.tierByte (at_ + i))
        if r.halves.isEmpty then
          let ms := if ue then [] else s.halfRequests x second
          let (half, s) := s.halfServe second ms half
          let s := s.updHome (fun h => { h with refills := h.refills.map (fun y =>
            if y.line == line then { y with halves := [(second, half)], ue := ue, dirty := !ms.isEmpty } else y) })
          if ms.isEmpty then s
          else s.updTxn line (fun x => { x with forwarded := true, chain := x.chain.drop (ms.length - 1) })
        else
          let s := (s.updHome (fun h => { h with refills := h.refills.filter (fun y => y.line != line) })).dropTierRead line
          let first := (r.halves.map (fun y => y.2)).flatten
          let bytes := if second then first ++ half else half ++ first
          let s := if !(r.ue || ue) then s.resvPut line bytes r.dirty
            else if r.dirty then s.tierWrite (first.mapIdx (fun i b => (line + (if second then 0 else 32) + i, b)))
            else s
          if x.forwarded then (s.stage line .done).settle line
          else
            match x.req with
            | some m =>
              if r.ue || ue then (((s.homeRefuse m 3).stage line .done).dirReserved line).settle line
              else (s.finishWith x m bytes).settle line
            | none => (s.stage line .done).settle line
    | _, _ => s)

/-- TIER_READ_RETURN (R40, R278): the data of an uncached tier read returns and its request completes. -/
def execTierReadReturn (n : SliceId) (m : CohMsg) (ecc : EccResult) (s : State) : Host.Outcome State Fault Refusal :=
  s.homeCommit (fun s =>
    let line := localOf m.line
    match s.txnAt line with
    | some x =>
      match x.req with
      | some q =>
        if homeSlice line != n || x.stage != .mem || q.txn != m.txn || q.srcAgent != m.srcAgent || !s.tierIssued line ||
            s.home.refills.any (fun r => r.line == line) then s
        else
          let (ue, s) := s.tierError line 64 q.ctx ecc
          let s := s.dropTierRead line
          if ue then
            let s := (s.homeRefuse q 3).stage line .done
            (s.dirReserved line).settle line
          else (s.finishWith x q ((List.range 64).map (fun i => s.tierByte (line + i)))).settle line
      | none => s
    | none => s)

/-! ### Dead agents (R372 to R374) -/

/-- An agent leaves an entry that its open transaction holds. -/
def State.dirLeaveKeep (s : State) (line : Nat) (a : Byte) : State :=
  match s.dirFind line with
  | some e => s.dirPut { e with presence := e.presence.filter (fun x => x != a) }
  | none => s

/-- What the death of an agent does to an open transaction (R373): what it owes counts as RSP_I, and a transaction that waits
for its eviction, or for its reply about a line it owns, ends with the line LOST. -/
def State.deathTxn (s : State) (a : Byte) (line : Nat) : State :=
  match s.txnAt line with
  | none => s
  | some x =>
    if x.stage == .ack && (x.req.map (fun m => s.ours m && m.srcAgent == a)).getD false then s.stage line .done
    else if !(x.owed.contains a || x.evict.contains a) then s
    else
      let owned := (s.dirFind line).any (fun e => e.state == .owned && e.presence.contains a)
      let s := s.updTxn line (fun x => { x with owed := x.owed.erase a, evict := x.evict.erase a })
      if owned then
        let s := s.makeLost line a.toNat
        match x.req, x.victim with
        | some m, false => (s.homeLost m).stage line .done
        | some _, true => s.stage line .done
        | none, _ => s.stage line .done
      else s.dirLeaveKeep line a

/-- An agent becomes dead (R373): its entries are reclaimed, the lines it owned are LOST, and the reclaim walk runs. -/
def State.agentDies (s : State) (a : Nat) : State :=
  let b : Byte := BitVec.ofNat 8 a
  let s := s.wr (.COH_DEAD (a / 32)) (s.rd (.COH_DEAD (a / 32)) ||| BitVec.ofNat 64 (2 ^ (a % 32)))
  let s := s.setFld .COH_RECLAIM F.COH_RECLAIM_BUSY 1
  let lines := s.home.txns.map (fun x => x.line)
  let s := lines.foldl (fun s l => (s.deathTxn b l).settle l) s
  let s := (s.home.dir.filter (fun e => e.presence.contains b && (s.txnAt e.line).isNone)).foldl (fun s e =>
    if e.state == .owned then s.makeLost e.line a else s.dirLeave e.line b) s
  if 48 ≤ a && a < 56 then
    s.updHome (fun h => { h with riderLines := h.riderLines.filter (fun l => l.core != riderOf b) })
  else s

/-- AGENT_DEATH (R372, R373). -/
def execAgentDeath (a : Fin 74) (s : State) : Host.Outcome State Fault Refusal :=
  s.homeCommit (fun s => if s.agentDead a.val then s else s.agentDies a.val)

/-- The engine of a slot is lost (R481): nothing it owes is waited for any more, and its bindings stay. Of its pending page requests
R335 and R481 say different things (log 60). quiet is the loss that
ES_CTRL.RESET asks for. -/
def State.engineLost (s : State) (e : EngineId) (quiet : Bool) : State :=
  let r := Reg.ES_STATUS e.val
  let unbinding := ((s.eslot e).owes.filter (fun x => x.2)).map (fun x => x.1)
  let s := ((s.setFld r F.ES_STATUS_STATE 4).setFld r F.ES_STATUS_LOST_SEEN 1).setFld r F.ES_STATUS_SCHED 0
  let s := if quiet then s else s.wmEvent (103 + e.val) [] none
  let s := if s.agentDead (56 + e.val) then s else s.agentDies (56 + e.val)
  let asked := ((s.xl.faults.flatMap (fun f => f.waiters.map (fun w => w.1)) ++ s.xl.refused.map (fun r => r.who)).filter (· == .engine e)).length
  let s := if Config.prgFailure then s.emits (List.replicate asked (.engine e .prgFailure)) else s
  let s := s.leaveFaults (· == .engine e)
  let s := unbinding.foldl (fun s c => s.setBound e c false) s
  let s := s.updEslot e (fun x =>
    { x with
      rc := [], walks := [], reqs := x.reqs.map (fun q => { q with live := false }), owes := [], atsRefused := []
      ping := none, halted := false })
  let m := Reg.ES_MMIO_STAT e.val
  if s.fld m F.ES_MMIO_STAT_BUSY == 1 then (s.setFld m F.ES_MMIO_STAT_BUSY 0).setFld m F.ES_MMIO_STAT_RESULT 3 else s

/-- SNOOP_TIMEOUT (R372): an agent owes a reply to a snoop; the source is raised in the slices that wait, and the agent
dies; an engine is lost with it (R481). -/
def execSnoopTimeout (a : Fin 74) (s : State) : Host.Outcome State Fault Refusal :=
  s.homeCommit (fun s =>
    let b : Byte := BitVec.ofNat 8 a.val
    let slices := ((s.home.txns.filter (fun x => x.owed.contains b)).map (fun x => (homeSlice x.line).val)).dedup
    if slices.isEmpty || s.agentDead a.val then s
    else
      let s := slices.foldl (fun s n => s.wmEvent 19 [] (some n)) s
      let e := engineOf b
      if 56 ≤ a.val && a.val < 72 && (s.esState e == 2 || s.esState e == 3) then s.engineLost e false
      else s.agentDies a.val)

/-- RECLAIM_START (R377): a write of COH_RECLAIM.START with an agent from 0 to 73. -/
def State.reclaimStart (s : State) (a : Byte) : State :=
  let s := s.setFld .COH_RECLAIM F.COH_RECLAIM_AGENT a.toNat
  if a.toNat < 74 then s.agentDies a.toNat else s

def execReclaimStart (a : Byte) (s : State) : Host.Outcome State Fault Refusal :=
  s.homeCommit (fun s => s.reclaimStart a)

/-- RECLAIM_DONE (R373): every slice has finished its walk. -/
def execReclaimDone (s : State) : Host.Outcome State Fault Refusal :=
  s.commit (fun s => s.setFld .COH_RECLAIM F.COH_RECLAIM_BUSY 0)

/-! ### DIR_PROBE (R378) -/

/-- The 128 bits of the entry at a set and way of a slice (R352), with its SET and WAY written. -/
def State.probeLoad (s : State) (n : SliceId) (e : Option DirEntry) : State :=
  let v : Nat := match e with
    | some e =>
      (e.presence.foldl (fun a x => if x.toNat < 96 then Nat.lor a (2 ^ x.toNat) else a) 0) +
        e.line / 64 / 2 ^ 17 % 2 ^ 20 * 2 ^ 96 +
        (match e.state with
         | .shared => 1
         | .owned => 2
         | .lost => 3) * 2 ^ 116
    | none => 0
  (List.range 4).foldl (fun s k => s.wr (.DIR_PROBE_DATA n.val k) (BitVec.ofNat 64 (v / 2 ^ (32 * k) % 2 ^ 32))) s

def State.probeAt (s : State) (n : SliceId) (set way : Nat) : Option DirEntry :=
  s.home.dir.find? (fun e => homeSlice e.line == n && dirSet e.line == set && e.way == way)

def State.probeName (s : State) (n : SliceId) (set way : Nat) (none_ : Bool) : State :=
  ((s.setFld (.DIR_PROBE n.val) F.DIR_PROBE_SET set).setFld (.DIR_PROBE n.val) F.DIR_PROBE_WAY way).setFld
    (.DIR_PROBE n.val) F.DIR_PROBE_NONE (if none_ then 1 else 0)

/-- DIR_PROBE_READ (R378). -/
def State.probeRead (s : State) (n : SliceId) (set way : Nat) : State :=
  (s.probeName n set way false).probeLoad n (s.probeAt n set way)

def execDirProbeRead (n : SliceId) (set : BitVec 12) (way : BitVec 4) (s : State) : Host.Outcome State Fault Refusal :=
  s.commit (fun s => s.probeRead n set.toNat way.toNat)

/-- NEXT_LOST (R378): the next LOST entry after SET and WAY, by set and then way. -/
def State.nextLost (s : State) (n : SliceId) (set way : Nat) : State :=
  let key (e : DirEntry) : Nat := 16 * dirSet e.line + e.way
  let next := (s.home.dir.filter (fun e => homeSlice e.line == n && e.state == .lost && 16 * set + way < key e)).foldl
    (fun (b : Option DirEntry) e =>
      match b with
      | some x => if key e < key x then some e else some x
      | none => some e) none
  match next with
  | some e => (s.probeName n (dirSet e.line) e.way false).probeLoad n (some e)
  | none => (s.probeName n set way true).probeLoad n none

def execNextLost (n : SliceId) (set : BitVec 12) (way : BitVec 4) (s : State) : Host.Outcome State Fault Refusal :=
  s.commit (fun s => s.nextLost n set.toNat way.toNat)

/-! ### Locks and bias (R366 to R371) -/

/-- A command of the bias unit ends with a result. -/
def State.biasResult (s : State) (r : Nat) : State :=
  (s.setFld .BIAS_STATUS F.BIAS_STATUS_RESULT r).setFld .BIAS_STATUS F.BIAS_STATUS_BUSY 0

def State.biasBusy (s : State) : Bool := s.fld .BIAS_STATUS F.BIAS_STATUS_BUSY == 1

/-- HOST_GRANULES as the state has it. -/
def State.biasCount (s : State) : State :=
  s.setFld .BIAS_STATUS F.BIAS_STATUS_HOST_GRANULES s.home.hostBias.length

/-- Every entry of the lines that satisfy a condition is back-invalidated toward the agents that satisfy one (R368, R370,
R417). A line with an open transaction is taken when that transaction has closed. -/
def State.backInvalidate (s : State) (lines : Nat → Bool) (agents : Byte → Bool) : State :=
  (s.home.dir.filter (fun e => lines e.line && e.state != .lost && e.presence.any agents && (s.txnAt e.line).isNone)).foldl
    (fun s e => s.openTxn e.line none true 0x20 (e.presence.filter agents)) s

def isHostAgent (a : Byte) : Bool := a == 72 || a == 73

/-- A line lies in window granules from one on (R366). -/
def State.inGranules (s : State) (start count line : Nat) : Bool :=
  (s.granuleOf line).any (fun g => start ≤ g && g < start + count)

/-- SET_DEVICE (R368). -/
def State.setDevice (s : State) : State :=
  let start := s.fld .BIAS_ARG F.BIAS_ARG_START
  let count := s.fld .BIAS_ARG F.BIAS_ARG_COUNT
  if s.biasBusy then s.setFld .BIAS_STATUS F.BIAS_STATUS_RESULT 1
  else if count == 0 || 2 ^ 20 < start + count then s.biasResult 2
  else
    (((s.setFld .BIAS_STATUS F.BIAS_STATUS_BUSY 1).setFld .BIAS_STATUS F.BIAS_STATUS_RESULT 0).updHome
      (fun h => { h with bias := some (.setDevice start count) })).backInvalidate (s.inGranules start count) isHostAgent

def execSetDevice (s : State) : Host.Outcome State Fault Refusal := s.homeCommit (fun s => s.setDevice)

/-- The cause for which LOCK is refused, 0 for none (R370, R418). The culvert's window is compared whether or not the culvert is
enabled, so that it never covers a locked granule (R40, R371; DEDUCED, log 124). -/
def State.lockRefusal (s : State) (start count : Nat) : Nat :=
  let overlap := (List.range 64).any (fun n =>
    s.fld (.LOCK n) F.LOCK_VALID == 1 && s.fld (.LOCK n) F.LOCK_START < start + count &&
      start < s.fld (.LOCK n) F.LOCK_START + s.fld (.LOCK n) F.LOCK_COUNT)
  let covers (gib : Nat) : Bool := gib * 2 ^ 14 < start + count && start < gib * 2 ^ 14 + 2 ^ 20
  let culvert := covers (s.fld .CUL_BASE F.CUL_BASE_GIB) ||
    (match s.home.culvert with
     | some (some t) => covers t
     | _ => false)
  if s.rotState != 0 then 3
  else if count == 0 || 0x900000 < start + count then 2
  else if overlap then 4
  else if culvert then 5
  else 0

/-- LOCK (R370): the run's requests are uncached from here on, its holders are back-invalidated, and its reservoir lines
written back and invalidated. The entry's VALID is set at once inside the unit, and shown when the command is done. -/
def State.lockCmd (s : State) : State :=
  let start := s.fld .BIAS_ARG F.BIAS_ARG_START
  let count := s.fld .BIAS_ARG F.BIAS_ARG_COUNT
  let entry := s.fld .BIAS_ARG F.BIAS_ARG_ENTRY
  let inRun (a : Nat) : Bool := start ≤ a / 2 ^ 16 && a / 2 ^ 16 < start + count && a < 0x9000000000
  if s.biasBusy then s.setFld .BIAS_STATUS F.BIAS_STATUS_RESULT 1
  else if s.lockRefusal start count != 0 then s.biasResult (s.lockRefusal start count)
  else
    let s := ((s.setFld .BIAS_STATUS F.BIAS_STATUS_BUSY 1).setFld .BIAS_STATUS F.BIAS_STATUS_RESULT 0).updHome
      (fun h => { h with bias := some (.lock entry start count) })
    let s := (s.home.resv.filter (fun l => inRun l.addr)).foldl (fun s l => s.resvDrop l true) s
    s.backInvalidate inRun (fun _ => true)

def execLock (s : State) : Host.Outcome State Fault Refusal := s.homeCommit (fun s => s.lockCmd)

/-- UNLOCK (R370). -/
def State.unlockCmd (s : State) : State :=
  let entry := s.fld .BIAS_ARG F.BIAS_ARG_ENTRY
  if s.biasBusy then s.setFld .BIAS_STATUS F.BIAS_STATUS_RESULT 1
  else if s.rotState != 0 then s.biasResult 3
  else (s.wr (.LOCK entry) 0).biasResult 0

def execUnlock (s : State) : Host.Outcome State Fault Refusal := s.commit (fun s => s.unlockCmd)

/-- BIAS_CMD_DONE (R368, R370): nothing of the running command is left: no host copy in the returned granules, whose bias
bits clear, or no copy and no reservoir line in the locked run, whose entry becomes valid. -/
def execBiasCmdDone (s : State) : Host.Outcome State Fault Refusal :=
  s.homeCommit (fun s =>
    match s.home.bias with
    | none => s
    | some (.setDevice start count) =>
      if s.home.dir.any (fun e => s.inGranules start count e.line && e.presence.any isHostAgent) then
        s.backInvalidate (s.inGranules start count) isHostAgent
      else
        ((s.updHome (fun h => { h with
          bias := none, hostBias := h.hostBias.filter (fun g => !(start ≤ g && g < start + count)) })).biasCount).biasResult 0
    | some (.lock entry start count) =>
      let inRun (a : Nat) : Bool := start ≤ a / 2 ^ 16 && a / 2 ^ 16 < start + count && a < 0x9000000000
      if s.home.dir.any (fun e => inRun e.line && e.state != .lost) || s.home.txns.any (fun x => inRun x.line) then
        s.backInvalidate inRun (fun _ => true)
      else
        let s := (s.home.resv.filter (fun l => inRun l.addr)).foldl (fun s l => s.resvDrop l true) s
        let r := Reg.LOCK entry
        let s := ((s.setFld r F.LOCK_COUNT count).setFld r F.LOCK_START start).setFld r F.LOCK_VALID 1
        (s.updHome (fun h => { h with bias := none })).biasResult 0)

/-- BIAS_FLIP_DONE (R367): no transaction is open on a line of the granule; host bias is set, the host's requests are served,
and the device requests that waited are released. -/
def execBiasFlipDone (granule : Nat) (s : State) : Host.Outcome State Fault Refusal :=
  s.homeCommit (fun s =>
    match s.home.flips.find? (fun f => f.granule == granule) with
    | none => s
    | some f =>
      let busy := s.home.txns.any (fun x => s.granuleOf x.line == some granule)
      let returning := match s.home.bias with
        | some (.setDevice start count) => start ≤ granule && granule < start + count
        | _ => false
      if busy || returning then s
      else
        let s := (s.updHome (fun h => { h with
          flips := h.flips.filter (fun x => x.granule != granule), hostBias := granule :: h.hostBias.erase granule })).biasCount
        (f.host ++ f.waiting).foldl (fun s m => (s.homeDispatch m).settle (localOf m.line)) s)

end Sys2Proof.Machine
end

