-- ==== Sys2Proof/Machine/Mappings.lean ====
section
/-! DEFINITION. The translation unit: missing ranges and the fault queue (R327 to R331), the hot list (R333), and the unit's
commands: contexts, tables, withdrawals, pins and owners (R314 to R326, R336 to R345). -/

namespace Sys2Proof.Machine

/-! ### Commands -/

/-- The running command ends with a result and its MSI-X message (R343). -/
def State.trResult (s : State) (r : Nat) : State :=
  let s := { s with xl := { s.xl with run := none } }
  let s := (s.setFld .TR_STATUS F.TR_STATUS_BUSY 0).setFld .TR_STATUS F.TR_STATUS_RESULT r
  s.notify (s.fld .TR_STATUS F.TR_STATUS_VECTOR)

/-- A command is taken while none runs (R343). -/
def State.trCommand (s : State) (go : State → State) : State :=
  if s.rst.phase == .mirrors then s
  else if s.fld .TR_STATUS F.TR_STATUS_BUSY == 1 then s.setFld .TR_STATUS F.TR_STATUS_RESULT 1
  else go (s.setFld .TR_STATUS F.TR_STATUS_BUSY 1)

def State.trRun (s : State) (r : TrRun) : State := { s with xl := { s.xl with run := some r } }

/-- TR_CMD_BUSY (R343): a write of TR_CMD.OP while a command runs. -/
def execTrCmdBusy (_op : BitVec 4) (s : State) : Host.Outcome State Fault Refusal :=
  s.commit (fun s => if s.fld .TR_STATUS F.TR_STATUS_BUSY == 1 then s.setFld .TR_STATUS F.TR_STATUS_RESULT 1 else s)

/-- The context named in TR_ARG0 exists and is not 0 (R343). -/
def State.argCtx (s : State) : Byte := BitVec.ofNat 8 (s.rd .TR_ARG0).toNat

def State.argCtxBad (s : State) : Bool := s.argCtx == 0 || !s.ctxValid s.argCtx

/-! ### Levee checks (R316, R492, R493) -/

/-- A key slot's field; in RETURNED every slot acts as unassigned (R501). -/
def State.keyField (s : State) (j : Nat) : Nat := if s.lifecycle == 3 then 15 else s.fld (.LV_KEY j) F.LV_KEY_FIELD

/-- An LV_MEM entry in use (R494). -/
def State.leveeMemOk (s : State) (n : Nat) : Bool :=
  let r := Reg.LV_MEM n
  s.fld r F.LV_MEM_VALID == 1 && s.fld r F.LV_MEM_FIRST ≤ s.fld r F.LV_MEM_LAST && s.fld r F.LV_MEM_LAST ≤ 1343567

/-- The field that the levee gives an owner-table index (R492). -/
def State.regionField (s : State) (e : Nat) : Nat :=
  match (List.range 32).find? (fun n =>
    s.leveeMemOk n && s.fld (.LV_MEM n) F.LV_MEM_FIRST ≤ e && e ≤ s.fld (.LV_MEM n) F.LV_MEM_LAST) with
  | some n => s.fld (.LV_MEM n) F.LV_MEM_FIELD
  | none => 15

/-- The levee gives a field some resource (R493). -/
def State.fieldHasResource (s : State) (f : Nat) : Bool :=
  (List.range 32).any (fun n => s.leveeMemOk n && s.fld (.LV_MEM n) F.LV_MEM_FIELD == f) ||
  (List.range 48).any (fun t => s.leveeNibble .LV_TILE t == f) ||
  (List.range 36).any (fun l => s.leveeNibble .LV_LINK l == f) ||
  (List.range 16).any (fun e => s.fld (.ES_FIELD e) F.ES_FIELD_FIELD == f) ||
  (List.range 63).any (fun k => s.leveeNibble .LV_FUNC (k + 1) == f) ||
  (List.range 64).any (fun j => s.keyField j == f) ||
  (List.range 6).any (fun k => s.fld (.LV_RIDER (k + 2)) F.LV_RIDER_FIELD == f)

/-- CTX_CREATE's field, key slot and function agree with the levee (R316, R492, R493). -/
def State.createFieldBad (s : State) (field keyslot function : Nat) : Bool :=
  field == 15 || !s.fieldHasResource field || (keyslot != 0xFF && (64 ≤ keyslot || s.keyField keyslot != field)) ||
  (function != 0 && s.leveeNibble .LV_FUNC function != field)

/-! ### Range tables (R318, R319) -/

/-- The address of entry i of a table. -/
def rangeAt (base : Word64) (i : Nat) : Nat := localOf base.toNat + 32 * i

/-- Entry i of a table has no reserved bit and no reserved value set, ends at most at 2^64, and counts only where it may. -/
def State.rangeFieldsOk (s : State) (base : Word64) (i : Nat) : Bool :=
  let a := rangeAt base i
  let vstart := s.rdNat a 8
  let pages := s.rdNat (a + 16) 4
  let cls := s.rdNat (a + 20) 1
  let perm := s.rdNat (a + 21) 1
  vstart % 4096 == 0 && s.rdNat (a + 8) 8 % 4096 == 0 && 1 ≤ pages && pages ≤ 2 ^ 31 && cls ≤ 3 && perm < 64 &&
  s.rdNat (a + 22) 1 ≤ 2 && s.rdNat (a + 23) 9 == 0 && vstart + pages * 4096 ≤ 2 ^ 64 &&
  (perm / 16 % 2 == 0 || cls == 1 || cls == 2)

/-- A table is well formed (R319). -/
def State.tableOk (s : State) (base : Word64) (count : Nat) : Bool :=
  let b := localOf base.toNat
  let here := base.toNat < 2 ^ 52 && chipOf base.toNat == s.chipId && b + 32 * count ≤ 0x9000000000
  base.toNat % 4096 == 0 && here &&
  (List.range ((b + 32 * count - 1) / 2 ^ 21 + 1 - b / 2 ^ 21)).all (fun j =>
    s.ownerEntry (b / 2 ^ 21 + j) % 256 == 0) &&
  (List.range count).all (s.rangeFieldsOk base) &&
  (List.range (count - 1)).all (fun i =>
    s.rdNat (rangeAt base i) 8 + s.rdNat (rangeAt base i + 16) 4 * 4096 ≤ s.rdNat (rangeAt base (i + 1)) 8)

/-! ### CTX_CREATE and REBASE -/

/-- CTX_CREATE (R316): the arguments are checked, then its table is read and checked. -/
def State.ctxCreate (s : State) : State :=
  s.trCommand (fun s =>
    let a := (s.rd .TR_ARG0).toNat
    let id := a % 256
    let field := a / 2 ^ 8 % 16
    let keyslot := a / 2 ^ 16 % 256
    let function := a / 2 ^ 24 % 64
    let count := (s.rd .TR_ARG2).toNat
    let used := id + field * 2 ^ 8 + keyslot * 2 ^ 16 + function * 2 ^ 24
    let free := (List.range 255).find? (fun n => !s.ctxValid (BitVec.ofNat 8 (n + 1)))
    if a != used || count == 0 || 4096 < count then s.trResult 2
    else
      match (if id == 0 then free.map (· + 1) else some id) with
      | none => s.trResult 3
      | some n =>
        if s.ctxValid (BitVec.ofNat 8 n) then s.trResult 4
        else if s.createFieldBad field keyslot function then s.trResult 10
        else s.trRun (.create (BitVec.ofNat 8 n) field keyslot function (s.rd .TR_ARG1) count))

def execCtxCreate (s : State) : Host.Outcome State Fault Refusal := s.commit (fun s => s.ctxCreate)

/-- REBASE (R326). -/
def State.rebase (s : State) : State :=
  s.trCommand (fun s =>
    let count := (s.rd .TR_ARG2).toNat
    if (s.rd .TR_ARG0).toNat ≥ 256 || s.argCtxBad || count == 0 || 4096 < count then s.trResult 2
    else s.trRun (.rebase s.argCtx (s.rd .TR_ARG1) count))

def execRebase (s : State) : Host.Outcome State Fault Refusal := s.commit (fun s => s.rebase)

/-- Every range cache and slot cache of the block is changed (R322, R336). -/
def State.mapCaches (s : State) (f : List RCEntry → List RCEntry) : State :=
  { s with
    tiles := s.tiles.map (fun x => { x with rcV := f x.rcV, rcS := f x.rcS })
    eslots := s.eslots.map (fun x => { x with rc := f x.rc })
    heads := { s.heads with rc := f s.heads.rc }
    boot := { s.boot with rcRider := f s.boot.rcRider } }

/-- A context's table: where it lies and how many entries it has (R316, R326). -/
def State.setTable (s : State) (c : Byte) (base : Word64) (count : Nat) : State :=
  (s.setFld (.CTX_ENTRY0 c.toNat) F.CTX_ENTRY0_RT_BASE (base.toNat / 4096)).setFld
    (.CTX_ENTRY1 c.toNat) F.CTX_ENTRY1_RT_COUNT count

/-- TABLE_CHECK_DONE (R316, R319, R326): the table is well formed, or the command fails with BAD_TABLE. -/
def execTableCheckDone (s : State) : Host.Outcome State Fault Refusal :=
  s.commit (fun s =>
    match s.xl.run with
    | some (.create c field keyslot function base count) =>
      if s.tableOk base count then
        let r := Reg.CTX_ENTRY1 c.toNat
        let s := (((s.setFld r F.CTX_ENTRY1_VALID 1).setFld r F.CTX_ENTRY1_FIELD field).setFld
          r F.CTX_ENTRY1_KEYSLOT keyslot).setFld r F.CTX_ENTRY1_FUNCTION function
        ((s.setTable c base count).setFld .TR_STATUS F.TR_STATUS_ID c.toNat).trResult 0
      else s.trResult 6
    | some (.rebase c base count) =>
      if s.tableOk base count then
        ((s.setTable c base count).mapCaches (fun rc => rc.filter (fun e => e.ctx != c || e.pinned))).trResult 0
      else s.trResult 6
    | _ => s)

/-! ### Withdrawal (R336 to R338) -/

/-- The valid entries of a context that intersect a span of its address space, with their indices. -/
def State.rangesIn (s : State) (c : Byte) (lo hi : Nat) : List (Nat × RCEntry) :=
  ((List.range (s.fld (.CTX_ENTRY1 c.toNat) F.CTX_ENTRY1_RT_COUNT)).map (fun i => (i, s.rangeEntry c i))).filterMap
    (fun x => if x.2.2 && x.2.1.vstart < hi && lo < x.2.1.vstart + x.2.1.pages * 4096 then some (x.1, x.2.1) else none)

/-- A target lies where one of the withdrawn entries leads. -/
def oldTarget (es : List RCEntry) (t : Target) : Bool :=
  es.any (fun e => e.cls == t.cls && e.pstart ≤ t.addr && t.addr < e.pstart + e.pages * 4096)

/-- A write toward the host that is not a core's or a channel's own record. -/
def HostSrc.ofUnit : HostSrc → Bool
  | .head _ _ => true
  | .engine _ => true
  | .rider _ => true
  | _ => false

/-- The target of a write toward the host. -/
def HostWr.target (w : HostWr) : Target :=
  ⟨if w.peer then .peer else if w.port.val == 0 then .host0 else .host1, w.addr, .normal⟩

/-- Writes in flight of a core that lie in a line. -/
def Core.lineWrites (c : Core) (tgt : Target) : List Nat :=
  (((List.finRange 32).filterMap c.group).flatMap (fun g => g.writes) ++ c.orphans).filterMap (fun w =>
    if !w.performed && w.tgt.cls == tgt.cls && w.tgt.addr / 64 == tgt.addr / 64 then some w.id else none)

/-- The accesses of a context in flight under entries (R336 step 5). -/
def State.oldAccesses (s : State) (c : Byte) (es : List RCEntry) : List OldAccess :=
  let load (t : TileId) (q : CoreId) (l : PendLoad) : List OldAccess :=
    if l.ctx == c && l.lanes.any (fun x => x.val.isNone && oldTarget es x.tgt) then [.load t q l.id] else []
  let write (t : TileId) (q : CoreId) (w : PendWrite) : List OldAccess :=
    if w.ctx == c && !w.performed && oldTarget es w.tgt then [.write t q w.id] else []
  let core (t : TileId) (q : CoreId) : List OldAccess :=
    let x := s.core t q
    let gs := (List.finRange 32).filterMap x.group
    gs.flatMap (fun g => g.loads.flatMap (load t q) ++ g.writes.flatMap (write t q)) ++
      x.orphans.flatMap (write t q) ++ x.orphanLoads.flatMap (load t q)
  let chan (t : TileId) (n : ChanId) : List OldAccess :=
    ((s.chan t n).flight.filter (fun m => m.ctx == c && !m.performed &&
      ((m.src.any (fun a => !m.arrived && oldTarget es a)) || m.dst.any (oldTarget es)))).map (fun m => .move t n m.id)
  let engine (e : EngineId) : List OldAccess :=
    ((s.eslots[e.val]'(e.isLt)).reqs.filter (fun r => r.ctx == c)).map (fun r => .engine e r.tag)
  let merge (t : TileId) (q : CoreId) : List OldAccess :=
    ((s.core t q).merge.filter (fun e => e.ctx == c && oldTarget es e.tgt)).map (fun e => .merge t q e.tgt)
  let units : List OldAccess := (s.heads.writes.filter (fun w => w.ctx == c && oldTarget es w.tgt)).map (fun w => .unit w.tag)
  let hosts : List OldAccess := (s.hostWrites.filter (fun w => w.ctx == c && w.src.ofUnit && oldTarget es w.target)).map (fun w => .host w.id)
  units ++ hosts ++ (List.finRange 48).flatMap (fun t => (List.finRange 4).flatMap (merge t)) ++
    (List.finRange 48).flatMap (fun t => (List.finRange 4).flatMap (core t) ++ (List.finRange 8).flatMap (chan t)) ++
    (List.finRange 16).flatMap engine

/-- An access is still in flight. -/
def State.stillOld (s : State) : OldAccess → Bool
  | .load t q id => ((s.core t q).findLoad id).any (fun x => !x.2.complete)
  | .write t q id => ((s.core t q).findWrite id).any (fun x => !x.2.performed)
  | .move t n id => ((s.chan t n).move id).any (fun m => !m.performed)
  | .engine e tag => (s.eslots[e.val]'(e.isLt)).reqs.any (fun r => r.tag == tag)
  | .merge t q tgt => (s.core t q).merge.any (fun e => e.tgt == tgt) || (s.core t q).lineWrites tgt != []
  | .unit tag => s.heads.writes.any (fun w => w.tag == tag)
  | .host id => s.hostWrites.any (fun w => w.id == id)

/-- An ATS Invalidate Request for len bytes of a context's address space goes to a slot; a slot without an engine owes nothing (R336, R481). -/
def State.invalidateEngine (s : State) (e : EngineId) (c : Byte) (lo len : Nat) (unbind : Bool) : State :=
  if s.esState e == 2 || s.esState e == 3 then
    (s.updEslot e (fun x => { x with owes := x.owes ++ [(c, unbind)] })).emit (.engine e (.invalidate c lo len))
  else s

/-- Entries of a context are withdrawn: V cleared in memory, every copy dropped, queued pieces tagged, engines told (R336
steps 1 to 4). -/
def State.withdraw (s : State) (c : Byte) (lo len : Nat) (es : List (Nat × RCEntry)) : State :=
  let base := localOf (s.fld (.CTX_ENTRY0 c.toNat) F.CTX_ENTRY0_RT_BASE * 4096)
  let s := es.foldl (fun s x =>
    let a := base + 32 * x.1 + 21
    s.wrByte a (s.rdByte a &&& 0xDF#8)) s
  let gone := es.map (fun x => x.2)
  let s := s.mapCaches (fun rc => rc.filter (fun e => !(e.ctx == c && gone.any (fun g => g.vstart == e.vstart))))
  let s := { s with tiles := s.tiles.map (fun x => { x with chans := x.chans.map (fun k =>
    if k.todo.any (fun m => m.ctx == c && (m.src.any (oldTarget gone) || m.dst.any (oldTarget gone))) then
      { k with tagged := true }
    else k) }) }
  (List.finRange 16).foldl (fun s e => if s.bound e c then s.invalidateEngine e c lo len false else s) s

/-- A pinned copy of one of the entries is held somewhere (R338). -/
def State.pinnedCopy (s : State) (c : Byte) (es : List (Nat × RCEntry)) : Bool :=
  let hit (rc : List RCEntry) : Bool := rc.any (fun e => e.pinned && e.ctx == c && es.any (fun x => x.2.vstart == e.vstart))
  s.tiles.toList.any (fun x => hit x.rcV || hit x.rcS)

/-- UNMAP (R336, R338). -/
def State.unmap (s : State) : State :=
  s.trCommand (fun s =>
    let va := (s.rd .TR_ARG1).toNat
    let len := (s.rd .TR_ARG2).toNat
    if (s.rd .TR_ARG0).toNat ≥ 256 || s.argCtxBad || va % 4096 != 0 || len % 4096 != 0 then s.trResult 2
    else
      let c := s.argCtx
      let es := s.rangesIn c va (va + len)
      if len == 0 || es.isEmpty then s.trResult 0
      else if s.rotState != 0 && s.pinnedCopy c es then s.trResult 7
      else
        let old := s.oldAccesses c (es.map (fun x => x.2))
        (s.withdraw c va len es).trRun (.unmap c old))

def execUnmap (s : State) : Host.Outcome State Fault Refusal := s.commit (fun s => s.unmap)

/-! ### Fault records (R327 to R331) -/

/-- Room for a fault record: the queue is enabled and not full, a pending entry is free, and its port takes writes (R327,
R344). -/
def State.faultRoom (s : State) : Bool :=
  s.fld .FQ_CTRL F.FQ_CTRL_ENABLE == 1 && s.xl.faults.length < 4096 &&
  (s.fld .FQ_TAIL F.FQ_TAIL_INDEX + 1) % 4096 != s.fld .FQ_HEAD F.FQ_HEAD_INDEX &&
  s.portOk ⟨s.fld .FQ_CTRL F.FQ_CTRL_PORT % 2, Nat.mod_lt _ (by decide)⟩ 0 false

/-- KIND, SOURCE, LAYER and OPERATOR of a record (R328). -/
def State.faultSource (s : State) (who : Walker) : Nat × Nat × Nat × Nat :=
  match who with
  | .group g =>
    let tag := match (s.tile g.tile).kernel with
      | some k => (k.layer.toNat, k.operator.toNat)
      | none => (0, 0)
    (0, g.tile.val + 64 * g.core.val + 256 * g.slot.val, tag.1, tag.2)
  | .channel t c => (1, t.val + 256 * c.val, 0, 0)
  | .engine e => (2, e.val, 0, 0)

/-- The 32 bytes of a fault record (R328). -/
def State.faultRecord (s : State) (who : Walker) (c : Byte) (va : Word64) (access : BitVec 4) (id : Nat) : List Byte :=
  let x := s.faultSource who
  leBytes 8 va.toNat ++ [c] ++ leBytes 1 x.1 ++ leBytes 1 access.toNat ++ [0] ++ leBytes 2 id ++ leBytes 2 x.2.1 ++
  leBytes 8 s.timestamp.toNat ++ leBytes 2 x.2.2.1 ++ leBytes 2 x.2.2.2 ++ [0, 0, 0] ++
  leBytes 1 (if s.xl.fqPhase then 128 else 0)

/-- A pending fault that a fault joins (R327). -/
def State.joins (s : State) (c : Byte) (va : Word64) (access : BitVec 4) : Option PendFault :=
  s.xl.faults.find? (fun f => f.ctx == c && f.page == va.toNat / 2 ^ 16 && access &&& f.access == access)

/-- A fault is posted or joins a pending one; none is the answer where it finds no room (R327, R328). -/
def State.tryFault (s : State) (who : Walker) (c : Byte) (va : Word64) (access : BitVec 4) : Option (Nat × State) :=
  match s.joins c va access with
  | some f =>
    some (f.id, s.setFaults (s.xl.faults.map (fun x => if x.id == f.id then { x with waiters := x.waiters ++ [(who, va, access)] } else x))
      s.xl.refused)
  | none =>
    if s.faultRoom then
      let id := ((List.range 4096).find? (fun n => !s.xl.faults.any (fun f => f.id == n))).getD 0
      let tail := s.fld .FQ_TAIL F.FQ_TAIL_INDEX
      let base := (s.rd .FQ_BASE).toNat / 4096 * 4096 + 32 * tail
      let rec_ := s.faultRecord who c va access id
      let s := s.hostSend ⟨s.fld .FQ_CTRL F.FQ_CTRL_PORT % 2, Nat.mod_lt _ (by decide)⟩ 0 .block
        (rec_.mapIdx (fun i b => (base + i, b)))
      let s := s.setFaults (s.xl.faults ++ [⟨id, c, va.toNat / 2 ^ 16, access, [(who, va, access)]⟩]) s.xl.refused
      let s := s.setFld .FQ_TAIL F.FQ_TAIL_INDEX ((tail + 1) % 4096)
      let s := if tail == 4095 then { s with xl := { s.xl with fqPhase := !s.xl.fqPhase } } else s
      some (id, s.notify (s.fld .FQ_CTRL F.FQ_CTRL_VECTOR))
    else none

/-- The place of a requester among refusals of one FCLK (R329). -/
def walkerRank : Walker → Nat
  | .group g => 4096 * g.tile.val + 64 * g.core.val + g.slot.val
  | .channel t c => 4096 * t.val + 64 * c.val
  | .engine e => 4096 * 48 + e.val

/-- A fault that finds no room is counted and remembered (R329). -/
def State.refuseFault (s : State) (who : Walker) (c : Byte) (va : Word64) (access : BitVec 4) : State :=
  let first := s.xl.refused.isEmpty
  let r : RefusedFault := ⟨who, c, va, access, s.rd .TB_RAW⟩
  let key (x : RefusedFault) : Nat := x.since.toNat * 2 ^ 20 + walkerRank x.who
  let s := (s.countUp .FQ_OVERFLOW F.FQ_OVERFLOW_COUNT).setFaults s.xl.faults
    (s.xl.refused.filter (fun x => key x ≤ key r) ++ [r] ++ s.xl.refused.filter (fun x => key r < key x))
  if first then s.wmEvent 124 [] none else s

/-- What a requester does once its fault is posted (R147, R208). -/
def State.faultHeld (s : State) (who : Walker) (id : Nat) : State :=
  match who with
  | .group g => s.updGroup g (fun gr =>
      match gr.wait with
      | some (.walk va acc w) => { gr with wait := some (.fault id va acc w) }
      | some (.refusedFault va acc w) => { gr with wait := some (.fault id va acc w) }
      | _ => gr)
  | .channel t c => s.updChan t c (fun x => { x with fault := some id, refused := false })
  | .engine _ => s

/-- A requester's fault: it is posted and waited for, or remembered with its requester stalled. -/
def State.postFault (s : State) (who : Walker) (c : Byte) (va : Word64) (access : BitVec 4) : State :=
  match s.tryFault who c va access with
  | some (id, s) => s.faultHeld who id
  | none =>
    let s := s.refuseFault who c va access
    match who with
    | .group g => s.updGroup g (fun gr =>
        match gr.wait with
        | some (.walk va acc w) => { gr with wait := some (.refusedFault va acc w) }
        | _ => gr)
    | .channel t n => s.updChan t n (fun x => { x with refused := true })
    | .engine _ => s

/-- REFUSED_FAULT_POST (R329): the remembered faults that find room are posted, oldest first. -/
def execRefusedFaultPost (s : State) : Host.Outcome State Fault Refusal :=
  s.commit (fun s =>
    let go (x : State × Bool) (r : RefusedFault) : State × Bool :=
      if x.2 then x
      else
        match x.1.tryFault r.who r.ctx r.va r.access with
        | some (id, s) => ((s.setFaults s.xl.faults (s.xl.refused.filter (· != r))).faultHeld r.who id, false)
        | none => (x.1, true)
    (s.xl.refused.foldl go (s, false)).1)

/-- The exception of a group whose fault is aborted: the aligned threads that no range serves fail (R177, R178, R330). -/
def State.abortGroup (s : State) (g : GroupId) : State :=
  match s.group g, (s.tile g.tile).kernel with
  | some gr, some k =>
    match gr.wait with
    | some (.fault _ va acc w) =>
      let fetch := acc == accX
      let kind : MKind := if acc == accW then .store else if acc == accA then .atomic else .load
      let m := if fetch then gr.mask
        else maskOf (fun i =>
          let a := (mAddress gr w .virt kind i).toNat
          (gr.taking w).getLsbD i && a % szBytes (mSZ w) == 0 && (s.rangeWalk k.ctx a).isNone)
      s.takeException g gr k
        { code := Exc.ACC_TRANSLATION, cause := 0, fetch := fetch, write := kind != .load && !fetch
          atomic := acc == accA, pc := gr.pc, addr := va, failMask := m, active := gr.mask, word := w }
    | _ => s
  | _, _ => s

/-- A waiting requester of a completed fault goes on (R330): a group's access is translated again, and the group is ready when
that check completes (R147). -/
def State.faultDone (s : State) (retry : Bool) (who : Walker) : State :=
  match who with
  | .group g =>
    if retry then
      match s.group g, (s.tile g.tile).kernel with
      | some gr, some k =>
        match gr.wait with
        | some (.fault _ va acc w) =>
          if (rcLookup (s.tile g.tile).rcV k.sched k.ctx va.toNat).isSome then s.readyGroup g
          else s.updGroup g (fun x => { x with wait := some (.walk va acc w) })
        | _ => s
      | _, _ => s
    else s.abortGroup g
  | .channel t c =>
    let off := (s.chan t c).next
    if retry then
      (s.updChan t c (fun x =>
        { x with
          fault := none, enq := 0, todo := [], tagged := false
          flight := x.flight.filter (fun m => m.role != .first && m.role != .second) })).setFld
        (.SL_STATUS t.val c.val) F.SL_STATUS_STATE 1
    else s.chanStop t c off Sl.TRANSLATION (BitVec.ofNat 8 (s.fld (.SL_STATUS t.val c.val) F.SL_STATUS_CTX))
  | .engine e => s.emit (.engine e (if retry then .prgSuccess else .prgInvalid))

/-- A pending fault completes (R330). -/
def State.endFault (s : State) (f : PendFault) (retry : Bool) : State :=
  f.waiters.foldl (fun s w => s.faultDone retry w.1)
    (s.setFaults (s.xl.faults.filter (fun x => x.id != f.id)) s.xl.refused)

/-- A write of FQ_RESUME (R330). -/
def State.fqResume (s : State) (id : Nat) (retry : Bool) : State :=
  match s.xl.faults.find? (fun f => f.id == id) with
  | some f => s.endFault f retry
  | none => s.setFld .FQ_STATUS F.FQ_STATUS_BAD_RESUME 1

def execFaultRetry (id : BitVec 12) (s : State) : Host.Outcome State Fault Refusal :=
  s.commit (fun s => s.fqResume id.toNat true)

def execFaultAbort (id : BitVec 12) (s : State) : Host.Outcome State Fault Refusal :=
  s.commit (fun s => s.fqResume id.toNat false)

/-- The pending faults of contexts are completed as ABORT, and remembered refusals with them (R317, R432). -/
def State.abortFaults (s : State) (p : Byte → Bool) : State :=
  let s := (s.xl.faults.filter (fun f => p f.ctx)).foldl (fun s f => s.endFault f false) s
  let rs := s.xl.refused.filter (fun r => p r.ctx)
  let s := s.setFaults s.xl.faults (s.xl.refused.filter (fun r => !p r.ctx))
  rs.foldl (fun s r => (s.faultHeld r.who 0).faultDone false r.who) s

/-- A write of FQ_CTRL or of HL_CTRL: enabling the ring restarts it (R344). -/
def State.fqWrite (s : State) (hotList : Bool) (v : Word32) : State :=
  let w : Word64 := v.setWidth 64 &&& 0xC00007FF#64
  if hotList then
    let s := s.wr .HL_CTRL w
    if v.getLsbD 31 then
      { ((s.setFld .HL_TAIL F.HL_TAIL_INDEX 0).setFld .HL_HEAD F.HL_HEAD_INDEX 0) with xl := { s.xl with hlPhase := true } }
    else s
  else
    let s := s.wr .FQ_CTRL w
    if v.getLsbD 31 then
      { ((s.setFld .FQ_TAIL F.FQ_TAIL_INDEX 0).setFld .FQ_HEAD F.FQ_HEAD_INDEX 0) with xl := { s.xl with fqPhase := true } }
    else s

/-- FQ_ENABLE (R344). -/
def execFqEnable (hotList : Bool) (v : Word32) (s : State) : Host.Outcome State Fault Refusal :=
  s.commit (fun s => s.fqWrite hotList v)

/-- HOT_LIST_POST (R332, R333): a page whose count has reached the threshold is posted and its count restarts; a full ring
drops the record and counts it, a disabled one drops it. -/
def execHotListPost (ctx : Byte) (page : BitVec 48) (s : State) : Host.Outcome State Fault Refusal :=
  s.commit (fun s =>
    let thresh := s.fld .AC_CTRL F.AC_CTRL_THRESH
    let hit (e : AccCount) : Bool := e.ctx == ctx && e.page == page.toNat
    if thresh == 0 || !s.accCounts.any (fun e => hit e && thresh ≤ e.count) then s
    else
      let s := { s with accCounts := s.accCounts.map (fun e => if hit e then { e with count := 0 } else e) }
      let tail := s.fld .HL_TAIL F.HL_TAIL_INDEX
      if s.fld .HL_CTRL F.HL_CTRL_ENABLE == 0 then s
      else if (tail + 1) % 1024 == s.fld .HL_HEAD F.HL_HEAD_INDEX % 1024 then s.countUp .HL_DROP F.HL_DROP_COUNT
      else
        let base := (s.rd .HL_BASE).toNat / 4096 * 4096 + 16 * tail
        let word := page.toNat * 2 ^ 16 + ctx.toNat * 256 + (if s.xl.hlPhase then 1 else 0)
        let s := s.hostSend ⟨s.fld .FQ_CTRL F.FQ_CTRL_PORT % 2, Nat.mod_lt _ (by decide)⟩ 0 .block
          ((leBytes 8 word ++ leBytes 8 s.timestamp.toNat).mapIdx (fun i b => (base + i, b)))
        let s := s.setFld .HL_TAIL F.HL_TAIL_INDEX ((tail + 1) % 1024)
        let s := if tail == 1023 then { s with xl := { s.xl with hlPhase := !s.xl.hlPhase } } else s
        s.notify (s.fld .HL_CTRL F.HL_CTRL_VECTOR))

/-! ### The end of a withdrawal, and CTX_DESTROY (R317, R337) -/

/-- Some byte of a table entry's owner field names the context: only listed bytes can (R317). -/
def State.ownsSome (s : State) (c : Byte) : Bool :=
  let base := s.otBase
  let at_ (a : Nat) : Bool := base ≤ a && a < base + 5374272 && (a - base) % 4 == 0 && s.rdByte a == c
  s.mem.any (fun x => at_ x.1) || s.journal.any (fun x => at_ x.1) ||
    s.home.resv.any (fun l => (List.range 16).any (fun i => at_ (l.addr + 4 * i)))

/-- What keeps a context from being destroyed (R317, R472). -/
def State.ctxInUse (s : State) (c : Byte) : Bool :=
  s.ownsSome c ||
  s.tiles.toList.any (fun x => (x.rcV ++ x.rcS).any (fun e => e.pinned && e.ctx == c) || x.kernel.any (fun k => k.ctx == c)) ||
  (List.finRange 48).any (fun t => (List.finRange 8).any (fun n =>
    s.chanState t n.val != 0 && s.fld (.SL_STATUS t.val n.val) F.SL_STATUS_CTX == c.toNat)) ||
  (List.finRange 16).any (fun e => s.bound e c)

/-- CTX_DESTROY (R317): the whole address space is withdrawn first. -/
def State.ctxDestroy (s : State) : State :=
  s.trCommand (fun s =>
    let c := s.argCtx
    if (s.rd .TR_ARG0).toNat ≥ 256 || s.argCtxBad || s.rd .TR_ARG1 != 0 || s.rd .TR_ARG2 != 0 then s.trResult 2
    else if s.ctxInUse c then s.trResult 5
    else
      let es := s.rangesIn c 0 (2 ^ 64)
      let old := s.oldAccesses c (es.map (fun x => x.2))
      (s.withdraw c 0 (2 ^ 64) es).trRun (.destroy c old))

def execCtxDestroy (s : State) : Host.Outcome State Fault Refusal := s.commit (fun s => s.ctxDestroy)

/-- A context is freed once its space is withdrawn (R317 steps 2 to 4, R432). -/
def State.freeCtx (s : State) (c : Byte) : State :=
  let s := (s.abortFaults (· == c)).mapCaches (fun rc => rc.filter (fun e => e.ctx != c))
  let s := { s with accCounts := s.accCounts.filter (fun e => e.ctx != c) }
  ((s.wr (.CTX_ENTRY0 c.toNat) 0).wr (.CTX_ENTRY1 c.toNat) 0).setRevoked c false

/-- Nothing of a withdrawal is left to wait for (R336 step 5). -/
def State.drained (s : State) (c : Byte) (left : List OldAccess) : Bool :=
  !left.any s.stillOld && !s.eslots.toList.any (fun x => x.owes.contains (c, false))

/-- UNMAP_DRAIN_DONE (R317, R336). -/
def execUnmapDrainDone (s : State) : Host.Outcome State Fault Refusal :=
  s.commit (fun s =>
    match s.xl.run with
    | some (.unmap c left) => if s.drained c left then s.trResult 0 else s
    | some (.destroy c left) => if s.drained c left then (s.freeCtx c).trResult 0 else s
    | _ => s)

/-- One access is aborted (R337). -/
def State.abortAccess (s : State) (a : OldAccess) : State :=
  if !s.stillOld a then s
  else
    match a with
    | .load t q id => s.refuseLoad t q id 3 none
    | .write t q id => s.refuseWrite t q id 3
    | .move t n id =>
      match (s.chan t n).move id with
      | some m => (s.moveFail t n m Sl.UNMAPPED).leaveFaults (· == .channel t n)
      | none => s
    | .engine e tag => s.updEslot e (fun x => { x with reqs := x.reqs.filter (fun r => r.tag != tag) })
    | .merge t q tgt =>
      let s := ((s.core t q).merge.filter (fun e => e.tgt == tgt)).foldl (fun s e =>
        (s.updCore t q (fun x => { x with merge := x.merge.erase e })).reportStore t q e.slots.head? e.late 3) s
      ((s.core t q).lineWrites tgt).foldl (fun s id => s.refuseWrite t q id 3) s
    | .unit tag =>
      match s.heads.writes.find? (fun w => w.tag == tag) with
      | some w => ({ s with heads := { s.heads with writes := s.heads.writes.erase w } }).unitFail w.head w.slot 0x0C
      | none => s
    | .host id =>
      match s.hostWrites.find? (fun w => w.id == id) with
      | some w =>
        let s := { s with hostWrites := s.hostWrites.filter (fun x => x.id != id) }
        match w.src with
        | .head h slot => s.unitFail h.val slot 0x0C
        | _ => s
      | none => s

/-- Invalidations of a context that engines still owe end: the engine loses its translated accesses, and the slot refuses the context from here on (R337). -/
def State.atsTimeout (s : State) (c : Byte) (unbind : Bool) : State :=
  (List.finRange 16).foldl (fun s e =>
    if (s.eslot e).owes.contains (c, unbind) then
      let s := s.updEslot e (fun x =>
        { x with
          owes := x.owes.filter (· != (c, unbind)), atsRefused := c :: x.atsRefused.erase c
          reqs := x.reqs.filter (fun r => !(r.translated && r.ctx == c)) })
      (s.setFld (.ES_STATUS e.val) F.ES_STATUS_ATS_TMO 1).wmEvent 122 [] (some e.val)
    else s) s

/-- Bindings whose withdrawal an engine still owes end (R472). -/
def State.unbindTimeout (s : State) : State :=
  (List.finRange 16).foldl (fun s e =>
    ((s.eslot e).owes.filter (fun x => x.2)).foldl (fun s x => (s.atsTimeout x.1 true).setBound e x.1 false) s) s

/-- UNMAP_TIMEOUT (R337): what remains is aborted and the command completes with ABORTED; with no command of the unit running,
the bound ends the withdrawals of bindings (R472). -/
def State.unmapTimeout (s : State) : State :=
  let abort (s : State) (c : Byte) (left : List OldAccess) : State :=
    ((left.foldl State.abortAccess s).atsTimeout c false).wmEvent 128 [] none
  match s.xl.run with
  | some (.unmap c left) => if s.drained c left then s else (abort s c left).trResult 12
  | some (.destroy c left) => if s.drained c left then s else ((abort s c left).freeCtx c).trResult 12
  | _ => s.unbindTimeout

/-! ### PIN and UNPIN (R323) -/

/-- The cache that a PIN or UNPIN names, changed. -/
def State.updRc (s : State) (t : TileId) (sluice : Bool) (f : List RCEntry → List RCEntry) : State :=
  s.updTile t (fun x => if sluice then { x with rcS := f x.rcS } else { x with rcV := f x.rcV })

/-- The arguments of PIN and UNPIN are wrong (R343). -/
def State.pinArgBad (s : State) : Bool :=
  (s.rd .TR_ARG0).toNat ≥ 2 ^ 15 || s.argCtxBad || 48 ≤ (s.rd .TR_ARG0).toNat / 256 % 64 || s.rd .TR_ARG2 != 0

def State.pinTile (s : State) : TileId := ⟨(s.rd .TR_ARG0).toNat / 256 % 64 % 48, Nat.mod_lt _ (by decide)⟩

def State.pin (s : State) : State :=
  s.trCommand (fun s =>
    let sluice := (s.rd .TR_ARG0).getLsbD 14
    let x := s.tile s.pinTile
    let rc := if sluice then x.rcS else x.rcV
    if s.pinArgBad then s.trResult 2
    else if 48 ≤ (rc.filter (fun e => e.pinned)).length then s.trResult 8
    else
      match s.rangeWalk s.argCtx (s.rd .TR_ARG1).toNat with
      | none => s.trResult 9
      | some e =>
        if e.cls != .localMem then s.trResult 2
        else
          let e := { e with pinned := true }
          (s.updRc s.pinTile sluice (fun rc => rcFill (rc.filter (fun x => !(x.ctx == e.ctx && x.vstart == e.vstart))) e)).trResult 0)

def execPin (s : State) : Host.Outcome State Fault Refusal := s.commit (fun s => s.pin)

def State.unpin (s : State) : State :=
  s.trCommand (fun s =>
    if s.pinArgBad then s.trResult 2
    else
      (s.updRc s.pinTile ((s.rd .TR_ARG0).getLsbD 14) (fun rc =>
        rc.filter (fun e => !(e.pinned && e.covers s.argCtx (s.rd .TR_ARG1).toNat)))).trResult 0)

def execUnpin (s : State) : Host.Outcome State Fault Refusal := s.commit (fun s => s.unpin)

/-! ### OWN (R342) -/

/-- A word of the owner table written. -/
def State.setOwnerEntry (s : State) (e v : Nat) : State := s.wrBytes (s.otBase + 4 * e) (leBytes 4 v)

def inRegion (region a : Nat) : Bool := region ≤ a && a < region + 0x200000

/-- Reservoir lines of a region are discarded without being written back, and its holders back-invalidated (R342 step 3). -/
def State.clearRegion (s : State) (region : Nat) : State :=
  ((s.home.resv.filter (fun l => inRegion region l.addr)).foldl (fun s l => s.resvDrop l false) s).backInvalidate
    (inRegion region) (fun _ => true)

/-- The next region of an OWN begins: CHANGING is set (R342 step 1). -/
def State.ownBegin (s : State) (region : Nat) : State :=
  match ownerIndex region with
  | some e => s.setOwnerEntry e (s.ownerEntry e % 512 + 512)
  | none => s

/-- A request that has passed the check of a region has not completed (R342 step 2). -/
def State.regionBusy (s : State) (region : Nat) : Bool :=
  let at_ (m : CohMsg) : Bool := inRegion region (localOf m.line)
  s.home.txns.any (fun x => inRegion region x.line && x.req.isSome) || s.home.retry.any at_ ||
    s.home.flips.any (fun f => f.host.any at_ || f.waiting.any at_) ||
    s.home.tierOps.any (fun o => inRegion region o.line) || s.home.refills.any (fun r => inRegion region r.line)

/-- A culvert move or disable is over: host requests that waited in their ports, by their offset in the window, are released
(R417, R418). -/
def State.endCulvertMove (s : State) : State :=
  if s.home.culvert.isSome then
    let base := s.chipId * 2 ^ 43 + s.fld .CUL_BASE F.CUL_BASE_GIB * 2 ^ 30
    let ms := s.hostWait.map (fun (m : CohMsg) => { m with addr := BitVec.ofNat 64 (base + m.addr.toNat) })
    let s := (s.updHome (fun h => { h with culvert := none })).setFld .CUL_STATUS F.CUL_STATUS_BUSY 0
    ms.foldl (fun s m => s.hostRequest m) { s with hostWait := [] }
  else s

/-- The regions of an OWN, by local address. -/
def ownRegions (a n : Nat) : List Nat := (List.range n).map (fun i => a + i * 0x200000)

/-- The cause for which OWN is refused; 0 for none (R342). -/
def State.ownRefusal (s : State) (owner : Byte) (a n : Nat) : Nat :=
  let region (r : Nat) : Bool := (ownerIndex r).isSome && s.backed r && s.backed (r + 0x1FFFFF) && !s.inOwnerTable r
  if a % 0x200000 != 0 || n == 0 || 2 ^ 21 < n || !(ownRegions a n).all region then 2
  else if owner != 0 && (ownRegions a n).any (fun r => s.regionField ((ownerIndex r).getD 0) != s.ctxField owner) then 10
  else if (ownRegions a n).any (fun r => r < 0x9000000000 &&
      (List.range 32).any (fun g => s.rotLocked (r + g * 0x10000))) then 11
  else 0

def State.own (s : State) : State :=
  s.trCommand (fun s =>
    let owner := s.argCtx
    let a := (s.rd .TR_ARG1).toNat
    let n := (s.rd .TR_ARG2).toNat
    if (s.rd .TR_ARG0).toNat ≥ 512 || !s.ctxValid owner then s.trResult 2
    else
      match s.ownRefusal owner a n with
      | 0 => (s.endCulvertMove.trRun (.own owner ((s.rd .TR_ARG0).getLsbD 8) a n)).ownBegin a
      | r => s.trResult r)

def execOwn (s : State) : Host.Outcome State Fault Refusal := s.commit (fun s => s.own)

/-- OWN_REGION_DONE (R342 steps 2 to 6): once no accepted request of the region is left, its reservoir lines are discarded and its
holders back-invalidated; once nothing of it is held, it is filled with zeros, its entry is
written to the table, the mirrors and the owner caches, CHANGING clears, and the next region begins. -/
def execOwnRegionDone (s : State) : Host.Outcome State Fault Refusal :=
  s.commit (fun s =>
    match s.xl.run with
    | some (.own owner shared region left) =>
      if s.regionBusy region then s
      else if s.home.dir.any (fun d => inRegion region d.line && d.state != .lost) ||
          s.home.txns.any (fun x => inRegion region x.line) then s.clearRegion region
      else
        let s := (s.home.resv.filter (fun l => inRegion region l.addr)).foldl (fun s l => s.resvDrop l false) s
        let s := s.updHome (fun h => { h with dir := h.dir.filter (fun d => !inRegion region d.line) })
        let s := (s.zeroSpan region (region + 0x200000) none).fillTag (region / 64) (region / 64 + 0x8000) none (s.ctxKey owner.toNat)
        let s := match ownerIndex region with
          | some e => s.setOwnerEntry e (owner.toNat + (if shared then 256 else 0))
          | none => s
        if left ≤ 1 then s.trResult 0
        else (s.trRun (.own owner shared (region + 0x200000) (left - 1))).ownBegin (region + 0x200000)
    | _ => s)

end Sys2Proof.Machine
end

