-- ==== Sys2Proof/Machine/Engines.lean ====
section
/-! DEFINITION. Engine slots (R466 to R484): training and admission, bindings, the engine's requests and translations, its
messages, its scheduled requests, PF0's access to its registers, and its loss; and the end of a range walk (R325). -/

namespace Sys2Proof

/-! ### Kinds of request -/

def D2HKind.writes : D2HKind → Bool
  | .itoMWr | .memWr | .wrInv | .woWrInv => true
  | _ => false

def D2HKind.evicts : D2HKind → Bool
  | .cleanEvict | .cleanEvictNoData | .dirtyEvict => true
  | _ => false

/-- The access kinds that a request needs (R321). -/
def D2HKind.access : D2HKind → BitVec 4
  | .rdCurr | .rdShared | .rdAny => Machine.accR
  | .rdOwn | .rdOwnNoData => Machine.accR ||| Machine.accW
  | .itoMWr | .memWr | .wrInv | .woWrInv | .dirtyEvict => Machine.accW
  | .cleanEvict | .cleanEvictNoData => 0

/-- The internal request of a D2H request (R356). -/
def EngineD2H.opc (r : EngineD2H) : Nat :=
  match r.kind with
  | .rdShared | .rdAny => 0x01
  | .rdOwn => 0x02
  | .rdOwnNoData => 0x03
  | .rdCurr => 0x04
  | .itoMWr | .memWr | .wrInv | .woWrInv => if r.byteMask == BitVec.allOnes 64 then 0x05 else 0x06
  | .cleanEvict | .cleanEvictNoData => 0x08
  | .dirtyEvict => 0x09

/-- The bytes that a scheduled request of an engine names: its line, or one 32-byte window of it. -/
def EngineRequest.span (r : EngineRequest) : Nat × Nat :=
  if r.part then (r.laddr.toNat * 256 + 32 * r.win.toNat, 32) else (r.laddr.toNat * 256, 256)

end Sys2Proof

namespace Sys2Proof.Machine

/-! ### The slot's state -/

/-- The descriptor words of R469 are valid. -/
def descValid (d : Vector Word32 4) : Bool :=
  let cls := bitsOf d[0] 7 0
  let caching := bitOf d[0] 8
  let fixed := bitOf d[0] 9
  let turn := bitsOf d[1] 31 16
  let grants := bitsOf d[2] 8 0
  let maxOut := bitsOf d[0] 24 16
  ((1 ≤ cls && cls ≤ 4) || (0x80 ≤ cls && cls ≤ 0xFE)) && bitsOf d[0] 11 10 == 0 && bitsOf d[0] 15 12 != 0 &&
  1 ≤ maxOut && maxOut ≤ 256 && bitsOf d[0] 31 25 == 0 && (caching || bitsOf d[1] 15 0 == 0) &&
  (if fixed then 1 ≤ turn && turn ≤ 255 else turn == 0) &&
  (if fixed then 1 ≤ grants && grants ≤ 360 else grants == 0) && bitsOf d[2] 31 9 == 0

/-- A word of the descriptor that the slot holds. -/
def State.esDesc (s : State) (e : EngineId) (k : Nat) : Word64 := s.rd (.ES_DESC e.val k)

/-- Entry g of the slot's grant table is ISSUE (R479). -/
def State.esIssue (s : State) (e : EngineId) (g : Nat) : Bool :=
  let r := Reg.ES_GRANT e.val (g / 2)
  (if g % 2 == 0 then s.fld r F.ES_GRANT_KIND_LO else s.fld r F.ES_GRANT_KIND_HI) == 1

def State.esSet (s : State) (e : EngineId) (f : Fld) (v : Nat) : State := s.setFld (.ES_STATUS e.val) f v

/-- ES_CTRL.ENABLE (R467, R482). A slot that is taken out of service loses its engine first: its link is no longer
trained. -/
def State.esEnable (s : State) (e : EngineId) (v : Bool) : State :=
  let st := s.esState e
  let s := s.setFld (.ES_CTRL e.val) F.ES_CTRL_ENABLE (if v then 1 else 0)
  if v then (if st == 0 then s.esSet e F.ES_STATUS_STATE 1 else s)
  else (if st == 2 || st == 3 then s.engineLost e false else s).esSet e F.ES_STATUS_STATE 0

/-- ES_ENABLE (R467). -/
def execEsEnable (e : EngineId) (v : Bool) (s : State) : Host.Outcome State Fault Refusal :=
  s.commit (fun s => s.esEnable e v)

/-- ENGINE_TRAINED (R466 to R469): training is complete and the descriptor read, or no flit format is common. -/
def execEngineTrained (e : EngineId) (link : EngineLink) (s : State) : Host.Outcome State Fault Refusal :=
  s.commit (fun s =>
    if s.esState e != 1 then s
    else if !link.formatOk then s.esSet e F.ES_STATUS_ADMIT_ERR 2
    else
      let r := Reg.ES_LINK e.val
      let s := ((s.setFld r F.ES_LINK_RATE link.rate.toNat).setFld r F.ES_LINK_WIDTH (if link.x32 then 1 else 0)).setFld
        r F.ES_LINK_LOPT (if link.lopt then 1 else 0)
      let s := (List.finRange 4).foldl (fun s k =>
        s.wr (.ES_DESC e.val k.val) (if link.descPresent then (link.desc[k]).setWidth 64 else 0)) s
      (s.updEslot e (fun x => { x with descOk := link.descPresent && descValid link.desc })).esSet e F.ES_STATUS_STATE 2)

/-- The cause for which ADMIT is refused, 0 for none (R470). -/
def State.admitRefusal (s : State) (e : EngineId) (powerGranted : Bool) : Nat :=
  let sched := s.fld (.ES_CTRL e.val) F.ES_CTRL_SCHED_REQ == 1
  if s.esState e != 2 then 1
  else if !(s.eslot e).descOk then 2
  else if s.fld (.ES_FIELD e.val) F.ES_FIELD_FIELD == 15 then 3
  else if !powerGranted then 4
  else if sched && !bitOf (s.esDesc e 0) 9 then 5
  else if sched && bitsOf (s.esDesc e 2) 8 0 < ((List.range 360).filter (s.esIssue e)).length then 6
  else 0

/-- An agent becomes live again (R373). -/
def State.agentLives (s : State) (a : Nat) : State :=
  s.wr (.COH_DEAD (a / 32)) (s.rd (.COH_DEAD (a / 32)) &&& ~~~ BitVec.ofNat 64 (2 ^ (a % 32)))

/-- A write of ES_CTRL.ADMIT (R470), with the power manager's answer (R562) and the round trip that the slot measures (R478). -/
def State.esAdmit (s : State) (e : EngineId) (powerGranted : Bool) (rtt : Word16) : State :=
  let err := s.admitRefusal e powerGranted
  let s := s.esSet e F.ES_STATUS_ADMIT_ERR err
  if err != 0 then s
  else
    let s := s.agentLives (56 + e.val)
    let s := if s.fld (.ES_CTRL e.val) F.ES_CTRL_SCHED_REQ == 1 then
        ((((s.emit (.engine e (.ping (s.eslot e).seq))).updEslot e (fun x => { x with seq := x.seq + 1 })).setFld
          (.ES_LAT e.val) F.ES_LAT_RTT rtt.toNat)).esSet e F.ES_STATUS_SCHED 1
      else s
    s.esSet e F.ES_STATUS_STATE 3

/-- The same write where nothing says what the power manager answers and what is measured: both are free values. -/
def State.esAdmitFree (s : State) (e : EngineId) : State :=
  let (n, s) := s.takeFresh
  s.esAdmit e (Config.freeBool n) (BitVec.ofNat 16 (Config.freeBits n 0))

/-- ADMIT (R470). -/
def execEsAdmit (e : EngineId) (powerGranted : Bool) (rtt : Word16) (s : State) : Host.Outcome State Fault Refusal :=
  s.commit (fun s => s.esAdmit e powerGranted rtt)

/-- ES_RESET (R481): the engine is reset over its link and lost. -/
def State.esReset (s : State) (e : EngineId) : State :=
  if s.esState e == 0 then s else (s.emit (.engine e .linkReset)).engineLost e true

def execEsReset (e : EngineId) (s : State) : Host.Outcome State Fault Refusal := s.commit (fun s => s.esReset e)

/-- The slot has an engine: HELD or ADMITTED. -/
def State.esPresent (s : State) (e : EngineId) : Bool := s.esState e == 2 || s.esState e == 3

/-- ENGINE_LOSS (R481): loss of training, or a link error that the adapter's retry does not clear. -/
def execEngineLoss (e : EngineId) (s : State) : Host.Outcome State Fault Refusal :=
  s.commit (fun s => if s.esPresent e then s.engineLost e false else s)

/-- ENGINE_VIRAL_RX (R473). -/
def execEngineViralRx (e : EngineId) (s : State) : Host.Outcome State Fault Refusal :=
  s.commit (fun s => if s.esPresent e then (s.esSet e F.ES_STATUS_VIRAL_RX 1).engineLost e false else s)

/-- ENGINE_POWER_EXCEEDED (R508): a draw above the slot's POWER class. -/
def execEnginePowerExceeded (e : EngineId) (s : State) : Host.Outcome State Fault Refusal :=
  s.commit (fun s => s.wmEvent 123 [] (some e.val))

/-! ### Bindings (R472) -/

/-- A write that binds a context. -/
def State.pasidBind (s : State) (e : EngineId) (c : Byte) : State :=
  if c == 0 || s.bound e c then s
  else if s.ctxField c != s.fld (.ES_FIELD e.val) F.ES_FIELD_FIELD ||
      s.fld (.CTX_ENTRY1 c.toNat) F.CTX_ENTRY1_FUNCTION != s.fld (.ES_BIND e.val) F.ES_BIND_FUNCTION then
    s.esSet e F.ES_STATUS_BIND_ERR 1
  else s.setBound e c true

def execPasidBind (e : EngineId) (ctx : Byte) (s : State) : Host.Outcome State Fault Refusal :=
  s.commit (fun s => s.pasidBind e ctx)

/-- A write that clears a binding: the context is withdrawn from the slot first; a slot without an engine owes nothing. -/
def State.pasidUnbind (s : State) (e : EngineId) (c : Byte) : State :=
  if !s.bound e c || (s.eslot e).owes.contains (c, true) then s
  else
    let s := s.updEslot e (fun x => { x with rc := x.rc.filter (fun y => y.ctx != c) })
    if s.esPresent e then s.invalidateEngine e c 0 (2 ^ 64) true else s.setBound e c false

def execPasidUnbind (e : EngineId) (ctx : Byte) (s : State) : Host.Outcome State Fault Refusal :=
  s.commit (fun s => s.pasidUnbind e ctx)

/-- INVALIDATE_COMPLETION (R336, R472): the engine answers its oldest Invalidate Request. -/
def execInvalidateCompletion (e : EngineId) (s : State) : Host.Outcome State Fault Refusal :=
  s.commit (fun s =>
    match (s.eslot e).owes with
    | [] => s
    | (c, unbind) :: rest =>
      let s := s.updEslot e (fun x =>
        { x with owes := rest, rc := if unbind then x.rc.filter (fun y => y.ctx != c) else x.rc })
      if unbind then s.setBound e c false else s)

/-! ### Requests of the engine (R334, R335, R356, R471, R472) -/

/-- The context that a PASID names, when the slot admits its requests (R335, R337, R432, R472). -/
def State.pasidCtx (s : State) (e : EngineId) (pasid : BitVec 20) : Option Byte :=
  let c : Byte := pasid.setWidth 8
  if 1 ≤ pasid.toNat && pasid.toNat ≤ 255 && s.bound e c && !s.revoked c && !(s.eslot e).atsRefused.contains c then some c
  else none

def State.toEngine (s : State) (e : EngineId) (x : EngineSignal) : State := s.emit (.engine e x)

/-- A request of the engine: an admitted one acts, one of an engine in HELD, in the safe state (R520) or of a context that is not admitted is refused as
Unsupported Request. -/
def State.engineAsks (s : State) (e : EngineId) (pasid : BitVec 20) (act : Byte → State) : State :=
  if s.esState e == 2 || s.safe then s.toEngine e .unsupported
  else if s.esState e != 3 then s
  else
    match s.pasidCtx e pasid with
    | some c => act c
    | none => s.toEngine e .unsupported

/-- The largest naturally aligned block of a range, of at least 4 KiB, that holds an address (R334): its base and size. -/
def rangeBlock (x : RCEntry) (va : Nat) : Nat × Nat :=
  let fits (k : Nat) : Bool := x.vstart ≤ va / 2 ^ k * 2 ^ k && va / 2 ^ k * 2 ^ k + 2 ^ k ≤ x.vstart + x.pages * 4096
  let k := ((List.range 64).filter (fun k => 12 ≤ k && fits k)).getLast?.getD 12
  (va / 2 ^ k * 2 ^ k, 2 ^ k)

/-- ATS_TRANSLATION_REQUEST (R334). -/
def execAtsTranslationRequest (e : EngineId) (pasid : BitVec 20) (va : Word64) (_write : Bool) (s : State) :
    Host.Outcome State Fault Refusal :=
  s.commit (fun s => s.engineAsks e pasid (fun c =>
    match s.rangeWalk c va.toNat with
    | none => s.toEngine e (.translation 0 4096 0 false)
    | some x =>
      match x.cls with
      | .localMem =>
        let (base, size) := rangeBlock x va.toNat
        s.toEngine e (.translation ((x.pstart + (base - x.vstart)) % 2 ^ 52) size (x.perm &&& 7) false)
      | _ => s.toEngine e (.translation (va.toNat / 4096 * 4096) 4096 (x.perm &&& 7) true)))

/-- PAGE_REQUEST (R335): a fault of KIND 2. -/
def execPageRequest (e : EngineId) (pasid : BitVec 20) (va : Word64) (access : BitVec 4) (s : State) :
    Host.Outcome State Fault Refusal :=
  s.commit (fun s => s.engineAsks e pasid (fun c => s.postFault (.engine e) c va access))

/-- An engine's request at a translated device address goes to the line's home. -/
def State.engineCoh (s : State) (e : EngineId) (c : Byte) (r : EngineD2H) (tgt : Target) (translated : Bool) : State :=
  let line := tgt.addr / 64 * 64
  let rs := (s.eslot e).reqs
  let tag : BitVec 12 := BitVec.ofNat 12 (((List.range 4096).find? (fun n => !rs.any (fun q => q.tag.toNat == n))).getD 0)
  let data := if r.kind.writes || r.kind == .dirtyEvict then r.data else []
  let f := s.flit 0 r.opc (BitVec.ofNat 8 (56 + e.val)) (homeAgent (localOf line)) line tag
  (s.updEslot e (fun x => { x with reqs := x.reqs ++ [⟨tag, c, r.kind, line, true, translated⟩] })).emit (.coh
    { f with
      ctx := c, hasData := !data.isEmpty, data := data, byteMask := if r.kind.writes then r.byteMask else 0
      typ := match tgt.typ with
        | .normal => 0
        | .stream => 1
        | .device => 2 })

/-- An engine's request that leads to host memory or to a peer (R334, R419). The host's data passes through the slot. -/
def State.engineHost (s : State) (e : EngineId) (c : Byte) (r : EngineD2H) (tgt : Target) : State :=
  let line := tgt.addr / 64 * 64
  let cells := ((r.data.mapIdx (fun i b => (i, b))).filter (fun x => r.byteMask.getLsbD x.1)).map (fun x => (line + x.1, x.2))
  let host (p : HostPortId) : State :=
    if !s.portOk p c false then s.toEngine e .unsupported
    else if r.kind.writes then s.hostSend p c (.engine e) cells
    else s.emit (.hostRead p line 64)
  match tgt.cls with
  | .host0 => host 0
  | .host1 => host 1
  | .peer =>
    if !s.portOk 0 c true then s.toEngine e .unsupported
    else if r.kind.writes then s.hostSend 0 c (.engine e) cells true
    else s.emit (.peerRead line 64)
  | .localMem => s

/-- An untranslated request meets the slot's range cache (R334): a miss waits for a walk, a refused permission is an Unsupported
Request. -/
def State.engineUntranslated (s : State) (e : EngineId) (c : Byte) (r : EngineD2H) : State :=
  let x := s.translate (s.eslot e).rc false c r.addr r.kind.access
  let s := s.updEslot e (fun y => { y with rc := rcUse y.rc false c r.addr.toNat })
  match x with
  | .miss => s.updEslot e (fun x => { x with walks := x.walks ++ [(c, r)] })
  | .permission => s.toEngine e .unsupported
  | .ok tgt count =>
    if tgt.cls == .localMem then s.engineCoh e c r tgt false
    else if r.kind.evicts then s.toEngine e .unsupported
    else (if count then s.countAccess c r.addr.toNat else s).engineHost e c r tgt

/-- ENGINE_D2H_REQUEST (R356, R470 to R472): a request of an admitted engine that has a credit. -/
def execEngineD2hRequest (e : EngineId) (pasid : BitVec 20) (r : EngineD2H) (s : State) :
    Host.Outcome State Fault Refusal :=
  s.commit (fun s => s.engineAsks e pasid (fun c =>
    let caching := bitOf (s.esDesc e 0) 8
    let s := if r.kind.writes || r.kind == .dirtyEvict then
        (s.linkCount (42 + e.val) 1 r.data.length).fullCount (453 + 2 * e.val) r.data.length
      else s
    if !caching && r.kind != .rdCurr && !r.kind.writes then (s.toEngine e .goI).wmEvent 119 [c] (some e.val)
    else if bitsOf (s.esDesc e 0) 24 16 ≤ (s.eslot e).reqs.length + (s.eslot e).walks.length then s
    else if r.translated then
      s.engineCoh e c r ⟨.localMem, r.addr.toNat % 2 ^ 52, MemType.stricter 0 (s.windowType .localMem (r.addr.toNat % 2 ^ 52))⟩ true
    else s.engineUntranslated e c r))

/-! ### The end of a range walk (R325) -/

/-- RANGE_WALK_DONE (R322, R325, R327): the entry fills the requester's range cache and the requester goes on; a missing range
posts a fault, or refuses an untranslated request of an engine. -/
def execRangeWalkDone (q : Walker) (va : Word64) (access : BitVec 4) (s : State) : Host.Outcome State Fault Refusal :=
  s.commit (fun s =>
    match q with
    | .group g =>
      match s.group g, (s.tile g.tile).kernel with
      | some gr, some k =>
        match gr.wait with
        | some (.walk v a _) =>
          if v != va || a != access then s
          else
            match s.rangeWalk k.ctx va.toNat with
            | some e => (s.updTile g.tile (fun x => { x with rcV := rcFill x.rcV e })).readyGroup g
            | none => s.postFault q k.ctx va access
        | _ => s
      | _, _ => s
    | .channel t c =>
      let ctx : Byte := BitVec.ofNat 8 (s.fld (.SL_STATUS t.val c.val) F.SL_STATUS_CTX)
      if (s.chan t c).walk != some (va, access) then s
      else
        let s := s.updChan t c (fun x => { x with walk := none })
        match s.rangeWalk ctx va.toNat with
        | some e => s.updTile t (fun x => { x with rcS := rcFill x.rcS e })
        | none =>
          ((s.setFld (.SL_STATUS t.val c.val) F.SL_STATUS_STATE 3).updChan t c (fun x =>
            { x with todo := [], enq := 0 })).postFault q ctx va access
    | .engine e =>
      match (s.eslot e).walks.find? (fun w => w.2.addr == va && w.2.kind.access == access) with
      | none => s
      | some w =>
        let s := s.updEslot e (fun x => { x with walks := x.walks.erase w })
        match s.rangeWalk w.1 va.toNat with
        | some x => (s.updEslot e (fun y => { y with rc := rcFill y.rc x })).engineUntranslated e w.1 w.2
        | none => s.toEngine e .unsupported)

/-! ### Messages of the engine (R475, R478) -/

/-- ES_CTRL.HOLD written (R475, R484); HOLD needs the HALT capability on the slot's field (R502, R503). -/
def State.esHold (s : State) (e : EngineId) (v : Bool) : State :=
  let before := s.fld (.ES_CTRL e.val) F.ES_CTRL_HOLD == 1
  let allowed := s.capOn Cap.HALT (s.fld (.ES_FIELD e.val) F.ES_FIELD_FIELD)
  let s := if v && !allowed then s else s.setFld (.ES_CTRL e.val) F.ES_CTRL_HOLD (if v then 1 else 0)
  if v && !allowed then s
  else if v then
    let s := s.esSet e F.ES_STATUS_HOLD_ACK 0
    if s.esPresent e then s.toEngine e .hold else s
  else if before && s.esPresent e && !(s.eslot e).halted then s.toEngine e .release
  else s

def execHold (e : EngineId) (v : Bool) (s : State) : Host.Outcome State Fault Refusal := s.commit (fun s => s.esHold e v)

/-- HELD_ACK. -/
def execHeldAck (e : EngineId) (s : State) : Host.Outcome State Fault Refusal :=
  s.commit (fun s => if s.esPresent e then s.esSet e F.ES_STATUS_HOLD_ACK 1 else s)

/-- IRQ: a vector of the function that the slot is bound to; a VF has 32. -/
def execIrq (e : EngineId) (index : BitVec 5) (s : State) : Host.Outcome State Fault Refusal :=
  s.commit (fun s =>
    let fn := s.fld (.ES_BIND e.val) F.ES_BIND_FUNCTION
    let v := s.fld (.ES_BIND e.val) F.ES_BIND_VEC_BASE + index.toNat
    if s.esState e != 3 || (fn != 0 && 31 < v) || 2047 < v then s
    else s.msixAfter (funcId fn) v (fun w => w.src == .engine e))

/-- ECHO: the round trip is measured again; one that differs is reported and ES_LAT stays. -/
def execEcho (e : EngineId) (seq : Word16) (elapsed : Word16) (s : State) : Host.Outcome State Fault Refusal :=
  s.commit (fun s =>
    match (s.eslot e).ping with
    | some (n, _) =>
      if n != seq || s.esState e != 3 then s
      else
        let rtt := elapsed.toNat - bitsOf (s.esDesc e 1) 31 16
        let s := s.updEslot e (fun x => { x with ping := none })
        if rtt == s.fld (.ES_LAT e.val) F.ES_LAT_RTT then s
        else (s.esSet e F.ES_STATUS_LAT_CHG 1).wmEvent 120 [] (some e.val)
    | none => s)

/-- ECHO_TIMEOUT (R478): an ECHO has been missing for 8 turns. -/
def execEchoTimeout (e : EngineId) (s : State) : Host.Outcome State Fault Refusal :=
  s.commit (fun s =>
    match (s.eslot e).ping with
    | some (_, waited) => if 8 ≤ waited.toNat && s.esPresent e then s.engineLost e false else s
    | none => s)

/-- A PING leaves toward an engine of the rotation (R478). -/
def State.esPing (s : State) (e : EngineId) : State :=
  let seq := (s.eslot e).seq
  (s.updEslot e (fun x => { x with seq := x.seq + 1, ping := some (seq, 0) })).toEngine e (.ping seq)

/-- What the slots send in cycle 0 of a turn (R477, R478). -/
def State.engineTurn (s : State) : State :=
  (List.finRange 16).foldl (fun s e =>
    if s.fld (.ES_STATUS e.val) F.ES_STATUS_SCHED == 1 then
      let s := if s.rotRunning then s.toEngine e (.turn (s.fld .ROT_STATUS F.ROT_STATUS_STRETCH) s.turnNo) else s
      let s := s.updEslot e (fun x => { x with ping := x.ping.map (fun p => (p.1, p.2 + 1)) })
      if s.turnNo.toNat % 1024 == 0 then s.esPing e else s
    else s) s

/-! ### Scheduled requests (R479, R480) -/

/-- The slot would accept a scheduled request but for the owner check (R480); a reserved KIND is not accepted either. -/
def State.engineSchedAsk (s : State) (e : EngineId) (r : EngineRequest) : Bool :=
  let a := r.laddr.toNat * 256
  let target := s.backed a && (match placeOf a with
    | .slab t _ => s.schedMode t
    | .scratch _ => true
    | .tier1 => s.rotLocked a
    | _ => false)
  !s.safe && r.inIssue && r.entry.toNat < 360 && s.esIssue e r.entry.toNat && s.bound e r.ctx &&
  (match r.kind.toNat with
   | 0 => target
   | 1 => target
   | 2 => r.tile.toNat < 48
   | _ => false)

/-- The owner check of R341 refuses a scheduled request, which is recorded as every refusal is. -/
def State.engineOwnerRefused (s : State) (e : EngineId) (r : EngineRequest) : Bool :=
  s.engineSchedAsk e r && r.kind.toNat < 2 && !s.ownerOk r.ctx (r.laddr.toNat * 256) (r.kind.toNat == 1)

/-- The slot accepts a scheduled request (R480). -/
def State.engineSchedOk (s : State) (e : EngineId) (r : EngineRequest) : Bool :=
  s.engineSchedAsk e r && !s.engineOwnerRefused e r

/-- A scheduled read answers with its bytes, or with DATA where a word has an uncorrectable error (R226, R289, R290). -/
def State.engineSchedRead (s : State) (e : EngineId) (r : EngineRequest) : State :=
  let (a, n) := r.span
  if (s.ueIn a n).isSome then
    let s := match placeOf a with
      | .slab t _ => s.slabUE t a [r.ctx] n
      | .scratch _ => s.scratchUE (((s.ueIn a n).getD a) / 64 * 64) r.ctx
      | _ => s.hbmUE (stackId a) ((s.ueIn a n).getD a) [r.ctx]
    s.toEngine e (.response 1 (s.rdBytes a n))
  else (s.scratchCe a n).toEngine e (.response 0 (s.rdBytes a n))

/-- ENGINE_SCHED_REQUEST (R479, R480). Writes and signals travel on the scheduled mesh. -/
def execEngineSchedRequest (e : EngineId) (r : EngineRequest) (s : State) : Host.Outcome State Fault Refusal :=
  s.commit (fun s =>
    if s.esState e != 3 || s.fld (.ES_STATUS e.val) F.ES_STATUS_SCHED != 1 then s
    else
      let n := if r.kind == 0 then 0 else r.payload.length
      let s := (s.linkCount (42 + e.val) 1 n).fullCount (453 + 2 * e.val) n
      if s.engineSchedOk e r then
        let (a, n) := r.span
        match r.kind.toNat with
        | 0 => s.engineSchedRead e r
        | 1 => s.emit (.schedFlit (schedWriteFlit r.ctx a ((r.payload.take n).mapIdx (fun i b => (a + i, b)))))
        | _ =>
          let t : TileId := ⟨r.tile.toNat % 48, Nat.mod_lt _ (by decide)⟩
          s.emit (.schedFlit
            { stop := .tile t, ctx := r.ctx, addr := 0, data := [], crcOk := true, collided := false
              signal := some (t.val, r.sig.toNat, BitVec.ofNat 64 (leNat (r.payload.take 8))) })
      else
        let s := (s.esSet e F.ES_STATUS_GRANT_ERR 1).wmEvent 121 [r.ctx] (some e.val)
        let s := if s.engineOwnerRefused e r then s.ownerRefusal r.ctx (r.laddr.toNat * 256) (match placeOf (r.laddr.toNat * 256) with
            | .slab _ _ => none
            | _ => some (homeSlice (r.laddr.toNat * 256)).val)
          else s
        if r.kind == 0 then s.toEngine e (.response 2 (List.replicate r.span.2 0)) else s)

/-- A write of ES_GRANTk (R484). -/
def State.esGrantWrite (s : State) (e : EngineId) (k : Nat) (v : Word32) : State :=
  if s.rotState != 0 then s.esSet e F.ES_STATUS_GRANT_ERR 1
  else s.wr (.ES_GRANT e.val k) (v.setWidth 64 &&& 0xC000C000#64)

def execEsGrantWrite (e : EngineId) (k : Fin 180) (v : Word32) (s : State) : Host.Outcome State Fault Refusal :=
  s.commit (fun s => s.esGrantWrite e k.val v)

/-! ### Memory-mapped registers of the engine (R474) -/

def State.mmioEnd (s : State) (e : EngineId) (result : Nat) : State :=
  (s.setFld (.ES_MMIO_STAT e.val) F.ES_MMIO_STAT_BUSY 0).setFld (.ES_MMIO_STAT e.val) F.ES_MMIO_STAT_RESULT result

def State.mmioBusy (s : State) (e : EngineId) : Bool := s.fld (.ES_MMIO_STAT e.val) F.ES_MMIO_STAT_BUSY == 1

/-- A write of ES_MMIO_ADDR.GO. With twin checking a read is refused (R530). -/
def State.mmioGo (s : State) (e : EngineId) : State :=
  let r := Reg.ES_MMIO_ADDR e.val
  let bar := s.fld r F.ES_MMIO_ADDR_BAR
  let off := 4 * s.fld r F.ES_MMIO_ADDR_OFFSET
  if s.mmioBusy e then s
  else if !s.esPresent e then s.mmioEnd e 3
  else if 6 ≤ bar then s.mmioEnd e 1
  else if s.twinActive && s.fld r F.ES_MMIO_ADDR_WRITE == 0 then (s.hostRefuse 0 3 0).mmioEnd e 1
  else
    (s.setFld (.ES_MMIO_STAT e.val) F.ES_MMIO_STAT_BUSY 1).toEngine e
      (if s.fld r F.ES_MMIO_ADDR_WRITE == 1 then
        .mmioWrite bar off (BitVec.ofNat 32 (s.fld (.ES_MMIO_DATA e.val) F.ES_MMIO_DATA_DATA))
       else .mmioRead bar off)

/-- MMIO_READ: GO with WRITE 0. -/
def execMmioRead (e : EngineId) (s : State) : Host.Outcome State Fault Refusal :=
  s.commit (fun s => if s.mmioBusy e then s else (s.setFld (.ES_MMIO_ADDR e.val) F.ES_MMIO_ADDR_WRITE 0).mmioGo e)

/-- MMIO_WRITE: GO with WRITE 1. -/
def execMmioWrite (e : EngineId) (s : State) : Host.Outcome State Fault Refusal :=
  s.commit (fun s => if s.mmioBusy e then s else (s.setFld (.ES_MMIO_ADDR e.val) F.ES_MMIO_ADDR_WRITE 1).mmioGo e)

/-- MMIO_COMPLETION. -/
def execMmioCompletion (e : EngineId) (unsupported : Bool) (data : Word32) (s : State) :
    Host.Outcome State Fault Refusal :=
  s.commit (fun s =>
    if !s.mmioBusy e then s
    else if unsupported then s.mmioEnd e 1
    else
      (if s.fld (.ES_MMIO_ADDR e.val) F.ES_MMIO_ADDR_WRITE == 1 then s
       else s.setFld (.ES_MMIO_DATA e.val) F.ES_MMIO_DATA_DATA data.toNat).mmioEnd e 0)

/-- MMIO_TIMEOUT: no completion within 1 ms. -/
def execMmioTimeout (e : EngineId) (s : State) : Host.Outcome State Fault Refusal :=
  s.commit (fun s => if s.mmioBusy e then s.mmioEnd e 2 else s)

end Sys2Proof.Machine
end

