-- ==== Sys2Proof/Machine/VecAlu.lean ====
section
/-! DEFINITION. The arithmetic, conversion, lane and uniform instructions of Maelette-V (R160 to R165, R171). -/

namespace Sys2Proof.Machine

/-! ### Forms -/

/-- Two v sources, one v result; the V-I form, where there is one, at OPC + 0x80 (R159). -/
def VForm.bin (opc : Nat) (hasI : Bool) (mod : ModKind) : VForm :=
  ⟨opc, if hasI then some (opc + 0x80) else none, true, .v 1, .v 1, .v 1, .none, mod, (· == 0)⟩

/-- Three v sources, one v result. -/
def VForm.tri (opc : Nat) (mod : ModKind) : VForm :=
  ⟨opc, none, true, .v 1, .v 1, .v 1, .v 1, mod, (· == 0)⟩

/-- One v source, one v result. -/
def VForm.un (opc : Nat) (mod : ModKind) : VForm :=
  ⟨opc, none, true, .v 1, .v 1, .none, .none, mod, (· == 0)⟩

/-- A compare: two v sources, a predicate. -/
def VForm.cmp (opc : Nat) : VForm :=
  ⟨opc, some (opc + 0x80), true, .p, .v 1, .v 1, .none, .cond, (· == 0)⟩

/-- A uniform opcode with its V-I form at OPC + 0x10 (R159, R171). -/
def VForm.uni (opc : Nat) (vd : DstKind) (vb : SrcKind) (mod : ModKind) : VForm :=
  ⟨opc, some (opc + 0x10), false, vd, .u, vb, .none, mod, (· == 0)⟩

/-- The MOD field; a V-I form takes it as 0b000 (R159). -/
def VForm.modOf (f : VForm) (w : Word64) : Nat := if f.isI w then 0 else vMOD w

/-- The rounding mode of an instruction (R159). -/
def VForm.rmOf (f : VForm) (w : Word64) : RM := (RM.decode (f.modOf w)).getD .rne

/-! ### Integer lanes -/

/-- A result that raises no flag. -/
def FRes.plain (x : Word32) : FRes := ⟨x.toNat, 0⟩

/-- Minimum or maximum, signed or unsigned (R160, R171). -/
def pickMin {n : Nat} (unsigned isMax : Bool) (a b : BitVec n) : BitVec n :=
  let less := if unsigned then a.ult b else a.slt b
  if less != isMax then a else b

/-- The integer conditions of R163. -/
def intCond {n : Nat} (c : Nat) (a b : BitVec n) : Bool :=
  match c with
  | 0 => a == b
  | 1 => a != b
  | 2 => a.slt b
  | 3 => a.sle b
  | 4 => b.slt a
  | 5 => b.sle a
  | 6 => a.ult b
  | _ => b.ule a

/-- The floating-point conditions of R163. -/
def floatCond (c : Nat) (a b : FVal) : Bool :=
  let num := !a.isNaN && !b.isNaN
  match c with
  | 0 => a.eqv b
  | 1 => !num || !a.eqv b
  | 2 => num && a.lt b
  | 3 => num && !b.lt a
  | 4 => num && b.lt a
  | 5 => num && !a.lt b
  | 6 => num
  | _ => !num

/-- Integer division toward zero, with the corner results of R164. -/
def idivLane (unsigned : Bool) (a b : Word32) : Word32 :=
  if b == 0 then 0xFFFFFFFF#32 else if unsigned then a / b else a.sdiv b

/-- Integer remainder with the sign of the dividend, with the corner results of R164. -/
def iremLane (unsigned : Bool) (a b : Word32) : Word32 :=
  if b == 0 then a else if unsigned then a % b else a.srem b

/-- The high 32 bits of a product (R160). -/
def imulhLane (unsigned : Bool) (a b : Word32) : Word32 :=
  if unsigned then ((a.setWidth 64 * b.setWidth 64) >>> 32).setWidth 32
  else ((a.signExtend 64 * b.signExtend 64) >>> 32).setWidth 32

def execIadd (g : GroupId) (w : Word64) (s : State) : Host.Outcome State Fault Refusal :=
  s.commit (fun s => s.lanes g w (.bin 0x01 true .res0) (fun _ a b _ => .plain (a + b)))

def execIsub (g : GroupId) (w : Word64) (s : State) : Host.Outcome State Fault Refusal :=
  s.commit (fun s => s.lanes g w (.bin 0x02 true .res0) (fun _ a b _ => .plain (a - b)))

def execImul (g : GroupId) (w : Word64) (s : State) : Host.Outcome State Fault Refusal :=
  s.commit (fun s => s.lanes g w (.bin 0x03 true .res0) (fun _ a b _ => .plain (a * b)))

def execImulh (g : GroupId) (w : Word64) (s : State) : Host.Outcome State Fault Refusal :=
  s.commit (fun s => s.lanes g w (.bin 0x04 false .bit0) (fun _ a b _ => .plain (imulhLane (vMOD w == 1) a b)))

def execImad (g : GroupId) (w : Word64) (s : State) : Host.Outcome State Fault Refusal :=
  s.commit (fun s => s.lanes g w (.tri 0x05 .res0) (fun _ a b c => .plain (a * b + c)))

def execImin (g : GroupId) (w : Word64) (s : State) : Host.Outcome State Fault Refusal :=
  let f := VForm.bin 0x06 true .bit0
  s.commit (fun s => s.lanes g w f (fun _ a b _ => .plain (pickMin (f.modOf w == 1) false a b)))

def execImax (g : GroupId) (w : Word64) (s : State) : Host.Outcome State Fault Refusal :=
  let f := VForm.bin 0x07 true .bit0
  s.commit (fun s => s.lanes g w f (fun _ a b _ => .plain (pickMin (f.modOf w == 1) true a b)))

def execAnd (g : GroupId) (w : Word64) (s : State) : Host.Outcome State Fault Refusal :=
  s.commit (fun s => s.lanes g w (.bin 0x08 true .res0) (fun _ a b _ => .plain (a &&& b)))

def execOr (g : GroupId) (w : Word64) (s : State) : Host.Outcome State Fault Refusal :=
  s.commit (fun s => s.lanes g w (.bin 0x09 true .res0) (fun _ a b _ => .plain (a ||| b)))

def execXor (g : GroupId) (w : Word64) (s : State) : Host.Outcome State Fault Refusal :=
  s.commit (fun s => s.lanes g w (.bin 0x0A true .res0) (fun _ a b _ => .plain (a ^^^ b)))

def execShl (g : GroupId) (w : Word64) (s : State) : Host.Outcome State Fault Refusal :=
  s.commit (fun s => s.lanes g w (.bin 0x0B true .res0) (fun _ a b _ => .plain (a <<< (b.toNat % 32))))

def execShr (g : GroupId) (w : Word64) (s : State) : Host.Outcome State Fault Refusal :=
  let f := VForm.bin 0x0C true .bit0
  s.commit (fun s => s.lanes g w f (fun _ a b _ =>
    .plain (if f.modOf w == 1 then a.sshiftRight (b.toNat % 32) else a >>> (b.toNat % 32))))

/-- SEL takes its predicate pS from VC (R160). -/
def execSel (g : GroupId) (w : Word64) (s : State) : Host.Outcome State Fault Refusal :=
  let f : VForm := ⟨0x0D, none, true, .v 1, .v 1, .v 1, .p, .res0, (· == 0)⟩
  s.commit (fun s =>
    let p := match s.group g with
      | some gr => gr.rdP (vVC w)
      | none => 0
    s.lanes g w f (fun i a b _ => .plain (if p.getLsbD i then a else b)))

/-- MOV copies vA; its V-I form writes the immediate and has VA RES0 (R160). -/
def execMov (g : GroupId) (w : Word64) (s : State) : Host.Outcome State Fault Refusal :=
  if vOPC w == 0x8E then
    s.commit (fun s => s.lanes g w ⟨0x0E, some 0x8E, true, .v 1, .none, .none, .none, .res0, (· == 0)⟩
      (fun _ _ b _ => .plain b))
  else
    s.commit (fun s => s.lanes g w (.un 0x0E .res0) (fun _ a _ _ => .plain a))

/-- A compare that writes a predicate in the taking-part threads, with the flags it raises (R160, R163). -/
def State.setp (s : State) (g : GroupId) (w : Word64) (f : VForm) (cmp : Word32 → Word32 → Bool × FFlags) : State :=
  s.vector g w f (fun s gr _ =>
    let m := gr.taking w
    let a := gr.rdV (vVA w)
    let b := gr.rdV (vVB w)
    let res (i : Nat) : Bool × FFlags := cmp (a.getD i 0) (if f.isI w then vIMM w else b.getD i 0)
    let fl := (threadsOf m).foldl (fun acc i => acc ||| (res i).2) 0
    s.finish g ((gr.wrP (vVD w) m (maskOf (fun i => (res i).1))).raiseFlags fl))

def execIsetp (g : GroupId) (w : Word64) (s : State) : Host.Outcome State Fault Refusal :=
  let f := VForm.cmp 0x0F
  s.commit (fun s => s.setp g w f (fun a b => (intCond (f.modOf w) a b, 0)))

/-! ### Floating point lanes -/

/-- A binary32 word as an exact value. -/
def f32 (x : Word32) : FVal := Fmt.f32.decode x.toNat

def execFadd (g : GroupId) (w : Word64) (s : State) : Host.Outcome State Fault Refusal :=
  let f := VForm.bin 0x10 true .rm
  s.commit (fun s => s.lanes g w f (fun _ a b _ => Fmt.f32.add (f.rmOf w) (f32 a) (f32 b)))

def execFsub (g : GroupId) (w : Word64) (s : State) : Host.Outcome State Fault Refusal :=
  let f := VForm.bin 0x11 true .rm
  s.commit (fun s => s.lanes g w f (fun _ a b _ => Fmt.f32.add (f.rmOf w) (f32 a) (f32 b).negate))

def execFmul (g : GroupId) (w : Word64) (s : State) : Host.Outcome State Fault Refusal :=
  let f := VForm.bin 0x12 true .rm
  s.commit (fun s => s.lanes g w f (fun _ a b _ => Fmt.f32.mul (f.rmOf w) (f32 a) (f32 b)))

def execFfma (g : GroupId) (w : Word64) (s : State) : Host.Outcome State Fault Refusal :=
  let f := VForm.tri 0x13 .rm
  s.commit (fun s => s.lanes g w f (fun _ a b c => Fmt.f32.fma (f.rmOf w) (f32 a) (f32 b) (f32 c)))

def execFmin (g : GroupId) (w : Word64) (s : State) : Host.Outcome State Fault Refusal :=
  s.commit (fun s => s.lanes g w (.bin 0x14 true .res0) (fun _ a b _ => Fmt.f32.minMax false a.toNat b.toNat))

def execFmax (g : GroupId) (w : Word64) (s : State) : Host.Outcome State Fault Refusal :=
  s.commit (fun s => s.lanes g w (.bin 0x15 true .res0) (fun _ a b _ => Fmt.f32.minMax true a.toNat b.toNat))

def execFsetp (g : GroupId) (w : Word64) (s : State) : Host.Outcome State Fault Refusal :=
  let f := VForm.cmp 0x16
  s.commit (fun s => s.setp g w f (fun a b =>
    (floatCond (f.modOf w) (f32 a) (f32 b),
      if (f32 a).isSNaN || (f32 b).isSNaN then FFlags.NV else 0)))

/-- An operation on both 16-bit halves of a word (R160). -/
def halves (op : Nat → Nat → Nat → FRes) (a b c : Word32) : FRes :=
  let lo := op (bitsOf a 15 0) (bitsOf b 15 0) (bitsOf c 15 0)
  let hi := op (bitsOf a 31 16) (bitsOf b 31 16) (bitsOf c 31 16)
  ⟨lo.bits + hi.bits * 2 ^ 16, lo.flags ||| hi.flags⟩

def packedAdd (f : Fmt) (rm : RM) (a b _c : Nat) : FRes := f.add rm (f.decode a) (f.decode b)
def packedMul (f : Fmt) (rm : RM) (a b _c : Nat) : FRes := f.mul rm (f.decode a) (f.decode b)
def packedFma (f : Fmt) (rm : RM) (a b c : Nat) : FRes := f.fma rm (f.decode a) (f.decode b) (f.decode c)

def execHadd2 (g : GroupId) (w : Word64) (s : State) : Host.Outcome State Fault Refusal :=
  let f := VForm.bin 0x17 false .rm
  s.commit (fun s => s.lanes g w f (fun _ => halves (packedAdd .f16 (f.rmOf w))))

def execHmul2 (g : GroupId) (w : Word64) (s : State) : Host.Outcome State Fault Refusal :=
  let f := VForm.bin 0x18 false .rm
  s.commit (fun s => s.lanes g w f (fun _ => halves (packedMul .f16 (f.rmOf w))))

def execHfma2 (g : GroupId) (w : Word64) (s : State) : Host.Outcome State Fault Refusal :=
  let f := VForm.tri 0x19 .rm
  s.commit (fun s => s.lanes g w f (fun _ => halves (packedFma .f16 (f.rmOf w))))

def execBadd2 (g : GroupId) (w : Word64) (s : State) : Host.Outcome State Fault Refusal :=
  let f := VForm.bin 0x1A false .rm
  s.commit (fun s => s.lanes g w f (fun _ => halves (packedAdd .bf16 (f.rmOf w))))

def execBmul2 (g : GroupId) (w : Word64) (s : State) : Host.Outcome State Fault Refusal :=
  let f := VForm.bin 0x1B false .rm
  s.commit (fun s => s.lanes g w f (fun _ => halves (packedMul .bf16 (f.rmOf w))))

def execBfma2 (g : GroupId) (w : Word64) (s : State) : Host.Outcome State Fault Refusal :=
  let f := VForm.tri 0x1C .rm
  s.commit (fun s => s.lanes g w f (fun _ => halves (packedFma .bf16 (f.rmOf w))))

/-! ### Conversions -/

/-- The floating-point type of a CVT type code (R161). -/
def cvtFmt : Nat → Option Fmt
  | 2 => some .f32
  | 3 => some .f16
  | 4 => some .bf16
  | 5 => some .e4m3
  | 6 => some .e5m2
  | _ => none

/-- The bounds of an integer CVT type code. -/
def cvtRange (c : Nat) : Int × Int := if c == 0 then (-(2 ^ 31), 2 ^ 31 - 1) else (0, 2 ^ 32 - 1)

/-- CVT of one word (R161). -/
def cvtLane (dst src : Nat) (sat : Bool) (rm : RM) (a : Word32) : FRes :=
  let fromInt : Int := if src == 0 then a.toInt else a.toNat
  match cvtFmt dst, cvtFmt src with
  | some d, some f => (f.decode (a.toNat % 2 ^ f.width)).toFmt d rm sat
  | some d, none => (FVal.ofInt fromInt).toFmt d rm sat
  | none, some f =>
    let (lo, hi) := cvtRange dst
    let (k, fl) := (f.decode (a.toNat % 2 ^ f.width)).toIntRange rm lo hi
    ⟨(BitVec.ofInt 32 k).toNat, fl⟩
  | none, none =>
    let (lo, hi) := cvtRange dst
    if fromInt < lo then ⟨(BitVec.ofInt 32 lo).toNat, FFlags.NV⟩
    else if fromInt > hi then ⟨(BitVec.ofInt 32 hi).toNat, FFlags.NV⟩
    else ⟨a.toNat, 0⟩

/-- SUB of CVT: destination [12:9], source [8:5], SAT [4], the rest RES0 (R161). -/
def cvtSub (x : Nat) : Bool :=
  let d := x / 512
  let sr := x / 32 % 16
  d ≤ 6 && sr ≤ 6 && d != sr && x % 16 == 0 && (x / 16 % 2 == 0 || d ≥ 5)

def execCvt (g : GroupId) (w : Word64) (s : State) : Host.Outcome State Fault Refusal :=
  let f : VForm := ⟨0x20, none, true, .v 1, .v 1, .none, .none, .rm, cvtSub⟩
  s.commit (fun s => s.lanes g w f (fun _ a _ _ =>
    cvtLane (vSUB w / 512) (vSUB w / 32 % 16) (vSUB w / 16 % 2 == 1) (f.rmOf w) a))

/-- The wide partial in registers n to n + 7 of a thread (R155); 255 reads 0. -/
def Group.rdWide (gr : Group) (n i : Nat) : Wide :=
  if n = 255 then Wide.zero
  else
    Wide.ofBits (BitVec.ofNat 256
      ((List.range 8).foldr (fun j acc => ((gr.rdV (n + j)).getD i 0).toNat + 2 ^ 32 * acc) 0))

/-- A wide partial written to registers n to n + 7 of the threads of a mask; 255 discards (R155). -/
def Group.wrWide (gr : Group) (n : Nat) (m : Word64) (x : Nat → Wide) : Group :=
  if n = 255 then gr
  else
    (List.range 8).foldl (fun gr j =>
      gr.wrMain (n + j) m (fun i => (x i).toBits.extractLsb' (32 * j) 32)) gr

/-- WADD adds two wide partials; a taking-part thread with differing anchors stops it in every thread (R59, R162). -/
def execWadd (g : GroupId) (w : Word64) (s : State) : Host.Outcome State Fault Refusal :=
  let f : VForm := ⟨0x21, none, true, .v 8, .v 8, .v 8, .none, .res0, (· == 0)⟩
  s.commit (fun s => s.vector g w f (fun s gr k =>
    let m := gr.taking w
    let bad := (threadsOf m).any (fun i => (gr.rdWide (vVA w) i).mismatch (gr.rdWide (vVB w) i))
    if bad then s.excPlain g gr k w Exc.ANCHOR_MISMATCH
    else s.finish g (gr.wrWide (vVD w) m (fun i => (gr.rdWide (vVA w) i).combine (gr.rdWide (vVB w) i)))))

/-- The formats of WCVT (R162). -/
def wcvtFmt : Nat → Option Fmt
  | 3 => some .e4m3
  | 4 => some .e5m2
  | 6 => some .bf16
  | 7 => some .f16
  | 9 => some .f32
  | _ => none

/-- SUB of WCVT: FMT [12:9], SAT [8] for FP8 only, the rest RES0 (R160, R162). -/
def wcvtSub (x : Nat) : Bool :=
  (wcvtFmt (x / 512)).isSome && x % 256 == 0 && (x / 256 % 2 == 0 || x / 512 == 3 || x / 512 == 4)

def execWcvt (g : GroupId) (w : Word64) (s : State) : Host.Outcome State Fault Refusal :=
  let f : VForm := ⟨0x22, none, true, .v 1, .v 8, .none, .none, .rm, wcvtSub⟩
  s.commit (fun s => s.vector g w f (fun s gr _ =>
    let m := gr.taking w
    let fmt := (wcvtFmt (vSUB w / 512)).getD .f32
    let res (i : Nat) : FRes := (gr.rdWide (vVA w) i).convert fmt (f.rmOf w) (vSUB w / 256 % 2 == 1)
    let fl := (threadsOf m).foldl (fun acc i => acc ||| (res i).flags) 0
    s.finish g ((gr.wrMain (vVD w) m (fun i => BitVec.ofNat 32 (res i).bits)).raiseFlags fl)))

def execWrnd (g : GroupId) (w : Word64) (s : State) : Host.Outcome State Fault Refusal :=
  let f : VForm := ⟨0x23, none, true, .v 8, .v 1, .v 1, .none, .res0, (· == 0)⟩
  s.commit (fun s => s.vector g w f (fun s gr _ =>
    s.finish g (gr.wrWide (vVD w) (gr.taking w) (fun i =>
      Wide.ofF32 ((gr.rdV (vVA w)).getD i 0) (((gr.rdV (vVB w)).getD i 0).setWidth 16)))))

/-! ### Special functions (R164) -/

def execRcp (g : GroupId) (w : Word64) (s : State) : Host.Outcome State Fault Refusal :=
  let f := VForm.un 0x30 .rm
  s.commit (fun s => s.lanes g w f (fun _ a _ _ => Fmt.f32.rcp (f.rmOf w) (f32 a)))

def execSqrt (g : GroupId) (w : Word64) (s : State) : Host.Outcome State Fault Refusal :=
  let f := VForm.un 0x31 .rm
  s.commit (fun s => s.lanes g w f (fun _ a _ _ => Fmt.f32.sqrt (f.rmOf w) (f32 a)))

def execRsq (g : GroupId) (w : Word64) (s : State) : Host.Outcome State Fault Refusal :=
  s.commit (fun s => s.lanes g w (.un 0x32 .res0) (fun _ a _ _ => rsq32 a))

def execEx2 (g : GroupId) (w : Word64) (s : State) : Host.Outcome State Fault Refusal :=
  s.commit (fun s => s.lanes g w (.un 0x33 .res0) (fun _ a _ _ => ex2_32 a))

def execLg2 (g : GroupId) (w : Word64) (s : State) : Host.Outcome State Fault Refusal :=
  s.commit (fun s => s.lanes g w (.un 0x34 .res0) (fun _ a _ _ => lg2_32 a))

def execSinpi (g : GroupId) (w : Word64) (s : State) : Host.Outcome State Fault Refusal :=
  s.commit (fun s => s.lanes g w (.un 0x35 .res0) (fun _ a _ _ => sinpi32 a))

def execCospi (g : GroupId) (w : Word64) (s : State) : Host.Outcome State Fault Refusal :=
  s.commit (fun s => s.lanes g w (.un 0x36 .res0) (fun _ a _ _ => cospi32 a))

def execIdiv (g : GroupId) (w : Word64) (s : State) : Host.Outcome State Fault Refusal :=
  s.commit (fun s => s.lanes g w (.bin 0x37 false .bit0) (fun _ a b _ => .plain (idivLane (vMOD w == 1) a b)))

def execIrem (g : GroupId) (w : Word64) (s : State) : Host.Outcome State Fault Refusal :=
  s.commit (fun s => s.lanes g w (.bin 0x38 false .bit0) (fun _ a b _ => .plain (iremLane (vMOD w == 1) a b)))

/-! ### Lane and group values -/

/-- SHFL reads another thread's register, whether or not that thread is active (R160). -/
def execShfl (g : GroupId) (w : Word64) (s : State) : Host.Outcome State Fault Refusal :=
  s.commit (fun s => s.vector g w (.bin 0x3A false .res0) (fun s gr _ =>
    let a := gr.rdV (vVA w)
    let b := gr.rdV (vVB w)
    s.finish g (gr.wrV (vVD w) (gr.taking w) (fun i => a.getD ((b.getD i 0).toNat % 64) 0))))

def execBallot (g : GroupId) (w : Word64) (s : State) : Host.Outcome State Fault Refusal :=
  let f : VForm := ⟨0x3B, none, true, .u, .p, .none, .none, .res0, (· == 0)⟩
  s.commit (fun s => s.vector g w f (fun s gr _ =>
    s.finish g (gr.wrU (vVD w) (gr.rdP (vVA w) &&& gr.taking w))))

/-- MOVU writes the value of the lowest taking-part thread; 0 when none takes part (R160). -/
def execMovu (g : GroupId) (w : Word64) (s : State) : Host.Outcome State Fault Refusal :=
  let f : VForm := ⟨0x3C, none, true, .u, .v 1, .none, .none, .res0, (· == 0)⟩
  s.commit (fun s => s.vector g w f (fun s gr _ =>
    let x : Word64 := match threadsOf (gr.taking w) with
      | i :: _ => ((gr.rdV (vVA w)).getD i 0).setWidth 64
      | [] => 0
    s.finish g (gr.wrU (vVD w) x)))

def execBcast (g : GroupId) (w : Word64) (s : State) : Host.Outcome State Fault Refusal :=
  let f : VForm := ⟨0x3D, none, true, .v 1, .u, .none, .none, .bit0, (· == 0)⟩
  s.commit (fun s => s.vector g w f (fun s gr _ =>
    let x := gr.rdU (vVA w)
    let y : Word32 := if vMOD w == 1 then (x >>> 32).setWidth 32 else x.setWidth 32
    s.finish g (gr.wrV (vVD w) (gr.taking w) (fun _ => y))))

/-- The special values of R165. -/
def State.sregValue (s : State) (g : GroupId) (gr : Group) (k : Kernel) (sel i : Nat) : Word32 :=
  match sel with
  | 0 => BitVec.ofNat 32 i
  | 1 => BitVec.ofNat 32 gr.num
  | 2 => BitVec.ofNat 32 gr.block
  | 3 => BitVec.ofNat 32 g.core.val
  | 4 => BitVec.ofNat 32 g.tile.val
  | 5 => BitVec.ofNat 32 s.chipId
  | 6 => BitVec.ofNat 32 k.ctx.toNat
  | 7 => BitVec.ofNat 32 gr.blockSlot
  | _ => s.timestamp.setWidth 32

def execSreg (g : GroupId) (w : Word64) (s : State) : Host.Outcome State Fault Refusal :=
  let f : VForm := ⟨0x3E, none, true, .v 1, .none, .none, .none, .res0, fun x => x / 32 ≤ 8 && x % 32 == 0⟩
  s.commit (fun s => s.vector g w f (fun s gr k =>
    s.finish g (gr.wrV (vVD w) (gr.taking w) (fun i => s.sregValue g gr k (vSUB w / 32) i))))

/-- FFLAG reads FFLAGS, and clears them when MOD[0] is 1 (R160). -/
def execFflag (g : GroupId) (w : Word64) (s : State) : Host.Outcome State Fault Refusal :=
  let f : VForm := ⟨0x3F, none, false, .u, .none, .none, .none, .bit0, (· == 0)⟩
  s.commit (fun s => s.vector g w f (fun s gr _ =>
    let gr' := gr.wrU (vVD w) (gr.fflags.setWidth 64)
    s.finish g (if vMOD w == 1 then { gr' with fflags := 0 } else gr')))

/-! ### Uniform instructions (R171) -/

/-- A uniform operation on two 64-bit operands, run once per group. -/
def State.uniform (s : State) (g : GroupId) (w : Word64) (f : VForm) (op : Word64 → Word64 → Word64) : State :=
  s.vector g w f (fun s gr _ =>
    let b := if f.isI w then (vIMM w).signExtend 64 else gr.rdU (vVB w)
    s.finish g (gr.wrU (vVD w) (op (gr.rdU (vVA w)) b)))

def execUadd (g : GroupId) (w : Word64) (s : State) : Host.Outcome State Fault Refusal :=
  s.commit (fun s => s.uniform g w (.uni 0xC0 .u .u .res0) (fun a b => a + b))

def execUsub (g : GroupId) (w : Word64) (s : State) : Host.Outcome State Fault Refusal :=
  s.commit (fun s => s.uniform g w (.uni 0xC1 .u .u .res0) (fun a b => a - b))

def execUmul (g : GroupId) (w : Word64) (s : State) : Host.Outcome State Fault Refusal :=
  s.commit (fun s => s.uniform g w (.uni 0xC2 .u .u .res0) (fun a b => a * b))

def execUand (g : GroupId) (w : Word64) (s : State) : Host.Outcome State Fault Refusal :=
  s.commit (fun s => s.uniform g w (.uni 0xC3 .u .u .res0) (fun a b => a &&& b))

def execUor (g : GroupId) (w : Word64) (s : State) : Host.Outcome State Fault Refusal :=
  s.commit (fun s => s.uniform g w (.uni 0xC4 .u .u .res0) (fun a b => a ||| b))

def execUxor (g : GroupId) (w : Word64) (s : State) : Host.Outcome State Fault Refusal :=
  s.commit (fun s => s.uniform g w (.uni 0xC5 .u .u .res0) (fun a b => a ^^^ b))

def execUshl (g : GroupId) (w : Word64) (s : State) : Host.Outcome State Fault Refusal :=
  s.commit (fun s => s.uniform g w (.uni 0xC6 .u .u .res0) (fun a b => a <<< (b.toNat % 64)))

def execUshr (g : GroupId) (w : Word64) (s : State) : Host.Outcome State Fault Refusal :=
  let f := VForm.uni 0xC7 .u .u .bit0
  s.commit (fun s => s.uniform g w f (fun a b =>
    if f.modOf w == 1 then a.sshiftRight (b.toNat % 64) else a >>> (b.toNat % 64)))

def execUmin (g : GroupId) (w : Word64) (s : State) : Host.Outcome State Fault Refusal :=
  let f := VForm.uni 0xC8 .u .u .bit0
  s.commit (fun s => s.uniform g w f (fun a b => pickMin (f.modOf w == 1) false a b))

def execUmax (g : GroupId) (w : Word64) (s : State) : Host.Outcome State Fault Refusal :=
  let f := VForm.uni 0xC9 .u .u .bit0
  s.commit (fun s => s.uniform g w f (fun a b => pickMin (f.modOf w == 1) true a b))

/-- UMOV copies uA; its V-I form writes the sign-extended immediate and has VA RES0. -/
def execUmov (g : GroupId) (w : Word64) (s : State) : Host.Outcome State Fault Refusal :=
  if vOPC w == 0xDA then
    s.commit (fun s => s.uniform g w ⟨0xCA, some 0xDA, false, .u, .none, .none, .none, .res0, (· == 0)⟩ (fun _ b => b))
  else
    s.commit (fun s => s.uniform g w ⟨0xCA, none, false, .u, .u, .none, .none, .res0, (· == 0)⟩ (fun a _ => a))

/-- USETP writes its predicate in every active thread (R171). -/
def execUsetp (g : GroupId) (w : Word64) (s : State) : Host.Outcome State Fault Refusal :=
  let f := VForm.uni 0xCB .p .u .cond
  s.commit (fun s => s.vector g w f (fun s gr _ =>
    let b := if f.isI w then (vIMM w).signExtend 64 else gr.rdU (vVB w)
    let c := intCond (f.modOf w) (gr.rdU (vVA w)) b
    s.finish g (gr.wrP (vVD w) gr.mask (if c then BitVec.allOnes 64 else 0))))

end Sys2Proof.Machine
end

