-- ==== Sys2Proof/Machine/Illegal.lean ====
section
/-! DEFINITION. Which words the two instruction sets define (R153 to R175), and the exception of the others. -/

namespace Sys2Proof.Machine

/-- The V-R forms of R160 and R171. -/
def vecForms : List VForm :=
  [.bin 0x01 true .res0, .bin 0x02 true .res0, .bin 0x03 true .res0, .bin 0x04 false .bit0, .tri 0x05 .res0,
   .bin 0x06 true .bit0, .bin 0x07 true .bit0, .bin 0x08 true .res0, .bin 0x09 true .res0, .bin 0x0A true .res0,
   .bin 0x0B true .res0, .bin 0x0C true .bit0, ⟨0x0D, none, true, .v 1, .v 1, .v 1, .p, .res0, (· == 0)⟩,
   .un 0x0E .res0, .cmp 0x0F] ++
  [.bin 0x10 true .rm, .bin 0x11 true .rm, .bin 0x12 true .rm, .tri 0x13 .rm, .bin 0x14 true .res0,
   .bin 0x15 true .res0, .cmp 0x16, .bin 0x17 false .rm, .bin 0x18 false .rm, .tri 0x19 .rm, .bin 0x1A false .rm,
   .bin 0x1B false .rm, .tri 0x1C .rm] ++
  [⟨0x20, none, true, .v 1, .v 1, .none, .none, .rm, cvtSub⟩, ⟨0x21, none, true, .v 8, .v 8, .v 8, .none, .res0, (· == 0)⟩,
   ⟨0x22, none, true, .v 1, .v 8, .none, .none, .rm, wcvtSub⟩, ⟨0x23, none, true, .v 8, .v 1, .v 1, .none, .res0, (· == 0)⟩,
   .un 0x30 .rm, .un 0x31 .rm, .un 0x32 .res0, .un 0x33 .res0, .un 0x34 .res0, .un 0x35 .res0, .un 0x36 .res0,
   .bin 0x37 false .bit0, .bin 0x38 false .bit0] ++
  [.bin 0x3A false .res0, ⟨0x3B, none, true, .u, .p, .none, .none, .res0, (· == 0)⟩,
   ⟨0x3C, none, true, .u, .v 1, .none, .none, .res0, (· == 0)⟩, ⟨0x3D, none, true, .v 1, .u, .none, .none, .bit0, (· == 0)⟩,
   ⟨0x3E, none, true, .v 1, .none, .none, .none, .res0, fun x => x / 32 ≤ 8 && x % 32 == 0⟩,
   ⟨0x3F, none, false, .u, .none, .none, .none, .bit0, (· == 0)⟩,
   ⟨0x0E, some 0x8E, true, .v 1, .none, .none, .none, .res0, (· == 0)⟩] ++
  [.uni 0xC0 .u .u .res0, .uni 0xC1 .u .u .res0, .uni 0xC2 .u .u .res0, .uni 0xC3 .u .u .res0, .uni 0xC4 .u .u .res0,
   .uni 0xC5 .u .u .res0, .uni 0xC6 .u .u .res0, .uni 0xC7 .u .u .bit0, .uni 0xC8 .u .u .bit0, .uni 0xC9 .u .u .bit0,
   ⟨0xCA, none, false, .u, .u, .none, .none, .res0, (· == 0)⟩, ⟨0xCA, some 0xDA, false, .u, .none, .none, .none, .res0, (· == 0)⟩,
   .uni 0xCB .p .u .cond]

/-- A word of an opcode outside the V-R and V-I forms is well formed (R157, R158, R166 to R170). -/
def otherLegal (w : Word64) : Bool :=
  let plain (guard legal : Bool) : Bool := guardOk w guard && !vKA w && !vKB w && !vKC w && legal
  let z (hi lo : Nat) : Bool := bitsOf w hi lo == 0
  match vOPC w with
  | 0x40 => mLegal w .ownSlab .load
  | 0x41 => mLegal w .ownSlab .store
  | 0x42 => mLegal w .blockLocal .load
  | 0x43 => mLegal w .blockLocal .store
  | 0x44 => mLegal w .virt .load
  | 0x45 => mLegal w .virt .store
  | 0x46 => mLegal w .ownSlab .atomic
  | 0x47 => mLegal w .blockLocal .atomic
  | 0x48 => mLegal w .virt .atomic
  | 0x49 => plain false ((DstKind.u).ok (vVD w) && (SrcKind.u).ok (vVA w))
  | 0x4A => plain false ((DstKind.u).ok (vVD w) && (SrcKind.u).ok (vVA w))
  | 0x4B => plain false (z 47 0)
  | 0x4C => plain false (z 47 0)
  | 0x4D => plain false (z 47 0)
  | 0x60 => plain true (z 25 17 && z 16 0)
  | 0x61 => plain true (tUB w == 0 && z 25 17 && z 16 0)
  | 0x62 => plain true (tUB w == 0 && z 25 17 && z 16 0)
  | 0x63 => plain false (z 43 17 && z 16 0)
  | 0x64 => plain true (z 43 20 && z 16 0)
  | 0x65 => plain false (z 43 26 && z 19 17 && z 16 0)
  | 0x70 => plain false (z 47 0)
  | 0x71 => plain true (z 47 0)
  | 0x72 => plain false true
  | 0x73 => plain false (z 38 24)
  | 0x74 => plain false (z 47 24)
  | 0x75 => plain false (z 41 24)
  | 0x76 => plain false (z 41 0)
  | 0x77 => plain true (z 47 16)
  | 0x7E => plain false (z 47 0)
  | _ => false

/-- A word that Maelette-V defines (R153). -/
def vecDefined (w : Word64) : Bool := otherLegal w || vecForms.any (fun f => f.hasOpc w && f.legal w)

/-- A word that Maelette-S defines (R153, R173, R174). -/
def seqDefined (w : Word32) : Bool :=
  let z (hi lo : Nat) : Bool := bitsOf w hi lo == 0
  let sd := sSD w == 0
  let sa := sSA w == 0
  match sOPC w with
  | 0x01 => aluLegal w
  | 0x02 => true
  | 0x03 => true
  | 0x04 => true
  | 0x05 => true
  | 0x06 => sIMM w < 64
  | 0x07 => sIMM w < 64
  | 0x08 => sIMM w < 64
  | 0x09 => true
  | 0x0A => sa
  | 0x10 => true
  | 0x11 => true
  | 0x12 => true
  | 0x13 => true
  | 0x18 => true
  | 0x19 => true
  | 0x1A => true
  | 0x1B => true
  | 0x1C => true
  | 0x1D => true
  | 0x1E => true
  | 0x1F => true
  | 0x20 => sd && z 15 12 && sX12 w < 1800
  | 0x21 => sd && z 15 0
  | 0x22 => sd && z 15 12 && sX12 w < 1800
  | 0x23 => z 25 1
  | 0x24 => sd && z 15 0
  | 0x25 => z 20 0
  | 0x26 => sd && z 15 3
  | 0x27 => z 20 3
  | 0x28 => sd && z 15 6
  | 0x29 => sd && z 15 6
  | 0x2A => sd && z 15 6 && sX12 w < 36
  | 0x2B => sa && z 15 6 && sX12 w < 36
  | 0x2C => sa && z 15 6 && sX12 w < 36
  | 0x30 => z 20 0
  | 0x31 => z 20 0
  | 0x32 => z 20 0
  | 0x33 => sa && z 15 12
  | 0x34 => sd && z 15 12
  | 0x35 => z 25 12
  | 0x36 => z 25 0
  | 0x37 => z 25 0
  | 0x3E => z 25 0
  | _ => false

/-- ILLEGAL (R153): a word that the instruction set does not define is issued; the group takes ILLEGAL (R148), the
sequencer FAULTED with ILLEGAL (R188). A word that is defined is issued by its own instruction. -/
def execIllegal (i : IllegalWord) (s : State) : Host.Outcome State Fault Refusal :=
  s.commit (fun s =>
    match i with
    | .vector g w =>
      if vecDefined w then s else s.issue g w (fun s gr k => s.excPlain g gr k w Exc.ILLEGAL)
    | .sequencer t w => s.seqInstr t w (!seqDefined w) false id)

end Sys2Proof.Machine
end

