-- ==== Sys2Proof/Machine/Heads.lean ====
section
/-! DEFINITION. Headgates (R438 to R454), the holding ring and re-attachment (R456 to R459), and the turnout (R460 to R462). -/

namespace Sys2Proof.Machine

/-! ### Headgates -/

def State.head (s : State) (h : HeadId) : Head := (Assoc.get? s.heads.list h.val).getD Head.reset

def State.updHead (s : State) (h : HeadId) (f : Head → Head) : State :=
  { s with heads := { s.heads with list := Assoc.put id Head.reset s.heads.list h.val (f (s.head h)) } }

def State.hg (s : State) (h : HeadId) (f : Fld) : Nat := s.fld (.HG_STATUS h.val) f

def State.setHg (s : State) (h : HeadId) (f : Fld) (v : Nat) : State := s.setFld (.HG_STATUS h.val) f v

/-- The slots of a headgate's ring (R438). -/
def State.hgN (s : State) (h : HeadId) : Nat := 2 ^ s.fld (.HG_CFG h.val) F.HG_CFG_LOG2N

def State.hgLoc (s : State) (h : HeadId) : Nat := s.fld (.HG_CFG h.val) F.HG_CFG_LOC

def State.hgCtx (s : State) (h : HeadId) : Byte := BitVec.ofNat 8 (s.fld (.HG_CFG h.val) F.HG_CFG_CTX)

def State.hgHead (s : State) (h : HeadId) : Nat := s.fld (.HG_PTR h.val) F.HG_PTR_HEAD

def State.hgTail (s : State) (h : HeadId) : Nat := s.fld (.HG_PTR h.val) F.HG_PTR_TAIL

/-- The function that a headgate is bound to (R439). -/
def State.hgFunction (s : State) (h : HeadId) : FunctionId := funcId (s.fld (.HG_BIND h.val) F.HG_BIND_FUNCTION)

def State.setPortState (s : State) (p : HostPortId) (v cause : Nat) : State :=
  if p.val == 0 then (s.setFld .AT_STATE F.AT_STATE_PORT0 v).setFld .AT_STATE F.AT_STATE_CAUSE0 cause
  else (s.setFld .AT_STATE F.AT_STATE_PORT1 v).setFld .AT_STATE F.AT_STATE_CAUSE1 cause

/-- The host port of a ring in host memory. -/
def State.hgPort (s : State) (h : HeadId) : Option HostPortId :=
  match s.hgLoc h with
  | 0 => some 0
  | 1 => some 1
  | _ => none

/-- A headgate enters HALTED with a cause (R444). -/
def State.hgHalt (s : State) (h : HeadId) (cause : Nat) : State :=
  let s := (s.setHg h F.HG_STATUS_STATE 2).setHg h F.HG_STATUS_CAUSE cause
  (s.updHead h (fun x => { x with fetching := false, torn := false, refetches := 0 })).wmEvent 126 [] none

/-! ### Fetching (R438, R440, R442, R443) -/

/-- The headgate may fetch: RUNNING, slots rung, fewer than 4 fetched and not started, its function in D0. -/
def State.canFetch (s : State) (h : HeadId) : Bool :=
  let x := s.head h
  s.hg h F.HG_STATUS_STATE == 1 && s.fld (.HG_CFG h.val) F.HG_CFG_ENABLE == 1 && s.hgHead h != s.hgTail h && !x.fetching && !x.torn && !x.resetting &&
  (x.cmds.filter (fun c => !c.started)).length < 4 && !s.pf0.d3 && !(s.func (s.hgFunction h)).d3 && !s.safe

/-- The address of the slot at HEAD. -/
def State.slotAddr (s : State) (h : HeadId) : Nat := (s.rd (.HG_BASE h.val)).toNat / 4096 * 4096 + 128 * s.hgHead h

/-- A read of the slot at HEAD is issued; one that the port refuses halts the headgate. -/
def State.readSlot (s : State) (h : HeadId) : State :=
  let s := s.updHead h (fun x => { x with fetching := true, torn := false })
  match s.hgPort h with
  | some p => if s.portOk p (s.hgCtx h) false then s.emit (.hostRead p (s.slotAddr h) 128) else s.hgHalt h 2
  | none => s

/-- The next slot is fetched when it may be. -/
def State.fetchNext (s : State) (h : HeadId) : State := if s.canFetch h then s.readSlot h else s

/-- HEAD, TAIL, EXPPHASE and EXPSEQ start again and the headgate runs (R442, R444, R465). -/
def State.hgRestart (s : State) (h : HeadId) : State :=
  let s := (s.wr (.HG_PTR h.val) 0).updHead h (fun x => { x with fetching := false, torn := false, refetches := 0, resetting := false })
  (((s.setHg h F.HG_STATUS_EXPPHASE 1).setHg h F.HG_STATUS_EXPSEQ 0).setHg h F.HG_STATUS_STATE 1).setHg h F.HG_STATUS_CAUSE 0

/-- What follows once a command has left a headgate: INFLIGHT, a RESET that waited (R444), a disable that waited (R465), and
the next fetch. -/
def State.hgSettle (s : State) (h : HeadId) : State :=
  let n := ((s.head h).cmds.filter (fun c => c.started)).length
  let s := s.setHg h F.HG_STATUS_INFLIGHT n
  let s := if (s.head h).resetting && (s.head h).cmds.isEmpty then s.hgRestart h else s
  let s := if s.fld (.HG_CFG h.val) F.HG_CFG_ENABLE == 0 && n == 0 && s.hg h F.HG_STATUS_STATE != 0 then
      ((s.updHead h (fun _ => Head.reset)).setHg h F.HG_STATUS_STATE 0).setHg h F.HG_STATUS_CAUSE 0
    else s
  s.fetchNext h

/-- A write to a headgate's doorbell page goes through its page of PF0's BAR2 or of its VF's (R439, R440), and not past IDE
(R436). -/
def State.pageWrite (s : State) (h : HeadId) (go : State → State) : State :=
  if s.ideBars 0 then s.hostRefuse 0 4 0
  else if s.funcOpen .pf0 || (s.hgFunction h != .pf0 && s.funcOpen (s.hgFunction h)) then go s
  else s

/-- The headgate whose doorbell page is page n of a function's BAR2 (R439); none where no enabled headgate names the page. -/
def State.pageHead (s : State) (f : FunctionId) (n : Nat) : Option HeadId :=
  match f with
  | .pf0 => if hn : n < 1024 then some ⟨n, hn⟩ else none
  | .companion => none
  | .vf _ => (List.finRange 1024).find? (fun h => s.fld (.HG_CFG h.val) F.HG_CFG_ENABLE == 1 && s.hgFunction h == f &&
      s.fld (.HG_BIND h.val) F.HG_BIND_VFPAGE == n)

/-- What a read of 8 bytes of a doorbell page returns (R439, R440). -/
def State.pageRead (s : State) (f : FunctionId) (n off : Nat) : Word64 :=
  match s.pageHead f n with
  | some h => if off == 0x10 then (s.rd (.HG_PTR h.val)).setWidth 32 ++ (s.rd (.HG_STATUS h.val)).setWidth 32 else 0
  | none => 0

/-- A doorbell is acted on (R440): refused beyond the ring. -/
def State.ring (s : State) (h : HeadId) (v : Word32) : State :=
  let t := bitsOf v 15 0
  if s.hg h F.HG_STATUS_STATE == 0 then s
  else if s.hgN h ≤ t then s.setHg h F.HG_STATUS_BAD_DB 1
  else (s.setFld (.HG_PTR h.val) F.HG_PTR_TAIL t).fetchNext h

/-- A write that the port received through the turnout is not performed yet. -/
def State.turnoutBusy (s : State) : Bool := s.heads.writes.any (fun w => w.head == 1024)

/-- The port holds something back behind the turnout writes received so far (R441, R462). -/
def State.holdBack (s : State) (op : PortOp) : State :=
  { s with heads := { s.heads with held := s.heads.held ++ [(s.heads.seq, op)] } }

/-- A doorbell (R440, R441): the port acts on it after the turnout writes that it received earlier. -/
def State.doorbell (s : State) (h : HeadId) (v : Word32) : State :=
  s.pageWrite h (fun s => if s.turnoutBusy then s.holdBack (.doorbell h v) else s.ring h v)

def execDoorbell (h : HeadId) (v : Word32) (s : State) : Host.Outcome State Fault Refusal :=
  s.commit (fun s => s.doorbell h v)

/-- What a headgate's halt needs to be left by RESUME or RESET (R444). -/
def State.canLeave (s : State) (h : HeadId) : Bool :=
  s.hg h F.HG_STATUS_STATE == 2 && (match s.hg h F.HG_STATUS_CAUSE with
    | 1 => true
    | 2 => true
    | 3 => (match s.hgPort h with
      | some p => s.portState p == 0
      | none => true)
    | _ => false)

/-- CONTROL.RESUME (R444). -/
def State.resume (s : State) (h : HeadId) : State :=
  if s.canLeave h && !(s.head h).resetting then
    ((s.setHg h F.HG_STATUS_STATE 1).setHg h F.HG_STATUS_CAUSE 0).fetchNext h
  else s

def execResume (h : HeadId) (s : State) : Host.Outcome State Fault Refusal := s.commit (fun s => s.pageWrite h (·.resume h))

/-- CONTROL.RESET (R444): it waits until no command of the headgate is in flight. -/
def State.hgReset (s : State) (h : HeadId) : State :=
  if s.canLeave h then (s.updHead h (fun x => { x with resetting := true })).hgSettle h else s

def execHgReset (h : HeadId) (s : State) : Host.Outcome State Fault Refusal := s.commit (fun s => s.pageWrite h (·.hgReset h))

/-! ### Accesses of the unit (R448) -/

/-- A byte as a peek read returns it: a tile's or a rider core's modified copy, else memory (R360). -/
def State.peekByte (s : State) (a : Nat) : Byte :=
  let line := a / 64 * 64
  let held := (s.tiles.toList.findSome? (fun x => (x.atoms.find? (fun l => localOf l.addr == line && l.dirty)).map (fun l => l.bytes)))
  match held with
  | some bs => bs.getD (a % 64) 0
  | none =>
    match s.home.riderLines.find? (fun l => l.addr == line && l.dirty) with
    | some l => l.bytes.getD (a % 64) 0
    | none => s.rdByte a

/-- The status with which a read of n bytes inside a line of this chip is refused, 0 for none, with what it records. -/
def State.unitRefusal (s : State) (ctx : Byte) (a n : Nat) : Nat × State :=
  let line := a / 64 * 64
  if !s.backed a then (0x0B, s)
  else if (match placeOf a with | .tier2 g => s.fld (.T2_STATUS g.val) F.T2_STATUS_STATE == 2 | _ => false) then (0x09, s)
  else if (match placeOf a with | .slab t _ => s.schedMode t | _ => false) then (0x09, s)
  else if !s.ownerOk ctx a false then
    (0x07, s.ownerRefusal ctx a (match placeOf a with
      | .slab _ _ => none
      | _ => some (homeSlice a).val))
  else if (s.dirFind line).any (fun d => d.state == .lost) then (0x0A, s.lostAccess line ctx)
  else if (s.ueIn a n).isSome then
    (0x08, match placeOf a with
      | .slab t _ => s.slabUE t a [ctx]
      | .scratch _ => s.scratchUE line ctx
      | .tier2 g => s.tier2UE g line [ctx]
      | _ => s.hbmUE ⟨a / 256 % 8, Nat.mod_lt _ (by decide)⟩ line [ctx])
  else (0, s)

/-- Translation through the unit's range cache; a missing entry is walked (R448). -/
def State.unitTranslate (s : State) (ctx : Byte) (va : Nat) (acc : BitVec 4) : (Nat ⊕ (Target × Bool)) × State :=
  let s := match s.translate s.heads.rc false ctx (BitVec.ofNat 64 va) acc with
    | .miss =>
      match s.rangeWalk ctx va with
      | some e => { s with heads := { s.heads with rc := rcFill s.heads.rc e } }
      | none => s
    | _ => { s with heads := { s.heads with rc := rcUse s.heads.rc false ctx va } }
  (match s.translate s.heads.rc false ctx (BitVec.ofNat 64 va) acc with
   | .ok tgt count => .inr (tgt, count)
   | .permission => .inl 0x06
   | .miss => .inl 0x05, s)

/-- A command of a headgate is changed. -/
def State.updCmd (s : State) (h : HeadId) (slot : Nat) (f : HgCmd → HgCmd) : State :=
  s.updHead h (fun x => { x with cmds := x.cmds.map (fun c => if c.slot == slot then f c else c) })

/-- Tags that no write of the unit uses. -/
def State.unitTags (s : State) : Nat := 4096 - s.heads.writes.length

/-- The agent number of the unit: R346 gives it none, so a reserved one stands in (log entry 40). -/
def unitAgent : Byte := 255

/-- A write of bytes of one line leaves for its home or its slab. -/
def State.unitCoh (s : State) (h : Nat) (slot : Nat) (ctx : Byte) (tgt : Target) (cells : List (Nat × Byte)) : State :=
  let tag : BitVec 12 :=
    BitVec.ofNat 12 (((List.range 4096).find? (fun n => !s.heads.writes.any (fun w => w.tag.toNat == n))).getD 0)
  let mask := lineMask cells
  let line := tgt.addr / 64 * 64
  let f := s.flit 0 (if mask == 2 ^ 64 - 1 then 0x05 else 0x06) unitAgent (homeAgent (localOf line)) line tag
  ({ s with heads := { s.heads with
      seq := s.heads.seq + 1, writes := s.heads.writes ++ [(⟨s.heads.seq, tag, h, slot, ctx, tgt⟩ : UnitWrite)] } }).emit (.coh
    { f with
      ctx := ctx, hasData := true, data := lineData cells, byteMask := BitVec.ofNat 64 mask
      typ := match tgt.typ with
        | .normal => 0
        | .stream => 1
        | .device => 2 })

/-- A write of a command: the status with which it is not issued, 0 for none. A write toward a port that is detached marks its
command HOST_LOST (R456). -/
def State.unitWrite (s : State) (h : HeadId) (slot : Nat) (ctx : Byte) (tgt : Target) (cells : List (Nat × Byte)) :
    Nat × State :=
  let host (p : HostPortId) : Nat × State :=
    if s.portState p == 1 then (0x03, s)
    else if s.portOk p ctx false then
      (0, (s.hostSend p ctx (.head h slot) cells).updCmd h slot (fun c => { c with ports := c.ports.erase p ++ [p] }))
    else (0x09, s)
  match tgt.cls with
  | .host0 => host 0
  | .host1 => host 1
  | .peer =>
    if s.portState 0 == 1 then (0x03, s)
    else if s.portOk 0 ctx true then (0, s.hostSend 0 ctx (.head h slot) cells true) else (0x09, s)
  | .localMem =>
    if chipOf tgt.addr != s.chipId && (s.linkTo (chipOf tgt.addr)).isNone then (0x09, s)
    else (0, s.unitCoh h.val slot ctx tgt cells)

/-- Bytes that a command reads; data from outside this block comes with the command. -/
def State.unitRead (s : State) (ctx : Byte) (tgt : Target) (n : Nat) (outside : List Byte) : (Nat ⊕ List Byte) × State :=
  let host (p : HostPortId) : (Nat ⊕ List Byte) × State :=
    if s.portState p == 1 then (.inl 0x03, s)
    else if s.portOk p ctx false then (.inr outside, s.emit (.hostRead p tgt.addr n))
    else (.inl 0x09, s)
  match tgt.cls with
  | .host0 => host 0
  | .host1 => host 1
  | .peer =>
    if s.portState 0 == 1 then (.inl 0x03, s)
    else if s.portOk 0 ctx true then (.inr outside, s.emit (.peerRead tgt.addr n)) else (.inl 0x09, s)
  | .localMem =>
    if chipOf tgt.addr != s.chipId then
      if (s.linkTo (chipOf tgt.addr)).isNone then (.inl 0x09, s) else (.inr outside, s)
    else
      let a := localOf tgt.addr
      match s.unitRefusal ctx a n with
      | (0, s) => (.inr ((List.range n).map (fun i => s.peekByte (a + i))), s)
      | (st, s) => (.inl st, s)

/-! ### Fetched slots -/

/-- The slot of a ring in device memory (R438): none where a read is refused or meets an uncorrectable error. -/
def State.deviceSlot (s : State) (h : HeadId) : Option (List Byte) × State :=
  let a := s.slotAddr h
  let (r0, s) := s.unitRefusal (s.hgCtx h) a 64
  let (r1, s) := if r0 == 0 then s.unitRefusal (s.hgCtx h) (a + 64) 64 else (r0, s)
  if r1 == 0 && a + 128 ≤ 0x9000000000 then (some ((List.range 128).map (fun i => s.peekByte (a + i))), s) else (none, s)

/-- Byte i of a slot. -/
def byteAt (bs : List Byte) (i : Nat) : Nat := (bs.getD i 0).toNat

/-- The n-byte field of a slot at an offset (R445). -/
def slotField (bs : List Byte) (off n : Nat) : Nat := leNat ((bs.drop off).take n)

/-- The 16 bytes of a completion record (R451). -/
def State.recordBytes (s : State) (bs : List Byte) (status tile detail : Nat) : List Byte :=
  leBytes 1 status ++ leBytes 1 (byteAt bs 1 % 2 + 2 * tile) ++ leBytes 1 (byteAt bs 2) ++ leBytes 1 detail ++
    (bs.drop 4).take 4 ++ leBytes 8 s.timestamp.toNat

/-- The headgate's vector is requested (R453); a VF has vectors 0 to 31. -/
def State.hgIrq (s : State) (h : HeadId) : State :=
  let fn := s.fld (.HG_BIND h.val) F.HG_BIND_FUNCTION
  let v := s.fld (.HG_BIND h.val) F.HG_BIND_VECTOR
  if fn != 0 && 31 < v then s
  else s.msixAfter (funcId fn) v (fun w => match w.src with
    | .head g _ => g == h
    | _ => false)

/-- A record enters the holding ring (R458). -/
def State.holdRecord (s : State) (h : HeadId) (slot : Nat) (p : HostPortId) (addr : Nat) (irq torn : Bool)
    (rec_ : List Byte) : State :=
  let tail := s.fld .HR_TAIL F.HR_TAIL_VALUE % 65536
  let a := s.fld .HR_BASE F.HR_BASE_REGION * 2 ^ 21 + 32 * tail
  let flags := p.val + (if irq then 2 else 0) + (if torn then 4 else 0)
  let s := s.wrBytes a (rec_ ++ leBytes 8 (addr % 2 ^ 52) ++ leBytes 2 h.val ++ leBytes 2 slot ++ leBytes 1 flags ++ [0, 0, 0])
  let n := s.fld .HR_COUNT F.HR_COUNT_VALUE + 1
  let s := (s.setFld .HR_TAIL F.HR_TAIL_VALUE ((tail + 1) % 65536)).setFld .HR_COUNT F.HR_COUNT_VALUE n
  let s := if n == 65536 then (s.setFld .HGU_STATUS F.HGU_STATUS_HR_FULL 1).wmEvent 127 [] none else s
  if s.heads.wakeDue then ({ s with heads := { s.heads with wakeDue := false } }).wake else s

def State.hrFull (s : State) : Bool := s.fld .HGU_STATUS F.HGU_STATUS_HR_FULL == 1

/-- The record of a slot given up as TORN goes to HG_ERRREC, and the vector is requested once it is performed (R443, R453). With
a full holding ring the record waits (R458). -/
def State.tornRecord (s : State) (h : HeadId) (bs : List Byte) : State :=
  let va := (s.rd (.HG_ERRREC h.val)).toNat / 16 * 16
  let rec_ := s.recordBytes bs 2 0 0
  if va == 0 then s.hgIrq h
  else
    match s.unitTranslate (s.hgCtx h) va accW with
    | (.inl _, s) => s.hgIrq h
    | (.inr (tgt, _), s) =>
      let cells := rec_.mapIdx (fun i b => (tgt.addr + i, b))
      let host (p : HostPortId) : State :=
        if s.portState p != 0 then
          if s.hrFull then s.updHead h (fun x => { x with tornRec := some (p, tgt.addr, rec_) })
          else s.holdRecord h (s.hgHead h) p tgt.addr true true rec_
        else (if s.portOk p (s.hgCtx h) false then s.hostSend p (s.hgCtx h) (.head h (s.hgHead h)) cells else s).hgIrq h
      match tgt.cls with
      | .host0 => host 0
      | .host1 => host 1
      | .peer => ((s.unitWrite h (s.hgHead h) (s.hgCtx h) tgt cells).2).hgIrq h
      | .localMem =>
        match s.unitWrite h (s.hgHead h) (s.hgCtx h) tgt cells with
        | (0, s) => s.updHead h (fun x => { x with tornIrq := true })
        | (_, s) => s.hgIrq h

/-- A slot is valid (R442). -/
def State.slotValid (s : State) (h : HeadId) (bs : List Byte) : Bool :=
  byteAt bs 1 % 2 == s.hg h F.HG_STATUS_EXPPHASE && byteAt bs 2 == s.hg h F.HG_STATUS_EXPSEQ

/-- A valid slot is consumed (R442). -/
def State.consume (s : State) (h : HeadId) (bs : List Byte) : State :=
  let slot := s.hgHead h
  let next := (slot + 1) % s.hgN h
  let s := s.updHead h (fun x =>
    { x with
      fetching := false, torn := false, refetches := 0
      cmds := x.cmds ++ [{ slot := slot, bytes := bs, started := false, start := 0, hostLost := false, done := 0
                           tiles := [], failed := [], result := none, ports := [], record := false }] })
  let s := (s.setFld (.HG_PTR h.val) F.HG_PTR_HEAD next).setHg h F.HG_STATUS_EXPSEQ ((s.hg h F.HG_STATUS_EXPSEQ + 1) % 256)
  let s := if next == 0 then s.setHg h F.HG_STATUS_EXPPHASE (1 - s.hg h F.HG_STATUS_EXPPHASE) else s
  s.fetchNext h

/-- SLOT_FETCH_RETURN (R438, R442 to R444): the slot at HEAD has been read. A ring in device memory is read here. -/
def execSlotFetchReturn (h : HeadId) (r : FetchResult) (s : State) : Host.Outcome State Fault Refusal :=
  s.commit (fun s =>
    if !(s.head h).fetching then s
    else
      let (bs, s) := match r, s.hgLoc h with
        | .failed, _ => (none, s)
        | .slot _, 2 => s.deviceSlot h
        | .slot bs, _ => (some bs, s)
      match bs with
      | none => s.hgHalt h 2
      | some bs =>
        if s.slotValid h bs then s.consume h bs
        else if 16 ≤ (s.head h).refetches then (s.tornRecord h bs).hgHalt h 1
        else s.updHead h (fun x => { x with fetching := false, torn := true }))

/-- REFETCH (R443): re-fetch of a slot that was not valid. -/
def execRefetch (h : HeadId) (s : State) : Host.Outcome State Fault Refusal :=
  s.commit (fun s =>
    let x := s.head h
    if x.torn && s.hg h F.HG_STATUS_STATE == 1 && !s.pf0.d3 && !s.safe then
      (s.updHead h (fun x => { x with refetches := x.refetches + 1 })).readSlot h
    else s)

/-! ### Commands (R445 to R450) -/

def HgCmd.opc (c : HgCmd) : Nat := byteAt c.bytes 0
def HgCmd.irq (c : HgCmd) : Bool := byteAt c.bytes 1 / 2 % 2 == 1
def HgCmd.order (c : HgCmd) : Bool := byteAt c.bytes 1 / 4 % 2 == 1
def HgCmd.caddr (c : HgCmd) : Nat := slotField c.bytes 8 8
def HgCmd.a0 (c : HgCmd) : Nat := slotField c.bytes 16 8
def HgCmd.a1 (c : HgCmd) : Nat := slotField c.bytes 24 8
def HgCmd.len (c : HgCmd) : Nat := byteAt c.bytes 3
def HgCmd.length (c : HgCmd) : Nat := slotField c.bytes 32 8

/-- The command ends with BAD_CMD (R446). -/
def HgCmd.bad (c : HgCmd) : Bool :=
  let body (from_ : Nat) : Bool := (c.bytes.drop from_).all (· == 0)
  let common := 8 ≤ byteAt c.bytes 1 || c.caddr % 16 != 0 || (c.opc != 3 && c.len != 0)
  common || (match c.opc with
    | 1 => c.a0 != 0 || c.a1 != 0 || !body 32
    | 2 => c.length == 0 || 2 ^ 40 < c.length || !body 40
    | 3 => c.len == 0 || 96 < c.len || c.a1 != 0
    | 4 => 2 ^ 25 ≤ c.a0 || c.a0 / 2 ^ 6 % 4 != 0 || c.a0 / 2 ^ 14 % 4 != 0 || 48 ≤ c.a0 / 256 % 64 || !body 32
    | 5 => 2 ^ 14 ≤ c.a0 || c.a0 / 2 ^ 6 % 4 != 0 || 48 ≤ c.a0 / 256 % 64 || !body 32
    | 6 => 2 ^ 48 ≤ c.a0 || !body 32
    | _ => true)

/-- The record of a command is ready but for room in the holding ring. -/
def State.recordWaits (s : State) (h : HeadId) : Bool :=
  s.hrFull && ((s.head h).cmds.any (fun c => c.started && c.result.isSome && !c.record) || (s.head h).tornRec.isSome)

/-- The command that a headgate may start (R447). -/
def State.ready (s : State) (h : HeadId) : Option HgCmd :=
  let x := s.head h
  if 8 ≤ (x.cmds.filter (fun c => c.started)).length || s.recordWaits h then none
  else
    match x.cmds.find? (fun c => !c.started) with
    | some c => if c.order && x.cmds.any (fun d => d.started) then none else some c
    | none => none

/-- Among the headgates with a command ready, the next in round-robin order (R447). -/
def State.nextHead (s : State) : Option Nat :=
  let rs := (s.heads.list.map (fun x => x.1)).filter (fun n =>
    if hn : n < 1024 then (s.ready ⟨n, hn⟩).isSome else false)
  match rs.find? (fun n => s.heads.last < n) with
  | some n => some n
  | none => rs.head?

/-- COMMAND_START (R446, R447, R573). -/
def execCommandStart (h : HeadId) (s : State) : Host.Outcome State Fault Refusal :=
  s.commit (fun s =>
    match s.ready h with
    | none => s
    | some c =>
      if s.nextHead != some h.val then s
      else
        let s := if s.fld .OBS_CTRL F.OBS_CTRL_RST_MODE == 2 then s.clearCounts (fun _ => true) else s
        let s := { s with heads := { s.heads with last := h.val } }
        let now := s.timestamp
        let s := s.updCmd h c.slot (fun c =>
          { c with started := true, start := now, result := if c.bad then some (0x04, 0, 0) else none })
        s.hgSettle h)

/-- A started command of an operation that has not ended. -/
def State.running (s : State) (h : HeadId) (slot : Nat) (opc : Nat) : Option HgCmd :=
  (s.head h).cmds.find? (fun c => c.slot == slot && c.started && c.result.isNone && c.opc == opc)

/-- A command's work ends with a status; HOST_LOST is also a mark (R456). -/
def State.endCmd (s : State) (h : HeadId) (slot : Nat) (status : Nat) : State :=
  s.updCmd h slot (fun c =>
    { c with result := some (status, 0, 0), hostLost := c.hostLost || status == 0x03 })

def hgFailStatus : HgFail → Nat
  | .data => 0x08
  | .port => 0x09
  | .unmapped => 0x0C
  | .hostLost => 0x03

/-- HG_NOP (R446). -/
def execHgNop (h : HeadId) (slot : Word16) (s : State) : Host.Outcome State Fault Refusal :=
  s.commit (fun s =>
    match s.running h slot.toNat 1 with
    | some _ => s.endCmd h slot.toNat 0x01
    | none => s)

/-- A span cut where either address meets a line's end: offset and length of each part. -/
def cutLines (a b : Nat) : Nat → Nat → Nat → List (Nat × Nat)
  | 0, _, _ => []
  | fuel + 1, off, n =>
    if n = 0 then []
    else
      let k := min n (min (64 - (a + off) % 64) (64 - (b + off) % 64))
      (off, k) :: cutLines a b fuel (off + k) (n - k)

/-- One part of a COPY. -/
def State.copyPart (s : State) (h : HeadId) (c : HgCmd) (off n : Nat) (outside : List Byte) : Nat × State :=
  let ctx := s.hgCtx h
  match s.unitTranslate ctx ((c.a0 + off) % 2 ^ 64) accR with
  | (.inl st, s) => (st, s)
  | (.inr (src, cs), s) =>
    match s.unitTranslate ctx ((c.a1 + off) % 2 ^ 64) accW with
    | (.inl st, s) => (st, s)
    | (.inr (dst, cd), s) =>
      let s := if cs && src.cls != .localMem then s.countAccess ctx (c.a0 + off) else s
      match s.unitRead ctx src n outside with
      | (.inl st, s) => (st, s)
      | (.inr bs, s) =>
        let s := if cd && dst.cls != .localMem then s.countAccess ctx (c.a1 + off) else s
        s.unitWrite h c.slot ctx dst (bs.mapIdx (fun i b => (dst.addr + i, b)))

/-- HG_COPY (R446, R448): the next lines of a COPY, as many as the unit has tags for; hostData holds their bytes where the
source is not this block's memory. -/
def execHgCopy (h : HeadId) (slot : Word16) (hostData : List Byte) (fail : Option HgFail) (s : State) :
    Host.Outcome State Fault Refusal :=
  s.commit (fun s =>
    match s.running h slot.toNat 2 with
    | none => s
    | some c =>
      match fail with
      | some f => s.endCmd h c.slot (hgFailStatus f)
      | none =>
        let parts := cutLines (c.a0 + c.done) (c.a1 + c.done) s.unitTags 0 (c.length - c.done)
        let go (x : Nat × Nat × State) (p : Nat × Nat) : Nat × Nat × State :=
          if x.1 != 0 then x
          else
            let (st, s) := x.2.2.copyPart h c (c.done + p.1) p.2 ((hostData.drop p.1).take p.2)
            (st, if st == 0 then x.2.1 + p.2 else x.2.1, s)
        let (st, moved, s) := parts.foldl go (0, 0, s)
        let s := s.updCmd h c.slot (fun c => { c with done := c.done + moved })
        if st != 0 then s.endCmd h c.slot st
        else if c.length ≤ c.done + moved then s.endCmd h c.slot 0x01
        else s)

/-- HG_INLINE (R446, R450): one write per line. -/
def execHgInline (h : HeadId) (slot : Word16) (fail : Option HgFail) (s : State) : Host.Outcome State Fault Refusal :=
  s.commit (fun s =>
    match s.running h slot.toNat 3 with
    | none => s
    | some c =>
      match fail with
      | some f => s.endCmd h c.slot (hgFailStatus f)
      | none =>
        let parts := cutLines c.a0 c.a0 3 0 c.len
        let go (x : Nat × State) (p : Nat × Nat) : Nat × State :=
          if x.1 != 0 then x
          else
            match x.2.unitTranslate (x.2.hgCtx h) ((c.a0 + p.1) % 2 ^ 64) accW with
            | (.inl st, s) => (st, s)
            | (.inr (dst, cd), s) =>
              let s := if cd && dst.cls != .localMem then s.countAccess (s.hgCtx h) (c.a0 + p.1) else s
              s.unitWrite h c.slot (s.hgCtx h) dst
                (((c.bytes.drop (32 + p.1)).take p.2).mapIdx (fun i b => (dst.addr + i, b)))
        if s.unitTags < 3 then s
        else
          let (st, s) := parts.foldl go (0, s)
          s.endCmd h c.slot (if st == 0 then 0x01 else st))

/-- HG_SIGNAL (R446): an add to a tile signal, as an open-mode SIGNAL descriptor sends it. -/
def execHgSignal (h : HeadId) (slot : Word16) (s : State) : Host.Outcome State Fault Refusal :=
  s.commit (fun s =>
    match s.running h slot.toNat 4 with
    | none => s
    | some c =>
      let chip := c.a0 / 2 ^ 16 % 512
      let tile := c.a0 / 256 % 64
      let sig := c.a0 % 64
      if chip != s.chipId && (s.linkTo chip).isNone then s.endCmd h c.slot 0x09
      else
        let addr := chip * 2 ^ 43 + slabBase + tile * 0x800000 + sig * 8
        let f := s.flit 0 0x0A unitAgent (BitVec.ofNat 8 tile) addr 0
        (s.emit (.coh { f with ctx := s.hgCtx h, opA := BitVec.ofNat 64 c.a1, opB := BitVec.ofNat 64 sig })).endCmd
          h c.slot 0x01)

/-- HG_WAIT (R446): the signal is at least the value. -/
def execHgWait (h : HeadId) (slot : Word16) (s : State) : Host.Outcome State Fault Refusal :=
  s.commit (fun s =>
    match s.running h slot.toNat 5 with
    | none => s
    | some c =>
      let t : TileId := ⟨c.a0 / 256 % 64 % 48, Nat.mod_lt _ (by decide)⟩
      if c.a1 ≤ (s.signal t (c.a0 % 64)).toNat then s.endCmd h c.slot 0x01 else s)

/-- A kernel launched on a tile for a headgate (R194, R195, R449): its tags are the command's. -/
def State.hgLaunch (s : State) (t : TileId) (c : HgCmd) : State :=
  let off := c.a1
  let x := s.rdBytes (slabAddr t off) 64
  let k := { Kernel.ofBytes x off false with
    layer := BitVec.ofNat 16 (slotField c.bytes 4 2), operator := BitVec.ofNat 16 (slotField c.bytes 6 2) }
  let st := s.launchStatus t off x k
  let s := if off % 64 == 0 && off < slabSize && (s.ueIn (slabAddr t off) 64).isSome
    then s.slabUE t (slabAddr t off) [0] else s
  (s.updTile t (fun x => { x with kernel := some { k with status := st } })).setFld (.SQ_STATUS t.val) F.SQ_STATUS_KERNEL 1

/-- KERNEL (R449). -/
def execKernel (h : HeadId) (slot : Word16) (s : State) : Host.Outcome State Fault Refusal :=
  s.commit (fun s =>
    match s.running h slot.toNat 6 with
    | none => s
    | some c =>
      if !c.tiles.isEmpty then s
      else
        let ts := (List.finRange 48).filter (fun t => c.a0 / 2 ^ t.val % 2 == 1)
        let busy (t : TileId) : Bool :=
          s.schedMode t || s.seqState t == Seq.RUNNING || (s.tile t).kernel.isSome || (s.tile t).inReset
        let other (t : TileId) : Bool := c.a1 % 64 == 0 && c.a1 < slabSize && s.rdByte (slabAddr t (c.a1 + 28)) != s.hgCtx h
        if ts.any busy then s.endCmd h c.slot 0x0E
        else if ts.any other then s.endCmd h c.slot 0x0D
        else if ts.isEmpty then s.endCmd h c.slot 0x01
        else
          (ts.foldl (fun s t => s.hgLaunch t c) s).updCmd h c.slot (fun c => { c with tiles := ts }))

/-! ### Completion (R451 to R454) -/

/-- Nothing that a command has written is unperformed. -/
def State.cmdPerformed (s : State) (h : HeadId) (slot : Nat) : Bool :=
  !s.hostWrites.any (fun w => w.src == .head h slot) && !s.heads.writes.any (fun w => w.head == h.val && w.slot == slot)

/-- A command is complete: its vector is requested when it asked for it (R453), and the headgate goes on. -/
def State.cmdDone (s : State) (h : HeadId) (c : HgCmd) (irq : Bool) : State :=
  let s := s.updHead h (fun x => { x with cmds := x.cmds.filter (fun d => d.slot != c.slot) })
  (if irq && c.irq then s.hgIrq h else s).hgSettle h

/-- The record of a command leaves, or is held, once the command's work and its writes are done; a command with no record, or
with one that no range takes, completes without. -/
def State.writeRecord (s : State) (h : HeadId) (c : HgCmd) : State :=
  let (st, tile, detail) := c.result.getD (0, 0, 0)
  let rec_ := s.recordBytes c.bytes (if c.hostLost then 0x03 else st) (if c.hostLost then 0 else tile)
    (if c.hostLost then 0 else detail)
  let sent (s : State) : State := s.updCmd h c.slot (fun c => { c with record := true })
  if c.caddr == 0 then s.cmdDone h c true
  else
    match s.unitTranslate (s.hgCtx h) c.caddr accW with
    | (.inl _, s) => s.cmdDone h c true
    | (.inr (tgt, _), s) =>
      let cells := rec_.mapIdx (fun i b => (tgt.addr + i, b))
      let host (p : HostPortId) : State :=
        let p := c.ports.getLast?.getD p
        if s.portState p != 0 then
          if s.hrFull then s
          else (s.holdRecord h c.slot p tgt.addr c.irq false rec_).cmdDone h c false
        else if s.portOk p (s.hgCtx h) false then sent (s.hostSend p (s.hgCtx h) (.head h c.slot) cells)
        else s.cmdDone h c true
      match tgt.cls with
      | .host0 => host 0
      | .host1 => host 1
      | .peer =>
        if !s.portOk 0 (s.hgCtx h) true then s.cmdDone h c true
        else if s.holdsWrites then sent (s.hostSend 0 (s.hgCtx h) (.head h c.slot) cells true)
        else (s.hostSend 0 (s.hgCtx h) (.head h c.slot) cells true).cmdDone h c true
      | .localMem =>
        if chipOf tgt.addr != s.chipId && (s.linkTo (chipOf tgt.addr)).isNone then s.cmdDone h c true
        else if s.unitTags == 0 then s
        else sent (s.unitCoh h.val c.slot (s.hgCtx h) tgt cells)

/-- COMPLETION_RECORD (R451 to R453): the record of a command whose work has ended is written once its writes are performed, and
the command completes once the record is. -/
def execCompletionRecord (h : HeadId) (slot : Word16) (s : State) : Host.Outcome State Fault Refusal :=
  s.commit (fun s =>
    match (s.head h).cmds.find? (fun c => c.slot == slot.toNat && c.started && c.result.isSome) with
    | none => s
    | some c =>
      if !s.cmdPerformed h c.slot then s
      else if c.record then s.cmdDone h c true
      else s.writeRecord h c)

/-! ### Enabling (R465, R497) -/

/-- The cause for which a headgate's enable is refused. -/
def State.hgEnableBad (s : State) (h : HeadId) : Bool :=
  let log := s.fld (.HG_CFG h.val) F.HG_CFG_LOG2N
  let base := (s.rd (.HG_BASE h.val)).toNat / 4096 * 4096
  let c := s.hgCtx h
  let fn := s.fld (.HG_BIND h.val) F.HG_BIND_FUNCTION
  let page (g : HeadId) : Nat := s.fld (.HG_BIND g.val) F.HG_BIND_VFPAGE
  log < 4 || 16 < log || base % max 4096 (2 ^ log * 128) != 0 || s.hgLoc h == 3 || !s.ctxValid c || s.revoked c ||
  s.fld (.CTX_ENTRY1 c.toNat) F.CTX_ENTRY1_FUNCTION != fn || s.pf0.numVfs < fn ||
  (fn != 0 && (List.finRange 1024).any (fun g => g != h && s.fld (.HG_CFG g.val) F.HG_CFG_ENABLE == 1 &&
    s.fld (.HG_BIND g.val) F.HG_BIND_FUNCTION == fn && page g == page h)) ||
  (match s.hgPort h with
   | some p => !s.portCarries p c
   | none => false)

/-- A write of 1 to HG_CFG.ENABLE. -/
def State.hgEnable (s : State) (h : HeadId) : State :=
  if s.fld (.HG_CFG h.val) F.HG_CFG_ENABLE == 1 then s
  else if s.hgEnableBad h then s.setFld .HGU_STATUS F.HGU_STATUS_CFG_ERR 1
  else (s.setFld (.HG_CFG h.val) F.HG_CFG_ENABLE 1).hgRestart h

def execHgEnable (h : HeadId) (s : State) : Host.Outcome State Fault Refusal := s.commit (fun s => s.hgEnable h)

/-- A write of 0 to HG_CFG.ENABLE: fetching stops, and slots fetched and not started are dropped. -/
def State.hgDisable (s : State) (h : HeadId) : State :=
  if s.fld (.HG_CFG h.val) F.HG_CFG_ENABLE == 0 then s
  else
    ((s.setFld (.HG_CFG h.val) F.HG_CFG_ENABLE 0).updHead h (fun x =>
      { x with fetching := false, torn := false, resetting := false, cmds := x.cmds.filter (fun c => c.started) })).hgSettle h

def execHgDisable (h : HeadId) (s : State) : Host.Outcome State Fault Refusal := s.commit (fun s => s.hgDisable h)

/-! ### Re-attachment (R459) -/

/-- A port becomes ATTACHED: the agent is live again (R373). -/
def State.attached (s : State) (p : HostPortId) : State :=
  let s := (s.setPortState p 0 0).agentLives (72 + p.val)
  { s with heads := { s.heads with mode := s.heads.mode.set p.val 0 p.isLt, delivering := none } }

def State.setMode (s : State) (p : HostPortId) (m : Nat) : State :=
  { s with heads := { s.heads with mode := s.heads.mode.set p.val m p.isLt } }

/-- The holding ring has room: TORN records that waited for it enter, the lowest headgate first (R458). -/
def State.ringFreed (s : State) : State :=
  (s.heads.list.map (fun x => x.1)).foldl (fun s n =>
    if hn : n < 1024 then
      match (s.head ⟨n, hn⟩).tornRec with
      | some (p, a, bs) =>
        if s.hrFull then s
        else (s.holdRecord ⟨n, hn⟩ (s.hgHead ⟨n, hn⟩) p a true true bs).updHead ⟨n, hn⟩ (fun x => { x with tornRec := none })
      | none => s
    else s) s

/-- An entry has left the holding ring. -/
def State.popEntry (s : State) : State :=
  let n := s.fld .HR_COUNT F.HR_COUNT_VALUE - 1
  let s := s.setFld .HR_HEAD F.HR_HEAD_VALUE ((s.fld .HR_HEAD F.HR_HEAD_VALUE + 1) % 65536)
  ((s.setFld .HR_COUNT F.HR_COUNT_VALUE n).setFld .HGU_STATUS F.HGU_STATUS_HR_FULL 0).ringFreed

/-- The entry at HR_HEAD. -/
def State.ringEntry (s : State) : List Byte :=
  s.rdBytes (s.fld .HR_BASE F.HR_BASE_REGION * 2 ^ 21 + 32 * (s.fld .HR_HEAD F.HR_HEAD_VALUE % 65536)) 32

/-- DELIVER writes the entry at HR_HEAD, or the port is ATTACHED when there is none. -/
def State.deliverNext (s : State) (p : HostPortId) : State :=
  if s.fld .HR_COUNT F.HR_COUNT_VALUE == 0 then s.attached p
  else
    let e := s.ringEntry
    let addr := slotField e 16 8 % 2 ^ 52
    let n := s.ioNext
    ({ s with heads := { s.heads with delivering := some n } }).hostSend p 0 .block
      ((e.take 16).mapIdx (fun i b => (addr + i, b)))

/-- A write of AT_ATTACH. -/
def State.attach (s : State) (v : Word32) : State :=
  let p : HostPortId := if v.getLsbD 2 then 1 else 0
  let m := bitsOf v 1 0
  if m == 0 || m == 3 then s
  else if bitsOf v 31 8 != s.fld .AT_GEN F.AT_GEN_GEN % 2 ^ 24 || s.portState p == 0 || !s.groupUp p.val then
    s.setFld .HGU_STATUS F.HGU_STATUS_AT_ERR 1
  else if m == 1 then (s.setMode p 1).deliverNext p
  else if s.fld .HR_COUNT F.HR_COUNT_VALUE == 0 then s.attached p
  else s.setMode p 2

/-- DELIVER: AT_ATTACH with MODE 1. -/
def execDeliver (v : Word32) (s : State) : Host.Outcome State Fault Refusal :=
  s.commit (fun s => if bitsOf v 1 0 == 1 then s.attach v else s)

/-- COLLECT: AT_ATTACH with MODE 2. -/
def execCollect (v : Word32) (s : State) : Host.Outcome State Fault Refusal :=
  s.commit (fun s => if bitsOf v 1 0 == 2 then s.attach v else s)

/-- HOLDING_ENTRY_DELIVERED (R459): DELIVER's write has been performed. -/
def execHoldingEntryDelivered (s : State) : Host.Outcome State Fault Refusal :=
  s.commit (fun s =>
    match s.heads.delivering, (List.finRange 2).find? (fun p => s.heads.mode[p] == 1) with
    | some id, some p =>
      if s.hostWrites.any (fun w => w.id == id) then s
      else
        let e := s.ringEntry
        let h : HeadId := ⟨slotField e 24 2 % 1024, Nat.mod_lt _ (by decide)⟩
        let s := if byteAt e 28 / 2 % 2 == 1 then s.hgIrq h else s
        s.popEntry.deliverNext p
    | _, _ => s)

/-- A write of HR_HEAD (R459, R464). -/
def State.hrHeadWrite (s : State) (v : Word32) : State :=
  match (List.finRange 2).find? (fun p => s.heads.mode[p] == 2) with
  | some p =>
    let n := s.fld .HR_COUNT F.HR_COUNT_VALUE
    if n == 0 || bitsOf v 16 0 != (s.fld .HR_HEAD F.HR_HEAD_VALUE + 1) % 65536 then s
    else
      let s := s.popEntry
      if s.fld .HR_COUNT F.HR_COUNT_VALUE == 0 then s.attached p else s
  | none => s

def execHrHeadWrite (v : Word32) (s : State) : Host.Outcome State Fault Refusal := s.commit (fun s => s.hrHeadWrite v)

/-! ### The turnout (R460 to R462) -/

/-- First offset of a turnout entry and the offset after its last. -/
def State.toSpan (s : State) (e : Nat) : Nat × Nat :=
  let a := s.fld (.TO_APER e) F.TO_APER_START * 4096
  (a, a + s.fld (.TO_PAGES e) F.TO_PAGES_PAGES * 4096)

def State.toOn (s : State) (e : Nat) : Bool := s.fld (.TO_CFG e) F.TO_CFG_ENABLE == 1

def State.toCtx (s : State) (e : Nat) : Byte := BitVec.ofNat 8 (s.fld (.TO_CFG e) F.TO_CFG_CTX)

/-- A write of 1 to TO_CFG.ENABLE (R460, R497). -/
def State.toEnable (s : State) (e : Fin 256) : State :=
  let (a, b) := s.toSpan e.val
  let overlaps (f : Nat) : Bool := f != e.val && s.toOn f && (s.toSpan f).1 < b && a < (s.toSpan f).2
  if s.toOn e.val then s
  else if 2 ^ 34 < b || a == b || (List.range 256).any overlaps || !s.ctxValid (s.toCtx e.val) || !s.portCarries 0 (s.toCtx e.val) then
    s.setFld .HGU_STATUS F.HGU_STATUS_TO_ERR 1
  else s.setFld (.TO_CFG e.val) F.TO_CFG_ENABLE 1

def execToEnable (e : Fin 256) (s : State) : Host.Outcome State Fault Refusal := s.commit (fun s => s.toEnable e)

/-- A refused request of the turnout: Unsupported Request, counted twice (R423, R461). -/
def State.toRefuse (s : State) (cause line : Nat) : State :=
  (s.countUp .TO_REFUSE F.TO_REFUSE_COUNT).hostRefuse 0 cause line

/-- Where n bytes at an aperture offset lie: the entry's context and a device address inside one LOCAL range, or the cause of
the refusal. -/
def State.toFind (s : State) (off n : Nat) (write : Bool) : Nat ⊕ (Byte × Target) :=
  match (List.range 256).find? (fun e => s.toOn e && (s.toSpan e).1 ≤ off && off + n ≤ (s.toSpan e).2) with
  | none => .inl 0
  | some e =>
    let c := s.toCtx e
    let va := (s.rd (.TO_VBASE e)).toNat / 4096 * 4096 + (off - (s.toSpan e).1)
    let may := (if write then s.fld (.TO_CFG e) F.TO_CFG_W else s.fld (.TO_CFG e) F.TO_CFG_RD) == 1
    let acc := if write then accW else accR
    if !may then .inl 0
    else if s.revoked c then .inl 5
    else if c == 0 then
      .inr (0, ⟨.localMem, va % 2 ^ 52, MemType.stricter 0 (s.windowType .localMem (va % 2 ^ 52))⟩)
    else
      match s.rangeWalk c va with
      | none => .inl 0
      | some x =>
        if x.cls != .localMem || x.perm &&& acc != acc || x.vstart + x.pages * 4096 < va + n then .inl 0
        else
          let a := (x.pstart + (va - x.vstart)) % 2 ^ 52
          .inr (c, ⟨.localMem, a, MemType.stricter x.typ.toNat (s.windowType .localMem a)⟩)

/-- The lines of this block that a span touches are backed and pass the owner check; a span on another chip is checked there. -/
def State.toOwner (s : State) (c : Byte) (tgt : Target) (n : Nat) (write : Bool) : Nat ⊕ Unit :=
  if chipOf tgt.addr != s.chipId then (if (s.linkTo (chipOf tgt.addr)).isNone then .inl 0 else .inr ())
  else
    let a := localOf tgt.addr
    let lines := (List.range ((a % 64 + n + 63) / 64)).map (fun i => a / 64 * 64 + 64 * i)
    if !lines.all s.backed then .inl 0
    else if !lines.all (fun l => s.ownerOk c l write) then .inl 1
    else .inr ()

/-- TURNOUT_WRITE (R461, R462): a write received on BAR4 of PF0. Its lines leave as writes of the unit; the port has no credit
for one that the unit has no tags for. -/
def execTurnoutWrite (off : BitVec 34) (data : List Byte) (s : State) : Host.Outcome State Fault Refusal :=
  s.commit (fun s =>
    let n := data.length
    let s := (s.linkCount 36 1 n).fullCount 185 n
    if !s.funcOpen .pf0 || n == 0 || s.unitTags < n / 64 + 2 then s
    else if s.ideBars 0 then s.toRefuse 4 0
    else if s.safe then s.toRefuse 3 off.toNat
    else
      match s.toFind off.toNat n true with
      | .inl cause => s.toRefuse cause 0
      | .inr (c, tgt) =>
        match s.toOwner c tgt n true with
        | .inl cause =>
          (if cause == 1 then s.ownerRefusal c (localOf tgt.addr) (some (homeSlice (localOf tgt.addr)).val) else s).toRefuse
            cause (localOf tgt.addr)
        | .inr () =>
          (cutLines tgt.addr tgt.addr n 0 n).foldl (fun s p =>
            s.unitCoh 1024 0 c { tgt with addr := tgt.addr + p.1 }
              (((data.drop p.1).take p.2).mapIdx (fun i b => (tgt.addr + p.1 + i, b)))) s)

/-- A read of BAR4 (R461); a read of no bytes only waits for the writes before it. With twin checking it is refused (R530). -/
def State.turnoutRead (s : State) (off : BitVec 34) (len : Nat) (outside : List Byte) : State :=
  let unsupported (s : State) : State := s.emit (.port 0 .unsupported)
  if !s.funcOpen .pf0 then unsupported s
  else if len == 0 then s.emit (.port 0 (.readData []))
  else if s.ideBars 0 then unsupported (s.toRefuse 4 0)
  else if s.twinActive || s.safe then unsupported (s.toRefuse 3 off.toNat)
  else
    match s.toFind off.toNat len false with
    | .inl cause => unsupported (s.toRefuse cause 0)
    | .inr (c, tgt) =>
      match s.toOwner c tgt len false with
      | .inl cause =>
        unsupported ((if cause == 1 then s.ownerRefusal c (localOf tgt.addr) (some (homeSlice (localOf tgt.addr)).val)
          else s).toRefuse cause (localOf tgt.addr))
      | .inr () =>
        let parts := cutLines tgt.addr tgt.addr len 0 len
        let go (x : Bool × List Byte × State) (p : Nat × Nat) : Bool × List Byte × State :=
          if !x.1 then x
          else
            match x.2.2.unitRead c { tgt with addr := tgt.addr + p.1 } p.2 ((outside.drop p.1).take p.2) with
            | (.inl _, s) => (false, [], s)
            | (.inr bs, s) => (true, x.2.1 ++ bs, s)
        let (ok, bs, s) := parts.foldl go (true, [], s)
        if ok then s.emit (.port 0 (.readData bs)) else unsupported s

/-- TURNOUT_READ (R461, R462): it completes after every write received earlier on the port is performed; len.outside holds its bytes
where they lie on another chip. -/
def execTurnoutRead (off : BitVec 34) (len : ReadSpan) (s : State) : Host.Outcome State Fault Refusal :=
  s.commit (fun s => if s.turnoutBusy then s.holdBack (.read off len.len len.outside) else s.turnoutRead off len.len len.outside)

/-! ### What waits for the unit's writes -/

/-- Host port 0 goes on with what it held back, once the turnout writes before it are performed (R441, R462); the vector of a
TORN record is requested once the record is (R453). -/
def State.portGo (s : State) : State :=
  let free (x : Nat × PortOp) : Bool := !s.heads.writes.any (fun w => w.head == 1024 && w.seq < x.1)
  let go := s.heads.held.filter free
  let s := { s with heads := { s.heads with held := s.heads.held.filter (fun x => !free x) } }
  let s := go.foldl (fun s x =>
    match x.2 with
    | .doorbell h v => s.ring h v
    | .read off len outside => s.turnoutRead off len outside) s
  (s.heads.list.map (fun x => x.1)).foldl (fun s n =>
    if hn : n < 1024 then
      if (s.head ⟨n, hn⟩).tornIrq && !s.heads.writes.any (fun w => w.head == n && w.slot == s.hgHead ⟨n, hn⟩) then
        (s.updHead ⟨n, hn⟩ (fun x => { x with tornIrq := false })).hgIrq ⟨n, hn⟩
      else s
    else s) s

/-- CMP (R359): the request is complete. -/
def execCmp (m : CohMsg) (s : State) : Host.Outcome State Fault Refusal := s.commit (fun s => (s.cmp m).portGo)

/-- REFUSE (R355): the requester reports the cause. -/
def execRefuse (m : CohMsg) (s : State) : Host.Outcome State Fault Refusal := s.commit (fun s => (s.refused m).portGo)

/-- UNMAP_TIMEOUT (R337). -/
def execUnmapTimeout (s : State) : Host.Outcome State Fault Refusal := s.commit (fun s => s.unmapTimeout.portGo)

end Sys2Proof.Machine
end

