-- ==== Sys2Proof/Machine/Tiers.lean ====
section
/-! DEFINITION. Memory tiers: scheduled flits and HBM commands at their ends (R25, R225 to R227, R295 to R302), window
patterns (R296, R300), scratch ways (R285, R286), slab ownership (R293), tier 2 (R307 to R309) and patrol scrub (R303,
R304). -/

namespace Sys2Proof.Machine

/-! ### Window patterns (R295, R296, R300) -/

/-- The code of a window in a pattern given as four words. -/
def windowCode (w : Nat → Word64) (k : Nat) : Nat := bitsOf (w (k / 16)) (2 * (k % 16) + 1) (2 * (k % 16))

/-- The reason for which a staged pattern is refused: 0 none, 2 too few COHERENT windows, 3 a reserved code or wrong REFRESH
runs (R296, R311). -/
def patternRefusal (w : Nat → Word64) : Nat :=
  let codes := (List.range 50).map (windowCode w)
  let refresh := (List.range 50).filter (fun k => windowCode w k == 2)
  if codes.contains 3 then 3
  else if (codes.filter (fun c => c == 0)).length < 5 then 2
  else if (List.range 22).any (fun f => refresh == [f, f + 1, f + 2, f + 3, f + 25, f + 26, f + 27, f + 28]) then 0
  else 3

/-- The staged pattern of a pseudo-channel. -/
def State.staged (s : State) (k : StackId) (p : Nat) (j : Nat) : Word64 := s.rd (.HB_PAT k.val p j)

/-- A window of a pseudo-channel as the running rotation has it; without one every window is COHERENT (R300). -/
def State.window (s : State) (k : StackId) (p w : Nat) : Nat :=
  if s.rotRunning then
    windowCode (fun j => ((Assoc.get? s.patterns (256 * k.val + 4 * p + j)).getD 0).setWidth 64) w
  else 0

/-- LOAD (R300, R311): all 64 staged patterns are checked and committed, or refused. -/
def State.hbLoad (s : State) (k : StackId) : State :=
  let r := Reg.HB_STATUS k.val
  if s.rotState != 0 then (s.setFld r F.HB_STATUS_LOAD_ERR 1).setFld r F.HB_STATUS_REASON 1
  else
    match (List.range 64).find? (fun p => patternRefusal (s.staged k p) != 0) with
    | some p =>
      (((s.setFld r F.HB_STATUS_LOAD_ERR 1).setFld r F.HB_STATUS_REASON (patternRefusal (s.staged k p))).setFld r
        F.HB_STATUS_BAD_PC p).wmEvent (26 + 4 * k.val) [] none
    | none =>
      let s := { s with patterns := (List.range 64).foldl (fun m p => (List.range 4).foldl (fun m j =>
        Assoc.put id 0 m (256 * k.val + 4 * p + j) ((s.staged k p j).setWidth 32)) m) s.patterns }
      ((s.setFld r F.HB_STATUS_PATTERN_VALID 1).setFld r F.HB_STATUS_REASON 0).setFld r F.HB_STATUS_BAD_PC 0

def execLoad (k : StackId) (s : State) : Host.Outcome State Fault Refusal := s.commit (fun s => s.hbLoad k)

/-! ### Scheduled writes at their ends -/

/-- Every write in flight of a core. -/
def Core.allWrites (c : Core) : List PendWrite :=
  (List.finRange 32).flatMap (fun i => ((c.group i).map (fun g => g.writes)).getD []) ++ c.orphans

/-- The scheduled write of consecutive bytes in flight: a core's or a channel's. -/
def State.schedWriter (s : State) (ctx : Byte) (a : Nat) (data : List Byte) :
    Option ((TileId × CoreId × Nat) ⊕ (TileId × ChanId × SlMove)) :=
  (List.finRange 48).findSome? (fun t =>
    let w := (List.finRange 4).findSome? (fun c =>
      ((s.core t c).allWrites.find? (fun w => w.sent && !w.performed && w.ctx == ctx && w.tgt.cls == .localMem &&
        localOf w.tgt.addr == a && w.bytes.map (fun x => x.2) == data)).map (fun w => (t, c, w.id)))
    match w with
    | some x => some (Sum.inl x)
    | none =>
      ((List.finRange 8).findSome? (fun c =>
        ((s.chan t c).flight.find? (fun m => m.sent && !m.performed && m.ctx == ctx && m.data == data &&
          (match m.dst with
           | some g => g.cls == .localMem && localOf g.addr == a
           | none => false))).map (fun m => (t, c, m)))).map Sum.inr)

/-- A scheduled write has reached its end: it is performed, or refused with a LATE_ACCESS cause (R379). -/
def State.schedEnd (s : State) (ctx : Byte) (a : Nat) (data : List Byte) (cause : Option Nat) : State :=
  match s.schedWriter ctx a data with
  | some (.inl (t, c, id)) =>
    (match cause with
     | none => s.writeDone t c id
     | some x => s.refuseWrite t c id x).pumpCore t c
  | some (.inr (t, c, m)) =>
    match cause with
    | none => s.moveDone t c m.id
    | some 1 => s.moveFail t c m Sl.OWNER
    | some _ => s.moveFail t c m Sl.DATA
  | none => s

/-- The tile whose source a flit's end raises: a home slice's is the tile that shares the router (R224, R535). -/
def stopTile (x : Stop) : Option Nat :=
  match x with
  | .tile t => some t.val
  | .slice n => some (8 + n.val)
  | _ => none

/-- What a scheduled flit does at its far stop. -/
def State.flitEnd (s : State) (f : SchedFlit) : State :=
  let gone (s : State) : State := s.schedEnd f.ctx f.addr f.data none
  let write (s : State) : State :=
    if !s.ownerOk f.ctx f.addr true then
      (s.ownerRefusal f.ctx f.addr (match f.stop with
        | .slice n => some n.val
        | _ => none)).schedEnd f.ctx f.addr f.data (some 1)
    else
      let (s', bad) := s.storeCells (f.data.mapIdx (fun i b => (f.addr + i, b)))
      if !bad then s'.schedEnd f.ctx f.addr f.data none
      else
        match f.stop with
        | .tile t => (s'.slabUE t f.addr [f.ctx] f.data.length).schedEnd f.ctx f.addr f.data (some 2)
        | _ => (s'.scratchUE (((s'.ueIn f.addr f.data.length).getD f.addr) / 64 * 64) f.ctx).schedEnd f.ctx f.addr f.data (some 2)
  if f.collided then
    gone ((s.setFld .ROT_STATUS F.ROT_STATUS_COLLISION 1).wmEvent 129 [] none)
  else if !f.crcOk then gone (s.wmEvent 11 [f.ctx] (stopTile f.stop))
  else
    match f.stop with
    | .tile t =>
      if !s.schedMode t then gone (s.wmEvent 9 [f.ctx] (some t.val))
      else
        match f.signal with
        | some (n, sig, add) => if n == t.val then s.addSignal t sig add else s
        | none => if (match placeOf f.addr with | .slab n off => n == t && off < slabSize | _ => false) then write s else s
    | .slice _ => if (match placeOf f.addr with | .scratch _ => s.backed f.addr | _ => false) then write s else s
    | _ => s

/-- SCHED_FLIT_ARRIVE (R36, R220, R225, R227, R340, R535): a flit at its far stop. A flit that fails its CRC or that collided is not
delivered; a slab takes scheduled flits only while its tile is in scheduled mode; tier 1 goes on to SCHED_HBM_COMMAND. Flits hold
in appended cycles (R32). -/
def execSchedFlitArrive (f : SchedFlit) (s : State) : Host.Outcome State Fault Refusal :=
  s.commit (fun s => if s.appended then s else s.flitEnd f)

/-! ### HBM commands -/

/-- The order of requests that arrive in one FCLK (R297). -/
def hbmRank : HbmSource → Nat
  | .core t _ _ => t.val
  | .chan t _ _ => t.val
  | .dump t => t.val
  | .slice n => 48 + n.val
  | .link l => 80 + l.val
  | .engine e => 116 + e.val

/-- A position of a SCHEDULED window whose command cycle, MCLK 24k + 8q, is at least 4 MCLK after an arrival: an FCLK is 2/3 MCLK
(R295, R297). -/
def State.positionOpen (s : State) (k : StackId) (pc : Nat) (arrival : Int) (w p : Nat) : Bool :=
  s.window k pc w == 1 && 2 * arrival + 12 ≤ 3 * (24 * w + 8 * p : Nat)

/-- The first free position for a request of a pseudo-channel that arrived at an FCLK (R297). -/
def State.firstPosition (s : State) (k : StackId) (pc : Nat) (arrival : Int) : Option (Nat × Nat) :=
  ((List.range 150).find? (fun i => s.positionOpen k pc arrival (i / 3) (i % 3) &&
    !s.home.taken.any (fun x => x.stack == k && x.pc == pc && x.window == i / 3 && x.position == i % 3))).map
    (fun i => (i / 3, i % 3))

/-- No request of the pseudo-channel that arrived later, or in the same FCLK with a later place in the order, has a position. -/
def State.inOrder (s : State) (k : StackId) (q : HbmRequest) : Bool :=
  !s.home.taken.any (fun x => x.stack == k && x.pc == pcOf q.addr &&
    (q.arrival < x.arrival || (q.arrival == x.arrival && hbmRank q.source < x.rank)))

/-- FCLK of the scheduled plane: appended cycles do not count (R32). -/
def State.schedTime (s : State) : Nat := 1800 * s.turnNo.toNat + min 1800 s.cycle

/-- SCHED_HBM_COMMAND (R26, R226, R295 to R298, R340): a scheduled access is performed at the first free position after its arrival,
in the cycle of that position. A write of less than a line is merged; a read's data follows with SCHED_HBM_DATA. -/
def execSchedHbmCommand (k : StackId) (q : HbmRequest) (s : State) : Host.Outcome State Fault Refusal :=
  s.commit (fun s =>
    let pc := pcOf q.addr
    let at_ := 36 * q.window + 12 * q.position
    let ok := s.rotRunning && s.rotLocked q.addr && stackOf q.addr == k.val && q.data.length ≤ 256 - q.addr % 256 &&
      s.firstPosition k pc q.arrival == some (q.window, q.position) && s.inOrder k q && s.cycle ≤ at_
    if !ok then s
    else
      let s := (s.advanceTo at_).updHome (fun h => { h with taken := h.taken ++ [⟨k, pc, q.window, q.position, q.arrival, hbmRank q.source⟩] })
      let refused := !s.ownerOk q.ctx q.addr q.write
      let ended (s : State) (cause : Option Nat) : State :=
        match q.source with
        | .core _ _ _ => s.schedEnd q.ctx q.addr q.data cause
        | .chan _ _ _ => s.schedEnd q.ctx q.addr q.data cause
        | _ => s
      let s := if refused then s.ownerRefusal q.ctx q.addr (some (homeSlice q.addr).val) else s
      if !q.write then
        let line := q.addr / 256 * 256
        s.updHome (fun h => { h with hbmReads := h.hbmReads ++
          [⟨q.source, q.ctx, line, s.rdBytes line 256, refused, s.schedTime + 90, false⟩] })
      else if refused then ended s (some 1)
      else
        let (s', bad) := s.storeCells (q.data.mapIdx (fun i b => (q.addr + i, b)))
        if bad then ended (s'.hbmUE k ((s'.ueIn q.addr q.data.length).getD q.addr) [q.ctx]) (some 2)
        else ended s' none)

/-- What an ECC result at a controller records (R302); a word of the bytes read that is known to be in error is found again. -/
def State.hbmEcc (s : State) (k : StackId) (a n : Nat) (ctx : Byte) (ecc : EccResult) : State :=
  match s.ueIn a n with
  | some w => s.hbmUE k w [ctx]
  | none =>
    match ecc with
    | .clean => s
    | .corrected => s.countUp (.HB_CECNT k.val) F.HB_CECNT_COUNT
    | .uncorrectable => s.hbmUE k a [ctx]

/-- SCHED_HBM_DATA (R226, R302): 90 FCLK after its command, the data of a scheduled read is at the controller's stop, checked. The
requester takes it, or reports its error, at LOAD_RETURN or SLUICE_LINE_ARRIVE. Responses hold in appended cycles (R220). -/
def execSchedHbmData (k : StackId) (q : HbmRequest) (ecc : EccResult) (s : State) : Host.Outcome State Fault Refusal :=
  s.commit (fun s =>
    match s.home.hbmReads.find? (fun r => !r.arrived && r.source == q.source && r.ctx == q.ctx && r.line == q.addr / 256 * 256) with
    | none => s
    | some r =>
      let at_ := s.cycle + (r.due - s.schedTime)
      if s.appended || 1799 < at_ || stackOf q.addr != k.val then s
      else
        let s := s.advanceTo at_
        let s := s.updHome (fun h => { h with hbmReads := h.hbmReads.erase r ++ [{ r with arrived := true }] })
        if r.refused then s else s.hbmEcc k r.line 256 q.ctx ecc)

/-- COHERENT_HBM_COMMAND (R26, R40, R301, R302): a controller issues a coherent access that a home asked for, in a COHERENT
window or in appended cycles: a read for a refill or an uncached answer, or a write to a rotation-locked granule, which is
then performed. -/
def execCoherentHbmCommand (k : StackId) (q : HbmRequest) (ecc : EccResult) (s : State) :
    Host.Outcome State Fault Refusal :=
  s.homeCommit (fun s =>
    let line := q.addr / 64 * 64
    let open_ := s.appended || (q.window < 50 && s.cycle < 36 * (q.window + 1) && s.window k (pcOf q.addr) q.window == 0)
    match s.home.tierOps.find? (fun o => o.line == line && o.write.isSome == q.write && !o.issued) with
    | none => s
    | some o =>
      if !open_ || stackOf line != k.val || s.zeroing.contains k then s
      else
        let s := if s.appended then s else s.advanceTo (36 * q.window)
        match o.write with
        | none =>
          let bad := ecc == .uncorrectable || (s.ueIn line 64).isSome
          let s := s.hbmEcc k line 64 q.ctx ecc
          s.updHome (fun h => { h with tierOps := h.tierOps.map (fun x =>
            if x == o then { x with issued := true, ue := bad } else x) })
        | some cells =>
          let s := s.updHome (fun h => { h with tierOps := h.tierOps.erase o })
          let (s', bad) := s.storeCells cells
          match s'.txnAt line with
          | some x =>
            match x.req with
            | some m =>
              (if bad then ((s'.hbmUE k ((s'.ueIn line 64).getD line) [m.ctx]).homeRefuse m 3).stage line .done
               else (s'.homeCmp m (x.data.getD [])).stage line .done).settle line
            | none => s'
          | none => s')

/-- REFRESH (R28, R299): refresh commands change no contents. -/
def execRefresh (_k : StackId) (_pc : Fin 64) (_run : Fin 2) (s : State) : Host.Outcome State Fault Refusal :=
  s.commit (fun s => s)

/-- HBM_ZERO_FILL_DONE (R501): the whole stack is zero, and its controller accepts accesses. -/
def execHbmZeroFillDone (k : StackId) (s : State) : Host.Outcome State Fault Refusal :=
  s.homeCommit (fun s =>
    if s.zeroing.contains k then
      let s := (s.zeroSpan 0 0x9000000000 (some k.val)).fillTag 0 (0x9000000000 / 64) (some k.val) none
      { s with zeroing := s.zeroing.erase k }
    else s)

/-! ### Scratch ways (R285, R286) -/

/-- A write of RSV_SCRATCH.WAYS. -/
def State.scratchWrite (s : State) (v : Nat) : State :=
  let w := s.fld .RSV_SCRATCH F.RSV_SCRATCH_WAYS
  if v == w then s
  else if s.rotState != 0 || s.fld .RSV_SCRATCH F.RSV_SCRATCH_BUSY == 1 || 10 < v then
    s.setFld .RSV_SCRATCH F.RSV_SCRATCH_ERR 1
  else
    ((s.setFld .RSV_SCRATCH F.RSV_SCRATCH_BUSY 1).setFld .RSV_SCRATCH F.RSV_SCRATCH_WAYS v).updHome
      (fun h => { h with scratchFrom := w, scratchDone := [] })

def execScratchWaysWrite (v : BitVec 4) (s : State) : Host.Outcome State Fault Refusal :=
  s.commit (fun s => s.scratchWrite v.toNat)

/-- SCRATCH_CONVERT_DONE (R286): a slice has written back and invalidated the cache lines of the ways that become scratch, and has
filled the converted ways with zeros. BUSY clears with the last slice. -/
def execScratchConvertDone (n : SliceId) (s : State) : Host.Outcome State Fault Refusal :=
  s.homeCommit (fun s =>
    if s.fld .RSV_SCRATCH F.RSV_SCRATCH_BUSY != 1 || s.home.scratchDone.contains n then s
    else
      let w := s.home.scratchFrom
      let w' := s.fld .RSV_SCRATCH F.RSV_SCRATCH_WAYS
      let converted (way : Nat) : Bool := 11 - max w w' < way && way ≤ 11 - min w w'
      let s := (s.home.resv.filter (fun l => homeSlice l.addr == n && converted l.way)).foldl (fun s l => s.resvDrop l true) s
      let s := s.zeroWhere (fun a =>
        match placeOf a with
        | .scratch x => homeSlice a == n && converted (scratchPlace x).1
        | _ => false)
      let s := s.updHome (fun h => { h with scratchDone := n :: h.scratchDone })
      if s.home.scratchDone.length == 32 then s.setFld .RSV_SCRATCH F.RSV_SCRATCH_BUSY 0 else s)

/-! ### Slab ownership (R293) -/

/-- A write of SLAB_OWNu. -/
def State.slabOwnWrite (s : State) (t : TileId) (u : Nat) (v : Word32) : State :=
  let v : Word32 := v &&& 0x1FF#32
  let r := Reg.SLAB_OWN t.val u
  if s.rd r == v.setWidth 64 then s
  else if s.schedMode t || (s.tile t).kernel.isSome || (List.range 8).any (fun c => s.chanState t c != 0) ||
      (s.tile t).fill.isSome then
    s.setFld (.SLAB_STATUS t.val) F.SLAB_STATUS_OWN_ERR 1
  else
    let base := slabAddr t (u * 0x40000)
    ((s.zeroSpan base (base + 0x40000) none).setFld (.SLAB_STATUS t.val) F.SLAB_STATUS_FILL 1).updTile t
      (fun x => { x with fill := some (u, v) })

def execSlabOwnWrite (t : TileId) (u : Fin 24) (v : Word32) (s : State) : Host.Outcome State Fault Refusal :=
  s.commit (fun s => s.slabOwnWrite t u.val v)

/-- SLAB_FILL_DONE (R293). -/
def execSlabFillDone (t : TileId) (s : State) : Host.Outcome State Fault Refusal :=
  s.commit (fun s =>
    match (s.tile t).fill with
    | some (u, v) =>
      ((s.wr (.SLAB_OWN t.val u) (v.setWidth 64)).setFld (.SLAB_STATUS t.val) F.SLAB_STATUS_FILL 0).updTile t
        (fun x => { x with fill := none })
    | none => s)

/-! ### Tier 2 (R307 to R309) -/

/-- Whether a local address lies in a tier-2 group's range. -/
def inTier2 (g : Fin 4) (a : Nat) : Bool :=
  match placeOf a with
  | .tier2 h => h == g
  | _ => false

/-- A write of T2_CTRL.ENABLE: setting it makes an ABSENT group READY, clearing it leaves ABSENT. -/
def State.t2Enable (s : State) (g : Fin 4) (v : Bool) : State :=
  let s := s.setFld (.T2_CTRL g.val) F.T2_CTRL_ENABLE (if v then 1 else 0)
  let st := s.fld (.T2_STATUS g.val) F.T2_STATUS_STATE
  if v then (if st == 0 then s.setFld (.T2_STATUS g.val) F.T2_STATUS_STATE 1 else s)
  else s.setFld (.T2_STATUS g.val) F.T2_STATUS_STATE 0

def execT2Enable (g : Fin 4) (v : Bool) (s : State) : Host.Outcome State Fault Refusal :=
  s.commit (fun s => s.t2Enable g v)

/-- A READY group is lost (R309): its outstanding requests are refused with PORT, those that wait for a way or for their owner entry
too, and its reservoir lines are discarded, the dirty ones counted. What waits for snoops is refused when they are answered. -/
def State.t2Lost (s : State) (g : Fin 4) (quiet : Bool := false) : State :=
  if s.fld (.T2_STATUS g.val) F.T2_STATUS_STATE != 1 then s
  else
    let s := (s.setFld (.T2_STATUS g.val) F.T2_STATUS_STATE 2).setFld (.T2_STATUS g.val) F.T2_STATUS_LOST_SEEN 1
    let dirty := (s.home.resv.filter (fun l => inTier2 g l.addr && l.isDirty)).length
    let s := s.setFld (.T2_DROP g.val) F.T2_DROP_COUNT (min (2 ^ 32 - 1) (s.fld (.T2_DROP g.val) F.T2_DROP_COUNT + dirty))
    let s := s.updHome (fun h => { h with
      resv := h.resv.filter (fun l => !inTier2 g l.addr), refills := h.refills.filter (fun r => !inTier2 g r.line) })
    let waiting := s.home.txns.filter (fun x => inTier2 g x.line && x.stage == .mem)
    let s := waiting.foldl (fun s x =>
      match x.req with
      | some m => ((((s.homeRefuse m 4).stage x.line .done)).dirReserved x.line).settle x.line
      | none => s) s
    let ms := s.home.retry.filter (fun m => inTier2 g (localOf m.line)) ++
      (s.home.ownerWait.filter (fun x => inTier2 g (localOf x.2.line))).map (fun x => x.2)
    let s := s.updHome (fun h => { h with
      retry := h.retry.filter (fun m => !inTier2 g (localOf m.line)), ownerWait := h.ownerWait.filter (fun x => !inTier2 g (localOf x.2.line)) })
    let s := ms.foldl (fun s m => s.homeRefuse m 4) s
    let s := s.homePump
    if quiet then s else s.wmEvent (56 + 3 * g.val) [] none

def execT2Loss (g : Fin 4) (s : State) : Host.Outcome State Fault Refusal := s.commit (fun s => s.t2Lost g)

/-- T2_POISON (R308): a poisoned response is an uncorrectable data error for the request that waits for it. -/
def execT2Poison (g : Fin 4) (addr : Nat) (s : State) : Host.Outcome State Fault Refusal :=
  s.homeCommit (fun s =>
    let line := addr / 64 * 64
    if !inTier2 g line then s
    else
      match s.txnAt line with
      | some x =>
        match x.req with
        | some m =>
          if x.stage == .mem then
            let s := (s.tier2UE g line [m.ctx]).updHome (fun h => { h with refills := h.refills.filter (fun r => r.line != line) })
            (((s.homeRefuse m 3).stage line .done).dirReserved line).settle line
          else s.tier2UE g line [m.ctx]
        | none => s.tier2UE g line []
      | none => s.tier2UE g line [])

/-! ### Patrol scrub (R303, R304) -/

/-- A word of memory has an uncorrectable error. -/
def State.markUE (s : State) (a : Nat) : State :=
  if s.memUE.contains (a / 8 * 8) then s else { s with memUE := s.memUE ++ [a / 8 * 8] }

/-- The record of an uncorrectable error that scrub found in an array. -/
def State.scrubUE (s : State) (a : ScrubTarget) : State :=
  match a with
  | .hbm k addr =>
    let r := Reg.HB_STATUS k.val
    let s := if s.fld r F.HB_STATUS_UE == 1 || s.fld r F.HB_STATUS_SCRUB_UE == 1 then s
      else s.setFld (.HB_ERRADDR k.val) F.HB_ERRADDR_LINE (addr / 64)
    ((s.setFld r F.HB_STATUS_SCRUB_UE 1).wmEvent (25 + 4 * k.val) [] none).markUE addr
  | .tier2 g addr =>
    let r := Reg.T2_STATUS g.val
    let s := if s.fld r F.T2_STATUS_UE == 1 || s.fld r F.T2_STATUS_SCRUB_UE == 1 then s
      else s.setFld (.T2_ERRADDR g.val) F.T2_ERRADDR_LINE (addr / 64)
    ((s.setFld r F.T2_STATUS_SCRUB_UE 1).wmEvent (58 + 3 * g.val) [] none).markUE addr
  | .slab t off =>
    let r := Reg.SLAB_STATUS t.val
    let s := if s.fld r F.SLAB_STATUS_UE == 1 || s.fld r F.SLAB_STATUS_SCRUB_UE == 1 then s
      else s.setFld (.SLAB_ERRADDR t.val) F.SLAB_ERRADDR_WORD (off / 8)
    ((s.setFld r F.SLAB_STATUS_SCRUB_UE 1).wmEvent 10 [] (some t.val)).markUE (slabAddr t off)
  | .scratch n addr =>
    let r := Reg.RSV_STATUS n.val
    let s := if s.fld r F.RSV_STATUS_UE == 1 || s.fld r F.RSV_STATUS_SCRUB_UE == 1 || s.fld r F.RSV_STATUS_DIRTY_PAR == 1 then s
      else s.setFld (.RSV_ERRADDR n.val) F.RSV_ERRADDR_LINE (addr / 64)
    ((s.setFld r F.RSV_STATUS_SCRUB_UE 1).wmEvent 16 [] (some n.val)).markUE addr
  | .directory n set way =>
    let s := if s.fld (.DIR_STATUS n.val) F.DIR_STATUS_UE == 1 then s
      else (s.setFld (.DIR_ERRADDR n.val) F.DIR_ERRADDR_SET set.toNat).setFld (.DIR_ERRADDR n.val) F.DIR_ERRADDR_WAY way.toNat
    ((s.setFld (.DIR_STATUS n.val) F.DIR_STATUS_UE 1).updHome (fun h =>
      { h with dirUE := (n, set.toNat) :: h.dirUE.erase (n, set.toNat) })).wmEvent 16 [] (some n.val)
  | .accumulator t entry =>
    (s.updTile t (fun x => { x with ta := { x.ta with accUE := entry :: x.ta.accUE.erase entry } })).wmEvent 10 [] (some t.val)

/-- PATROL_SCRUB (R303, R304): a correctable error is written back corrected, which changes no value; 65,536 of them in a
tile advise its retirement (R508). -/
def execPatrolScrub (a : ScrubTarget) (ecc : EccResult) (s : State) : Host.Outcome State Fault Refusal :=
  s.commit (fun s =>
    match ecc, a with
    | .uncorrectable, _ => s.scrubUE a
    | .corrected, .slab t _ =>
      let s := s.tileCount t 8 1
      if (s.counter (0x1D1000 + 0x80 * t.val + 0x40)).toNat == 65536 then s.wmEvent 155 [] (some t.val) else s
    | _, _ => s)

end Sys2Proof.Machine
end

