-- ==== Sys2Proof/Machine/HostPort.lean ====
section
/-! DEFINITION. The host function (R402 to R437): host requests through the culvert, its moves, what comes back from the host,
configuration space, power states, resets that a host causes, detachment (R456), link events and IDE. -/

namespace Sys2Proof.Machine

/-! ### Writes toward the host that end without GO -/

/-- What the unit of a write does once the write is over: performed, or lost or discarded, which its unit does not see but
for a headgate's command (R399, R456). -/
def State.writeOver (s : State) (w : HostWr) : State :=
  match w.src with
  | .write t c id =>
    if w.peer then
      (s.updCore t c (fun x => x.updWrite id (fun v => some { v with performed := true }))).pumpCore t c
    else (s.writeDone t c id).pumpCore t c
  | .chan t c i => s.moveDone t c i
  | .atomic t c id =>
    match (s.core t c).findLoad id with
    | some (_, l) =>
      if l.complete && !s.hostWrites.any (fun x => x.src == .atomic t c id) then (s.loadDone t c id).pumpCore t c else s
    | none => s
  | _ => s

/-- Writes leave the block unperformed. A lost one marks its command HOST_LOST. -/
def State.dropHostWrites (s : State) (p : HostWr → Bool) (lost : Bool) : State :=
  let ws := s.hostWrites.filter p
  let s := { s with hostWrites := s.hostWrites.filter (fun w => !p w) }
  let mark (s : State) (w : HostWr) : State :=
    match w.src with
    | .head h slot => if lost then s.updCmd h slot (fun c => { c with hostLost := true }) else s
    | _ => s
  (ws.foldl (fun s w => (mark s w).writeOver w) s).msixProgress

/-! ### Host CXL.mem (R414, R423) -/

/-- The cause for which a host request meets a refusal at its port, none where it does not: 4 IDE, 3 DISABLED, 5 REVOKED. -/
def State.hostBarred (s : State) (p : HostPortId) (read : Bool) : Option Nat :=
  if s.ideBars p.val then some 4
  else if s.fld .CUL_CTRL F.CUL_CTRL_ENABLE == 0 || s.safe || (read && s.twinActive) then some 3
  else if s.revoked (BitVec.ofNat 8 (s.fld .CUL_CTRL F.CUL_CTRL_CTX)) then some 5
  else none

/-- The line that a refusal at the port records: the window offset for DISABLED, else the local address. -/
def State.hostLine (s : State) (cause w : Nat) : Nat :=
  if cause == 3 then w else s.fld .CUL_BASE F.CUL_BASE_GIB * 2 ^ 30 + w

/-- The request of a host port for a line of the window. -/
def State.hostMsg (s : State) (p : HostPortId) (opc w : Nat) (txn : BitVec 12) : CohMsg :=
  let a := s.chipId * 2 ^ 43 + s.fld .CUL_BASE F.CUL_BASE_GIB * 2 ^ 30 + w
  { s.flit 0 opc (BitVec.ofNat 8 (72 + p.val)) (homeAgent (localOf a)) a txn with
    ctx := BitVec.ofNat 8 (s.fld .CUL_CTRL F.CUL_CTRL_CTX) }

/-- A request that its port lets through: while the culvert moves it waits in the port with its window offset (R417). -/
def State.hostSubmit (s : State) (w : Nat) (m : CohMsg) : State :=
  if s.home.culvert.isSome then { s with hostWait := s.hostWait ++ [{ m with addr := BitVec.ofNat 64 w }] }
  else s.hostRequest m

/-- The host's copy of a window line. -/
def State.hostHolds (s : State) (p : HostPortId) (w : Nat) : Bool :=
  (s.dirFind (s.fld .CUL_BASE F.CUL_BASE_GIB * 2 ^ 30 + w)).any (fun e => e.presence.contains (BitVec.ofNat 8 (72 + p.val)))

/-- HOST_MEM_READ (R414, R423, R530): metaValue 0 is I, 2 is A, 3 is S. A host that asks for no copy gives up the one it
has. -/
def execHostMemRead (p : HostPortId) (off : BitVec 36) (metaValue : BitVec 2) (s : State) :
    Host.Outcome State Fault Refusal :=
  s.commit (fun s =>
    let w := off.toNat / 64 * 64
    if !s.groupUp p.val then s
    else
      match s.hostBarred p true with
      | some cause => (s.hostRefuse p cause (s.hostLine cause w)).emit (.port p.val (.readData (List.replicate 64 0xFF#8)))
      | none =>
        match metaValue.toNat with
        | 2 => s.hostSubmit w (s.hostMsg p 0x02 w 0)
        | 3 => s.hostSubmit w (s.hostMsg p 0x01 w 0)
        | _ =>
          let s := if s.hostHolds p w then s.hostSubmit w (s.hostMsg p 0x08 w 2) else s
          s.hostSubmit w (s.hostMsg p 0x04 w 0))

/-- HOST_MEM_WRITE (R414, R423): a holder's whole line is an eviction with data. -/
def execHostMemWrite (p : HostPortId) (off : BitVec 36) (mask : Word64) (data : List Byte) (s : State) :
    Host.Outcome State Fault Refusal :=
  s.commit (fun s =>
    let w := off.toNat / 64 * 64
    if !s.groupUp p.val then s
    else
      let n := (threadsOf mask).length
      let s := (s.linkCount (36 + p.val) 1 n).fullCount (185 + 2 * p.val) n
      match s.hostBarred p false with
      | some cause => (s.hostRefuse p cause (s.hostLine cause w)).emit (.port p.val .cmp)
      | none =>
        let full := mask == BitVec.allOnes 64
        let m := s.hostMsg p (if full && s.hostHolds p w then 0x09 else if full then 0x05 else 0x06) w 1
        s.hostSubmit w { m with hasData := true, byteMask := mask, data := (data ++ List.replicate 64 0).take 64 })

/-! ### The culvert's registers (R414 to R418) -/

/-- Only rider cores 0 and 1 write the culvert's registers (R414). -/
def Requester.isManager : Requester → Bool
  | .rider c => c.val < 2
  | _ => false

/-- A context may not be the culvert's: 0, or a field that a port whose window is mapped does not carry (R414, R497). -/
def State.culvertBarred (s : State) (ctx : Byte) : Bool :=
  ctx == 0 || (s.pf0.hdmBase != 0 && !s.portCarries 0 ctx) || (s.companion.hdmBase != 0 && !s.portCarries 1 ctx)

/-- A write that sets CUL_CTRL.ENABLE. -/
def State.culvertEnable (s : State) (ctx : Byte) : State :=
  if s.fld .CUL_CTRL F.CUL_CTRL_ENABLE == 1 then s
  else if s.culvertBarred ctx then s.setFld .CUL_STATUS F.CUL_STATUS_ERR 1
  else (s.setFld .CUL_CTRL F.CUL_CTRL_CTX ctx.toNat).setFld .CUL_CTRL F.CUL_CTRL_ENABLE 1

/-- CULVERT_ENABLE. -/
def execCulvertEnable (by_ : Requester) (ctx : Byte) (s : State) : Host.Outcome State Fault Refusal :=
  s.commit (fun s => if Requester.isManager by_ then s.culvertEnable ctx else s)

/-- A line of the window that the culvert shows. -/
def State.inWindow (s : State) (line : Nat) : Bool := (s.granuleOf line).isSome

/-- A write that clears CUL_CTRL.ENABLE: steps 1 to 3 of R417. -/
def State.culvertDisable (s : State) : State :=
  if s.fld .CUL_CTRL F.CUL_CTRL_ENABLE == 0 || s.home.culvert.isSome then s
  else
    ((s.setFld .CUL_STATUS F.CUL_STATUS_BUSY 1).updHome (fun h => { h with culvert := some none })).backInvalidate
      s.inWindow isHostAgent

/-- CULVERT_DISABLE. -/
def execCulvertDisable (s : State) : Host.Outcome State Fault Refusal := s.commit (fun s => s.culvertDisable)

/-- The result with which a move is refused, 0 for none (R416). -/
def State.moveRefused (s : State) (t : Nat) : Nat :=
  let a := t * 2 ^ 30
  let top := a + 2 ^ 36 - 1
  let tier2 := match placeOf a, placeOf top with
    | .tier2 g, .tier2 h => g == h && s.fld (.T2_STATUS g.val) F.T2_STATUS_STATE == 1 && s.backed a && s.backed top
    | _, _ => false
  let meets (start count : Nat) : Bool := start < t * 2 ^ 14 + 2 ^ 20 && t * 2 ^ 14 < start + count
  let locked := (List.range 64).any (fun n =>
      s.fld (.LOCK n) F.LOCK_VALID == 1 && meets (s.fld (.LOCK n) F.LOCK_START) (s.fld (.LOCK n) F.LOCK_COUNT)) ||
    (match s.home.bias with
     | some (.lock _ start count) => meets start count
     | _ => false)
  if s.home.culvert.isSome then 1
  else if !(t + 64 ≤ 576 || tier2) then 2
  else if locked then 3
  else 0

/-- A write of CUL_MOVE.GO (R416, R417). -/
def State.culvertMove (s : State) : State :=
  let t := s.fld .CUL_MOVE F.CUL_MOVE_TARGET
  match s.moveRefused t with
  | 0 =>
    ((s.setFld .CUL_STATUS F.CUL_STATUS_BUSY 1).updHome (fun h => { h with culvert := some (some t) })).backInvalidate
      s.inWindow isHostAgent
  | r => s.setFld .CUL_STATUS F.CUL_STATUS_RESULT r

/-- CULVERT_MOVE. -/
def execCulvertMove (s : State) : Host.Outcome State Fault Refusal := s.commit (fun s => s.culvertMove)

/-- The window is at rest: no granule flips, and no host request or host copy of it is left. -/
def State.windowQuiet (s : State) : Bool :=
  s.home.flips.isEmpty &&
    !s.home.txns.any (fun x => s.inWindow x.line && (x.victim || (x.req.any (fun m => s.ours m && isHostAgent m.srcAgent)))) &&
    !s.home.dir.any (fun e => s.inWindow e.line && e.presence.any isHostAgent)

/-- CULVERT_MOVE_DONE (R417 step 4): the base changes, every granule is in device bias, and the requests that waited go on;
after a disable they are refused. -/
def execCulvertMoveDone (s : State) : Host.Outcome State Fault Refusal :=
  s.commit (fun s =>
    match s.home.culvert with
    | none => s
    | some to_ =>
      if !s.windowQuiet then s.backInvalidate s.inWindow isHostAgent
      else
        match to_ with
        | some t =>
          let s := (s.setFld .CUL_BASE F.CUL_BASE_GIB t).updHome (fun h => { h with hostBias := [] })
          (s.biasCount.setFld .CUL_STATUS F.CUL_STATUS_RESULT 0).endCulvertMove
        | none =>
          let ms := s.hostWait
          let s := ((s.setFld .CUL_CTRL F.CUL_CTRL_ENABLE 0).setFld .CUL_STATUS F.CUL_STATUS_BUSY 0).updHome
            (fun h => { h with culvert := none })
          ms.foldl (fun s m =>
            let p := hostOf m.srcAgent
            let s := s.hostRefuse p 3 m.addr.toNat
            if m.txn == 2 then s
            else if m.txn == 1 then s.emit (.port p.val .cmp)
            else s.emit (.port p.val (.readData (List.replicate 64 0xFF#8)))) { s with hostWait := [] })

/-! ### Snoops of the host (R422) -/

/-- The line that a host-port atomic in progress holds modified: 64 bytes, its write-back not yet performed (R348, R421). -/
def State.atomicInPort (s : State) (p : HostPortId) (line : Nat) : Option (List Byte) :=
  (s.hostWrites.find? (fun w => w.port == p && w.addr == line && !w.peer && (match w.src with
    | .atomic .. => true
    | _ => false))).map (fun w => w.bytes.map (fun x => x.2))

/-- H2D_SNOOP. A line that neither the rider cluster nor an atomic of the port holds is answered RspIHitI; data comes back from
a dirty one. -/
def execH2dSnoop (p : HostPortId) (addr : Word64) (kind : HostSnoop) (s : State) : Host.Outcome State Fault Refusal :=
  s.commit (fun s =>
    let line := addr.toNat / 64 * 64
    let mine (x : HostPortId × RiderLine) : Bool := x.1 == p && x.2.addr == line
    if !s.groupUp p.val then s
    else
      match s.boot.hostLines.find? mine with
      | none => s.emit (.port p.val (.snoopRsp (s.atomicInPort p line)))
      | some (_, l) =>
        let kept := match kind with
          | .snpInv => s.boot.hostLines.filter (fun x => !mine x)
          | .snpData => s.boot.hostLines.map (fun x => if mine x then (x.1, { x.2 with dirty := false }) else x)
          | .snpCur => s.boot.hostLines
        { s with boot := { s.boot with hostLines := kept } }.emit (.port p.val (.snoopRsp (if l.dirty then some l.bytes else none))))

/-- CACHE_WRITEBACK_INVALIDATE. -/
def execCacheWritebackInvalidate (p : HostPortId) (s : State) : Host.Outcome State Fault Refusal :=
  s.commit (fun s =>
    let mine := s.boot.hostLines.filter (fun x => x.1 == p)
    let s := { s with boot := { s.boot with hostLines := s.boot.hostLines.filter (fun x => x.1 != p) } }
    let s := (mine.filter (fun x => x.2.dirty)).foldl (fun s x =>
      s.hostSend p 0 (.rider x.2.core) (x.2.bytes.mapIdx (fun i b => (x.2.addr + i, b)))) s
    s.updFunc (if p.val == 0 then .pf0 else .companion) (fun f => { f with cacheInvalid := true }))

/-! ### Answers of the host -/

/-- HOST_GO (R379, R421): a write that has left is performed. -/
def execHostGo (p : HostPortId) (id : Nat) (s : State) : Host.Outcome State Fault Refusal :=
  s.commit (fun s =>
    match s.hostWrites.find? (fun w => w.id == id && w.port == p && w.released && !w.peer) with
    | none => s
    | some w =>
      let s := { s with hostWrites := s.hostWrites.filter (fun x => x.id != id) }
      let s := match w.src with
        | .engine e => s.toEngine e .goI
        | _ => s.writeOver w
      s.msixProgress)

/-- PEER_READ_TIMEOUT (R463): a load of a peer ends refused with PORT. -/
def execPeerReadTimeout (g : GroupId) (i : Nat) (s : State) : Host.Outcome State Fault Refusal :=
  s.commit (fun s =>
    match (s.core g.tile g.core).findLoad i with
    | some (_, l) =>
      if l.lanes.any (fun x => x.tgt.cls == .peer && x.sent && x.val.isNone) then
        (s.refuseLoad g.tile g.core i 3 (l.lowestVa (fun x => x.tgt.cls == .peer))).pumpCore g.tile g.core
      else s
    | none => s)

/-! ### Configuration space (R403, R405 to R412, R432) -/

/-- The host port of a function. -/
def portOf : FunctionId → HostPortId
  | .companion => 1
  | _ => 0

/-- D3hot entry of PF0 (R427): once the writes toward host port 0 are performed, PF0 is in D3hot and the port is HELD. -/
def State.d3Enter (s : State) : State :=
  if s.pf0.d3 || s.pf0.flr || s.hostWrites.any (fun w => w.port == 0) then s
  else
    let s := { s with pf0 := { s.pf0 with d3 := true }, heads := { s.heads with wakeDue := true } }
    if s.portState 0 == 0 then s.setPortState 0 2 5 else s

/-- PF0 returns to D0 (R426, R427): nothing is reset, headgates fetch again, and pending vectors that can be sent are. -/
def State.d0Return (s : State) : State :=
  if s.pf0.d3 then
    let s := { s with pf0 := { s.pf0 with d3 := false } }
    ((s.heads.list.map (fun x => x.1)).foldl (fun s n => if hn : n < 1024 then s.fetchNext ⟨n, hn⟩ else s) s).msixFlush .pf0
  else s

/-- A function's power state (R427). A VF or the companion only stops what depends on it, and its headgates go on after its
return to D0. -/
def State.powerSet (s : State) (f : FunctionId) (d3 : Bool) : State :=
  match f with
  | .pf0 => if d3 then s.d3Enter else s.d0Return
  | _ =>
    let s := s.updFunc f (fun x => { x with d3 := d3 })
    if d3 then s
    else (s.heads.list.map (fun x => x.1)).foldl (fun s n => if hn : n < 1024 then s.fetchNext ⟨n, hn⟩ else s) s

/-- A configuration write of a field; fields that a function does not have are not written. -/
def State.configSet (s : State) (f : FunctionId) (a : ConfigWrite) : State :=
  let up (g : Func → Func) : State := s.updFunc f g
  let isVf := match f with
    | .vf _ => true
    | _ => false
  match a with
  | .memorySpace v => up (fun x => { x with memSpace := v })
  | .busMaster v => up (fun x => { x with busMaster := v })
  | .cacheEnable v => if isVf then s else up (fun x => { x with cacheEnable := v })
  | .msixEnable v => if f == .companion then s else up (fun x => { x with msixEnable := v })
  | .msixFunctionMask v => if f == .companion then s else up (fun x => { x with msixMask := v })
  | .msixVectorMask n v =>
    if f == .companion || (isVf && 32 ≤ n.toNat) then s
    else up (fun x => { x with unmasked := if v then x.unmasked.erase n.toNat else n.toNat :: x.unmasked.erase n.toNat })
  | .pmeEn v => if f == .pf0 then up (fun x => { x with pmeEn := v }) else s
  | .pmeStatusClear => if f == .pf0 then up (fun x => { x with pmeStatus := false }) else s
  | .numVfs n => if f == .pf0 then up (fun x => { x with numVfs := n.toNat }) else s
  | .vfEnable v => if f == .pf0 then up (fun x => { x with vfEnable := v }) else s
  | .completionTimeout v => up (fun x => { x with cplTimeout := v })
  | .viralStatusClear => if isVf then s else up (fun x => { x with viralStatus := false })
  | .bar i v => if isVf || (f == .companion && i != 0) then s else up (fun x => { x with bars := x.bars.set i.val v i.isLt })
  | .hdmBase v => if isVf then s else up (fun x => { x with hdmBase := v })
  | .powerState v => s.powerSet f v

/-- CONFIG_WRITE (R403, R407, R432): until LV_CTRL.CLOSED, and during the function's FLR, the port answers Request Retry
Status. -/
def execConfigWrite (f : FunctionId) (a : ConfigWrite) (s : State) : Host.Outcome State Fault Refusal :=
  s.commit (fun s =>
    if s.groupUp (portOf f).val && s.fld .LV_CTRL F.LV_CTRL_CLOSED == 1 && !s.boot.scrub && s.funcShown f && !(s.func f).flr && !s.pf0.flr then
      (s.configSet f a).msixFlush f
    else s)

/-- MSIX_UNMASK (R426). -/
def execMsixUnmask (f : FunctionId) (vector : BitVec 11) (s : State) : Host.Outcome State Fault Refusal :=
  s.commit (fun s =>
    let x := s.func f
    if x.pend.contains vector.toNat && x.sendable vector.toNat then
      (s.updFunc f (fun y => { y with pend := y.pend.erase vector.toNat })).sendMsix f vector.toNat
    else s)

/-- MSIX_REQUEST (R426): a unit of the block asks for a vector of the function. -/
def execMsixRequest (f : FunctionId) (vector : BitVec 11) (s : State) : Host.Outcome State Fault Refusal :=
  s.commit (fun s =>
    match f with
    | .companion => s
    | .pf0 => s.notify vector.toNat
    | .vf _ => if vector.toNat < 32 then s.msixAfter f vector.toNat (fun w => w.src == .block) else s)

/-! ### Power states (R427, R428, R457) -/

/-- D3HOT_ENTRY. -/
def execD3hotEntry (s : State) : Host.Outcome State Fault Refusal := s.commit (fun s => s.d3Enter)

/-- D0_RETURN. -/
def execD0Return (s : State) : Host.Outcome State Fault Refusal := s.commit (fun s => s.d0Return)

/-- REQ: a write of HF_WAKE.REQ. -/
def execReq (s : State) : Host.Outcome State Fault Refusal := s.commit (fun s => s.wake)

/-! ### The fault queue at a loss of its port (R431) -/

/-- The fault queue and the hot list are disabled, and pending faults become remembered refusals. -/
def State.faultsHeld (s : State) : State :=
  let s := (s.setFld .FQ_CTRL F.FQ_CTRL_ENABLE 0).setFld .HL_CTRL F.HL_CTRL_ENABLE 0
  let fs := s.xl.faults
  let first := s.xl.refused.isEmpty && !fs.isEmpty
  let now := s.rd .TB_RAW
  let rs := fs.flatMap (fun f => f.waiters.map (fun w => (⟨w.1, f.ctx, w.2.1, w.2.2, now⟩ : RefusedFault)))
  let s := s.setFaults [] (s.xl.refused ++ rs)
  let stall (s : State) (r : RefusedFault) : State :=
    match r.who with
    | .group g => s.updGroup g (fun gr =>
        { gr with wait := match gr.wait with
            | some (.fault _ va acc w) => some (.refusedFault va acc w)
            | x => x })
    | .channel t c => s.updChan t c (fun x => { x with fault := none, refused := true })
    | .engine _ => s
  let s := rs.foldl stall s
  if first then s.wmEvent 124 [] none else s

/-! ### Revocation (R432, R519) -/

/-- The headgates that are enabled. -/
def State.enabledHeads (s : State) : List HeadId :=
  (List.finRange 1024).filter (fun h => s.fld (.HG_CFG h.val) F.HG_CFG_ENABLE == 1)

/-- Contexts are revoked: their pending faults end with ABORT, and every engine slot that they are bound in is told. -/
def State.revoke (s : State) (cs : List Byte) : State :=
  let s := cs.foldl (fun s c => s.setRevoked c true) s
  let s := s.abortFaults (fun c => cs.contains c)
  (List.finRange 16).foldl (fun s e =>
    cs.foldl (fun s c => if s.bound e c then s.invalidateEngine e c 0 (2 ^ 64) false else s) s) s

/-- Headgates of contexts are HALTED with REVOKED. -/
def State.haltRevoked (s : State) (cs : List Byte) : State :=
  (s.enabledHeads.filter (fun h => cs.contains (s.hgCtx h))).foldl (fun s h => s.hgHalt h 4) s

/-! ### Function-level resets (R429, R432, R433) -/

/-- A headgate of a PF0 FLR: halted and reset, and its commands end without completion. -/
def State.hgFlr (s : State) (h : HeadId) : State :=
  let s := ((s.hgHalt h 5).updHead h (fun _ => Head.reset)).wr (.HG_PTR h.val) 0
  ((s.setHg h F.HG_STATUS_EXPPHASE 1).setHg h F.HG_STATUS_EXPSEQ 0).setHg h F.HG_STATUS_INFLIGHT 0

/-- The holding ring is emptied (R464). -/
def State.emptyRing (s : State) : State :=
  ((((s.setFld .HR_TAIL F.HR_TAIL_VALUE 0).setFld .HR_HEAD F.HR_HEAD_VALUE 0).setFld .HR_COUNT F.HR_COUNT_VALUE 0).setFld
    .HGU_STATUS F.HGU_STATUS_HR_FULL 0)

/-- The configuration space of a function after a reset; its HDM decoder lies outside it. -/
def Func.cleared (x : Func) : Func := { Func.reset with hdmBase := x.hdmBase }

/-- PF0 after its FLR: sticky bits stay. -/
def Func.flrReset (x : Func) : Func :=
  { x.cleared with pmeEn := x.pmeEn, pmeStatus := x.pmeStatus, viralStatus := x.viralStatus, flr := true }

/-- PF0_FLR. -/
def execPf0Flr (s : State) : Host.Outcome State Fault Refusal :=
  s.commit (fun s =>
    if s.pf0.flr then s
    else
      let cs := s.contextsOf (fun f => f != .pf0)
      let s := s.orReg .RST_CAUSE 8
      let s := { s with pf0 := s.pf0.flrReset, vfs := Vector.replicate 64 Func.reset, msixWait := [] }
      let s := s.revoke cs
      let s := s.enabledHeads.foldl (fun s h => s.hgFlr h) s
      let s := { s.emptyRing with heads := { s.heads with delivering := none, mode := Vector.replicate 2 0, held := [] } }
      (s.dropHostWrites (fun _ => true) false).faultsHeld)

/-- Entries of headgates leave the holding ring (R464), the others move up. -/
def State.purgeRing (s : State) (p : Nat → Bool) : State :=
  let base := s.fld .HR_BASE F.HR_BASE_REGION * 2 ^ 21
  let head := s.fld .HR_HEAD F.HR_HEAD_VALUE
  let es := (List.range (s.fld .HR_COUNT F.HR_COUNT_VALUE)).map (fun i => s.rdBytes (base + 32 * ((head + i) % 65536)) 32)
  let kept := es.filter (fun e => !p (slotField e 24 2 % 1024))
  if kept.length == es.length then s
  else
    let s := (kept.zipIdx).foldl (fun s x => s.wrBytes (base + 32 * ((head + x.2) % 65536)) x.1) s
    (((s.setFld .HR_TAIL F.HR_TAIL_VALUE ((head + kept.length) % 65536)).setFld .HR_COUNT F.HR_COUNT_VALUE kept.length).setFld
      .HGU_STATUS F.HGU_STATUS_HR_FULL 0).ringFreed

/-- VF_FLR. -/
def execVfFlr (k : Fin 64) (s : State) : Host.Outcome State Fault Refusal :=
  s.commit (fun s =>
    if k.val == 0 || !s.funcShown (.vf k) || (s.func (.vf k)).flr then s
    else
      let cs := s.contextsOf (fun f => f == .vf k)
      let s := s.orReg .RST_CAUSE 16
      let s := s.updFunc (.vf k) (fun _ => { Func.reset with flr := true })
      let s := (s.revoke cs).haltRevoked cs
      let s := s.dropHostWrites (fun w => cs.contains w.ctx) false
      s.purgeRing (fun h => s.fld (.HG_BIND h) F.HG_BIND_FUNCTION == k.val))

/-- FLR_COMPLETE: an access of a revoked context that is still not performed is aborted first (R337, R432). -/
def execFlrComplete (f : FunctionId) (s : State) : Host.Outcome State Fault Refusal :=
  s.commit (fun s =>
    if !(s.func f).flr then s
    else
      let cs := (s.contextsOf (fun g => if f == .pf0 then g != .pf0 else g == f)).filter s.revoked
      let left := cs.flatMap (fun c => s.oldAccesses c ((s.rangesIn c 0 (2 ^ 64)).map (fun x => x.2)))
      ((left.foldl State.abortAccess s).portGo).updFunc f (fun x => { x with flr := false }))

/-! ### Detachment (R456) -/

/-- An access that a lost port still owes an answer. -/
def onPort (p : HostPortId) (t : Target) : Bool :=
  match t.cls with
  | .host0 => p.val == 0
  | .host1 => p.val == 1
  | .peer => p.val == 0
  | .localMem => false

/-- Reads in flight through a port end refused with PORT. -/
def State.readsLost (s : State) (p : HostPortId) : State :=
  (List.finRange 48).foldl (fun s t =>
    let s := (List.finRange 4).foldl (fun s c =>
      let k := s.core t c
      let ls := (List.finRange 32).flatMap (fun i => ((k.group i).map (fun g => g.loads)).getD []) ++ k.orphanLoads
      (ls.filter (fun l => l.lanes.any (fun x => x.sent && x.val.isNone && onPort p x.tgt))).foldl (fun s l =>
        (s.refuseLoad t c l.id 3 none).pumpCore t c) s) s
    (List.finRange 8).foldl (fun s c =>
      ((s.chan t c).flight.filter (fun m => !m.arrived && m.src.any (onPort p))).foldl (fun s m =>
        s.moveFail t c m Sl.PORT) s) s) s

/-- A host port detaches with a cause of AT_STATE. -/
def State.hostDetach (s : State) (p : HostPortId) (cause : Nat) : State :=
  if s.portState p == 1 then s
  else
    let s := (s.setPortState p 1 cause).setFld .AT_GEN F.AT_GEN_GEN ((s.fld .AT_GEN F.AT_GEN_GEN + 1) % 2 ^ 32)
    let s := (s.wr .AT_TIME s.timestamp).wmEvent 125 [] none
    let delivering := match s.heads.delivering with
      | some n => s.hostWrites.any (fun w => w.id == n && w.port == p)
      | none => false
    let s := { s with
      heads := { s.heads with
        mode := s.heads.mode.set p.val 0 p.isLt
        held := if p.val == 0 then [] else s.heads.held
        delivering := if delivering then none else s.heads.delivering }
      twin := { s.twin with rb := s.twin.rb.filter (fun w =>
        !(w.target.toNat == p.val || (p.val == 0 && 2 ≤ w.target.toNat))) } }
    let s := s.dropHostWrites (fun w => w.port == p) true
    let s := (s.enabledHeads.filter (fun h => s.hgPort h == some p && s.hg h F.HG_STATUS_STATE != 2)).foldl
      (fun s h => s.hgHalt h 3) s
    let s := if s.agentDead (72 + p.val) then s else s.agentDies (72 + p.val)
    let s := s.readsLost p
    if s.fld .FQ_CTRL F.FQ_CTRL_PORT == p.val then s.faultsHeld else s

/-- HOST_DETACH. -/
def execHostDetach (p : HostPortId) (cause : BitVec 4) (s : State) : Host.Outcome State Fault Refusal :=
  s.commit (fun s => if 1 ≤ cause.toNat && cause.toNat ≤ 4 then s.hostDetach p cause.toNat else s)

/-- The viral bits of a port, held until its hot reset or link down (R424). -/
def State.clearViral (s : State) (g : Nat) : State :=
  (s.setFld (.PG_STATUS g) F.PG_STATUS_VIRAL_TX 0).setFld (.PG_STATUS g) F.PG_STATUS_VIRAL_RX 0

/-- HOT_RESET_DETACH (R429, R430). -/
def execHotResetDetach (p : HostPortId) (s : State) : Host.Outcome State Fault Refusal :=
  s.commit (fun s =>
    if p.val == 0 && s.fld .HF_CTRL F.HF_CTRL_HR0 == 1 then s
    else
      let s := if p.val == 0 then { s with pf0 := s.pf0.cleared, vfs := Vector.replicate 64 Func.reset, msixWait := [] }
        else { s with companion := s.companion.cleared }
      (s.clearViral p.val).hostDetach p 2)

/-! ### Links (R402, R403, R424, R434, R435, R455) -/

/-- Role of a group (R402). -/
def State.pgRole (s : State) (g : Nat) : Nat := s.fld .PG_ROLE F.PG_ROLE_ROLE / 4 ^ g % 4

/-- What a loss of a group's link means to its role: a host port detaches (R456), a tier-2 expander is lost (R309). -/
def State.groupLost (s : State) (g : GroupPortId) (cause : Nat) : State :=
  if g.val < 2 then s.hostDetach ⟨g.val % 2, Nat.mod_lt _ (by decide)⟩ cause
  else s.t2Lost ⟨(g.val - 2) % 4, Nat.mod_lt _ (by decide)⟩

/-- LINK_RETRAIN (R455): nothing is lost. -/
def execLinkRetrain (g : GroupPortId) (s : State) : Host.Outcome State Fault Refusal :=
  s.commit (fun s => if s.groupUp g.val then s.wmEvent (69 + 5 * g.val) [] none else s)

/-- VIRAL_RX (R424). -/
def execViralRx (p : HostPortId) (s : State) : Host.Outcome State Fault Refusal :=
  s.commit (fun s =>
    if s.groupUp p.val then
      (((s.setFld (.PG_STATUS p.val) F.PG_STATUS_VIRAL_RX 1).setFld (.PG_STATUS p.val) F.PG_STATUS_VIRAL_SEEN 1).wmEvent
        (71 + 5 * p.val) [] none).hostDetach p 3
    else s)

def State.updIde (s : State) (g : GroupPortId) (f : Ide → Ide) : State :=
  { s with ide := s.ide.set g.val (f (s.ide[g.val]'(g.isLt))) g.isLt }

/-- IDE_FAILURE (R435). -/
def execIdeFailure (g : GroupPortId) (s : State) : Host.Outcome State Fault Refusal :=
  s.commit (fun s =>
    let s := (s.setFld (.PG_STATUS g.val) F.PG_STATUS_IDE 2).setFld (.PG_STATUS g.val) F.PG_STATUS_IDE_FAIL 1
    ((s.updIde g (fun x => { x with ioSecure := false, cxlSecure := false })).wmEvent (70 + 5 * g.val) [] none).groupLost g 4)

/-- PG_LINK_DOWN (R424, R508): a link leaves UP. Its IDE streams end with it. -/
def execPgLinkDown (g : GroupPortId) (s : State) : Host.Outcome State Fault Refusal :=
  s.commit (fun s =>
    if !s.groupUp g.val then s
    else
      let s := (s.setFld (.PG_STATUS g.val) F.PG_STATUS_LSTATE 3).setFld (.PG_STATUS g.val) F.PG_STATUS_DOWN_SEEN 1
      let s := ((s.clearViral g.val).setFld (.PG_STATUS g.val) F.PG_STATUS_IDE 0).updIde g (fun _ => Ide.reset)
      (s.wmEvent (68 + 5 * g.val) [] none).groupLost g 1)

/-- PG_LINK_UP (R403, R404). A group whose role is OFF does not train. -/
def execPgLinkUp (g : GroupPortId) (speed : BitVec 3) (width : BitVec 5) (flit256 cxl : Bool) (s : State) :
    Host.Outcome State Fault Refusal :=
  s.commit (fun s =>
    if s.pgRole g.val == 0 || s.groupUp g.val then s
    else
      let r := Reg.PG_STATUS g.val
      ((((s.setFld r F.PG_STATUS_LSTATE 2).setFld r F.PG_STATUS_SPEED speed.toNat).setFld r F.PG_STATUS_WIDTH
        width.toNat).setFld r F.PG_STATUS_FLIT256 (if flit256 then 1 else 0)).setFld r F.PG_STATUS_CXL (if cxl then 1 else 0))

/-- IDE_KM_REQUEST (R434): a key is programmed, or a stream that has one goes to SECURE. -/
def execIdeKmRequest (g : GroupPortId) (m : IdeKm) (s : State) : Host.Outcome State Fault Refusal :=
  s.commit (fun s =>
    if !s.groupUp g.val then s
    else
      let s := s.updIde g (fun x =>
        if m.cxl then { x with cxlKey := some m.keys, cxlSecure := x.cxlSecure || m.go }
        else { x with ioKey := some m.keys, ioSecure := x.ioSecure || m.go })
      let x := s.ide[g.val]'(g.isLt)
      if x.ioSecure && x.cxlSecure then s.setFld (.PG_STATUS g.val) F.PG_STATUS_IDE 1 else s)

end Sys2Proof.Machine
end

