-- ==== Sys2Proof/Machine/Boot.lean ====
section
/-! DEFINITION. Rider cores, boot, the levee's close and debug grants (R395, R485 to R505). -/

namespace Sys2Proof.Machine

/-! ### Rider cores -/

/-- A bit of a register's field set or cleared. -/
def State.setBit (s : State) (r : Reg) (i : Nat) (v : Bool) : State :=
  let bit : Word64 := BitVec.ofNat 64 (2 ^ i)
  s.wr r (if v then s.rd r ||| bit else s.rd r &&& ~~~ bit)

/-- A rider core leaves reset at an address. -/
def State.riderStart (s : State) (k : RiderId) (entry : Word64) : State :=
  let s := (s.updRider k (fun _ => { Rider.reset with running := true, entry := entry })).agentLives (48 + k.val)
  if k.val < 2 then s else s.setBit .RC_STATUS k.val true

/-- A rider core goes into reset and is dead (R372, R487). -/
def State.riderStop (s : State) (k : RiderId) : State :=
  let s := s.updRider k (fun _ => Rider.reset)
  let s := { s with boot := { s.boot with hostLines := s.boot.hostLines.filter (fun x => x.2.core != k) } }
  let s := if k.val < 2 then s else (s.setBit .RC_STATUS k.val false).setBit .RC_CTRL k.val false
  if s.agentDead (48 + k.val) then s else s.agentDies (48 + k.val)

/-- Context of a rider core from 2 to 7. -/
def State.riderCtx (s : State) (k : RiderId) : Byte := BitVec.ofNat 8 (s.fld (.LV_RIDER k.val) F.LV_RIDER_CTX)

/-- A release of a rider core is refused (R487); a core of a revoked context, and every core in the safe state, is held in
reset (R519, R520). -/
def State.runRefused (s : State) (k : RiderId) : Bool :=
  let c := s.riderCtx k
  s.fld .LV_CTRL F.LV_CTRL_CLOSED == 0 || c == 0 || !s.ctxValid c ||
    s.ctxField c != s.fld (.LV_RIDER k.val) F.LV_RIDER_FIELD || s.revoked c || s.safe

/-- A write of 1 to bit k of RC_CTRL.RUN. -/
def State.runRelease (s : State) (k : RiderId) : State :=
  if k.val < 2 || (s.rider k).running then s
  else if s.runRefused k then s.setFld .RC_STATUS F.RC_STATUS_ERR 1
  else (s.setBit .RC_CTRL k.val true).riderStart k (s.rd (.RC_ENTRY k.val))

/-- RUN_RELEASE. -/
def execRunRelease (k : RiderId) (s : State) : Host.Outcome State Fault Refusal := s.commit (fun s => s.runRelease k)

/-- A write of 0 to bit k of RC_CTRL.RUN. -/
def State.runReset (s : State) (k : RiderId) : State := if k.val < 2 || !(s.rider k).running then s else s.riderStop k

/-- RUN_RESET. -/
def execRunReset (k : RiderId) (s : State) : Host.Outcome State Fault Refusal := s.commit (fun s => s.runReset k)

/-- An address of the map of cores 0 and 1 (R485); kind is 0 for a load, 1 for a store and 2 for a fetch. -/
def State.riderMapped (s : State) (a : Nat) (kind : Nat) : Bool :=
  let top := a / 2 ^ 48
  a / 2 ^ 52 == 0 || top == 0xE0 || top == 0xE1 || (top == 0xF0 && a % 2 ^ 48 ≤ 0x3FFFFFF) ||
    (top == 0xF1 && a % 2 ^ 48 ≤ 0x1FFFF && kind != 1) ||
    (top == 0xF2 && a % 2 ^ 48 ≤ 0xFFFFF && s.fld .RC_CTRL F.RC_CTRL_L2SRAM == 1)

/-- The access kind of a rider access (R321). -/
def riderAccess (kind : Nat) : BitVec 4 :=
  match kind with
  | 0 => accR
  | 1 => accW
  | _ => accX

/-- RIDER_ACCESS_FAULT (R485, R486): the core takes an access fault; a core from 2 to 7 first looks the range up, and a range
that serves the access is no fault. -/
def execRiderAccessFault (k : RiderId) (addr : Word64) (kind : BitVec 2) (s : State) : Host.Outcome State Fault Refusal :=
  s.commit (fun s =>
    let fault (s : State) : State := s.updRider k (fun x => { x with fault := some (addr, kind) })
    let acc := riderAccess kind.toNat
    if !(s.rider k).running || (s.rider k).halted then s
    else if k.val < 2 then (if s.riderMapped addr.toNat kind.toNat then s else fault s)
    else if 2 ^ 52 ≤ addr.toNat then fault s
    else
      let c := s.riderCtx k
      let s := match s.translate s.boot.rcRider false c addr acc with
        | .miss =>
          match s.rangeWalk c addr.toNat with
          | some e => { s with boot := { s.boot with rcRider := rcFill s.boot.rcRider e } }
          | none => s
        | _ => { s with boot := { s.boot with rcRider := rcUse s.boot.rcRider false c addr.toNat } }
      match s.translate s.boot.rcRider false c addr acc with
      | .ok _ _ => s
      | _ => fault s)

/-- RIDER_FENCE (R395): the core waits until its earlier writes are performed, or, with i or o in the predecessor set, acknowledged; with
none outstanding the fence is over at once. Its accesses are commands, in its program order, so DEVICE loads are in order. -/
def execRiderFence (k : RiderId) (io : Bool) (s : State) : Host.Outcome State Fault Refusal :=
  s.commit (fun s =>
    if !(s.rider k).running || (s.rider k).halted || s.riderFenceOver k then s
    else s.updRider k (fun x => { x with fence := some io }))

/-! ### Boot (R488 to R490) -/

/-- The levee can still be written: LEVEE_CLOSE has not been (R490, R494). -/
def State.leveeOpen (s : State) : Bool := s.fld .LV_CTRL F.LV_CTRL_CLOSED == 0 && !s.boot.loading

/-- The ROM waits for the image. -/
def State.romWaits (s : State) : Bool :=
  (s.rider 0).running && s.leveeOpen && !s.boot.scrub && s.fld .BOOT_STATUS F.BOOT_STATUS_STAGE ≤ 1

/-- A write of LV_CTRL.LEVEE_CLOSE (R494). -/
def State.leveeClose (s : State) : State :=
  if s.leveeOpen then { s with boot := { s.boot with loading := true } } else s

/-- LEVEE_CLOSE. -/
def execLeveeClose (s : State) : Host.Outcome State Fault Refusal := s.commit (fun s => s.leveeClose)

/-- IMAGE_AUTHENTICATED: the image is in the boot SRAM, of 1 MiB, and the ROM has jumped to it. -/
def execImageAuthenticated (image : List Byte) (s : State) : Host.Outcome State Fault Refusal :=
  s.commit (fun s =>
    if s.romWaits then
      { s with boot := { s.boot with image := image.take (2 ^ 20) } }.setFld .BOOT_STATUS F.BOOT_STATUS_STAGE 2
    else s)

/-- IMAGE_TIMEOUT (R489). -/
def execImageTimeout (authFailed : Bool) (s : State) : Host.Outcome State Fault Refusal :=
  s.commit (fun s =>
    if s.romWaits then
      let s := (s.setFld .BOOT_STATUS F.BOOT_STATUS_FAIL (if authFailed then 2 else 1)).setFld
        .BOOT_STATUS F.BOOT_STATUS_STAGE 15
      s.leveeClose.updRider 0 (fun x => { x with running := false })
    else s)

/-- The key slots that the security block loads, and their keys: derived ones, or fresh ones of a stamp for each (R494, R499,
R501). -/
def State.keysToLoad (s : State) (fresh : Nat) : List (Nat × KeyName) :=
  if s.lifecycle == 3 then []
  else
    let key0 := s.fld .LV_CTRL F.LV_CTRL_KEY0
    ((List.range 64).filter (fun j => s.keyField j < 15 || key0 == j)).map (fun j =>
      (j, if s.fld (.LV_KEY j) F.LV_KEY_PERSIST == 1 then
          KeyName.persist (s.fld (.LV_KEY j) F.LV_KEY_LABEL) j s.lifecycle
        else KeyName.random (64 * fresh + j)))

/-- KEYS_LOADED (R488, R494): the levee is closed and core 1 starts at its entry. -/
def execKeysLoaded (s : State) : Host.Outcome State Fault Refusal :=
  s.commit (fun s =>
    if s.boot.loading then
      let (n, s) := s.takeFresh
      let s := { s with boot := { s.boot with loading := false, keys := s.keysToLoad n } }
      (s.setFld .LV_CTRL F.LV_CTRL_CLOSED 1).riderStart 1 (s.rd (.RC_ENTRY 1))
    else s)

/-- SCRUB_DONE (R488): every SRAM holds zeros, and rider core 0 is released. -/
def execScrubDone (s : State) : Host.Outcome State Fault Refusal :=
  s.commit (fun s =>
    if s.boot.scrub then
      let s := (s.zeroSpan slabBase (slabBase + 48 * 0x800000) none).zeroSpan scratchBase 0x4020A000000 none
      let s := (List.finRange 48).foldl (fun s t => s.updTile t (fun x =>
        { x with pmem := [], ta := { x.ta with acc := [], residue := [], accUE := [] }, rcV := [], rcS := [], atoms := [] })) s
      let s := s.updHome (fun h => { h with resv := [], dir := [], owners := [], riderLines := [], dirUE := [] })
      let s := { s with
        accCounts := [], heads := { s.heads with rc := [] }
        boot := { s.boot with scrub := false, keys := [], image := [], rcRider := [], hostLines := [] } }
      if s.rst.cold then s.riderStart 0 bootRom
      else (s.riderStart 0 (s.rd (.RC_ENTRY 0))).riderStart 1 (s.rd (.RC_ENTRY 1))
    else s)

/-! ### Debug grants (R503 to R505) -/

/-- The field of an engine slot. -/
def State.esField (s : State) (e : EngineId) : Nat := s.fld (.ES_FIELD e.val) F.ES_FIELD_FIELD

/-- What ends with a grant: breakpoints of fields where HALT is no longer enabled, and HOLD of their engines. Halted units of
such a field resume at the next turn boundary; dumps and snapshots that have not started, and trace records, meet the
capability where they act; full counters without TRACE hold 0 (R571). -/
def State.debugEnded (s : State) : State :=
  let s := { s with obs := { s.obs with counts := s.obs.counts.filter (fun x =>
    x.1 < 0x1D4000 || s.capOn Cap.TRACE (s.fullField ((x.1 - 0x1D4000) / 8))) } }
  let s := (List.finRange 48).foldl (fun s t =>
    if s.capOn Cap.HALT (s.leveeNibble .LV_TILE t.val) then s else s.setFld (.OBS_BP t.val) F.OBS_BP_ENABLE 0) s
  (List.finRange 16).foldl (fun s e =>
    if s.capOn Cap.HALT (s.esField e) || s.fld (.ES_CTRL e.val) F.ES_CTRL_HOLD == 0 then s else s.esHold e false) s

/-- The grant that is in effect ends. -/
def State.grantEnd (s : State) : State :=
  if s.fld .DBG_GRANT F.DBG_GRANT_VALID == 1 then ((s.wr .DBG_GRANT 0).wr .DBG_LEFT 0).debugEnded else s

/-- A write of DBG_CTRL.CHALLENGE (R504): the nonce is a free value, and not 0. -/
def State.challenge (s : State) : State :=
  let (n, s) := s.takeFresh
  s.wr .DBG_NONCE (if Config.nonce n == 0 then 1 else Config.nonce n)

/-- CHALLENGE. -/
def execChallenge (s : State) : Host.Outcome State Fault Refusal := s.commit (fun s => s.challenge)

/-- A signer is accepted in the life-cycle state (R501): 1 HORPIGEN, 2 INTEGRATOR. -/
def State.signerOk (s : State) (signer : Nat) : Bool :=
  match s.lifecycle with
  | 1 => signer == 1 || signer == 2
  | 2 => signer == 2
  | 3 => signer == 1
  | _ => false

/-- GRANT_INSTALL (R504, R505). -/
def execGrantInstall (grant : DebugGrant) (s : State) : Host.Outcome State Fault Refusal :=
  s.commit (fun s =>
    if grant.nonce == 0 || grant.nonce != s.rd .DBG_NONCE || !s.signerOk grant.signer.toNat ||
        s.fld .LV_CTRL F.LV_CTRL_CLOSED == 0 then s
    else
      let s := ((((s.wr .DBG_GRANT 0).setFld .DBG_GRANT F.DBG_GRANT_VALID 1).setFld .DBG_GRANT F.DBG_GRANT_SIGNER
        grant.signer.toNat).setFld .DBG_GRANT F.DBG_GRANT_CAPS grant.caps.toNat).setFld .DBG_GRANT F.DBG_GRANT_FIELDS
        grant.fields.toNat
      ((s.setFld .DBG_LEFT F.DBG_LEFT_SECONDS grant.lifetime.toNat).wr .DBG_NONCE 0).debugEnded)

/-- REVOKE: a write of DBG_CTRL.REVOKE. -/
def execRevoke (s : State) : Host.Outcome State Fault Refusal := s.commit (fun s => s.grantEnd)

/-- GRANT_EXPIRY: the lifetime has run out. -/
def execGrantExpiry (s : State) : Host.Outcome State Fault Refusal := s.commit (fun s => s.grantEnd)

end Sys2Proof.Machine
end

