-- ==== Sys2Proof/Machine/ParcelBytes.lean ====
section
/-! DEFINITION. The bytes of canal parcels and of coherent flits: headers and payloads (R251 to R256, R353, R527), the CRC of a
parcel (R255), and what a receiver reads from the bytes of a slot. -/

namespace Sys2Proof

/-- The flit positions a message takes: its header, and its data flit (R353). -/
def CohMsg.flits (m : CohMsg) : Nat := if m.hasData then 2 else 1

end Sys2Proof

namespace Sys2Proof.Machine

/-- The number that n bytes at an offset hold, little-endian (R9). -/
def numAt (bs : List Byte) (off n : Nat) : Nat := leNat ((bs.drop off).take n)

/-- Bit i of a number. -/
def natBit (x i : Nat) : Bool := x / 2 ^ i % 2 == 1

def boolNat (b : Bool) : Nat := if b then 1 else 0

/-- Bytes filled up with zeros, or cut, to n. -/
def padTo (n : Nat) (bs : List Byte) : List Byte := (bs ++ List.replicate n 0).take n

/-! ### Coherent flits (R353) -/

/-- The 64 bytes of a header flit. -/
def cohHeader (m : CohMsg) : List Byte :=
  leBytes 1 (m.cls.toNat + 4 * boolNat m.hasData) ++ [m.opc, m.ctx] ++
  leBytes 1 (m.grant.toNat + 4 * m.typ.toNat + 16 * m.status.toNat) ++
  leBytes 4 (m.srcAgent.toNat + 2 ^ 8 * m.srcChip.toNat) ++ leBytes 4 (m.dstAgent.toNat + 2 ^ 8 * m.dstChip.toNat) ++
  leBytes 2 m.txn.toNat ++ leBytes 1 (m.aop.toNat + 16 * m.sz.toNat) ++ [0] ++ leBytes 8 m.addr.toNat ++
  leBytes 8 m.byteMask.toNat ++ leBytes 8 m.opA.toNat ++ leBytes 8 m.opB.toNat ++ List.replicate 16 0

/-- The flits of a message: its header, and its data flit, byte i of which is byte i of the line. -/
def cohBytes (m : CohMsg) : List Byte := cohHeader m ++ (if m.hasData then padTo 64 m.data else [])

/-- The message of a header flit and the 64 bytes after it. -/
def cohOfBytes (h data : List Byte) : CohMsg :=
  let b0 := numAt h 0 1
  let b3 := numAt h 3 1
  let src := numAt h 4 4
  let dst := numAt h 8 4
  let b14 := numAt h 14 1
  { cls := BitVec.ofNat 2 b0, hasData := natBit b0 2, opc := BitVec.ofNat 8 (numAt h 1 1), ctx := BitVec.ofNat 8 (numAt h 2 1)
    grant := BitVec.ofNat 2 b3, typ := BitVec.ofNat 2 (b3 / 4), status := BitVec.ofNat 4 (b3 / 16)
    srcAgent := BitVec.ofNat 8 src, srcChip := BitVec.ofNat 9 (src / 2 ^ 8), dstAgent := BitVec.ofNat 8 dst
    dstChip := BitVec.ofNat 9 (dst / 2 ^ 8), txn := BitVec.ofNat 12 (numAt h 12 2), aop := BitVec.ofNat 4 b14
    sz := BitVec.ofNat 3 (b14 / 16), addr := BitVec.ofNat 64 (numAt h 16 8), byteMask := BitVec.ofNat 64 (numAt h 24 8)
    opA := BitVec.ofNat 64 (numAt h 32 8), opB := BitVec.ofNat 64 (numAt h 40 8)
    data := if natBit b0 2 then data.take 64 else [] }

/-- The messages of the flit positions of a payload that hold flits: n of them are left (R254). -/
def flitMsgs : Nat → Nat → List Byte → List CohMsg
  | 0, _, _ => []
  | _, 0, _ => []
  | fuel + 1, n, bs =>
    let m := cohOfBytes (bs.take 64) (bs.drop 64)
    m :: flitMsgs fuel (n - m.flits) (bs.drop (64 * m.flits))

/-! ### Parcels (R252 to R256, R527) -/

/-- TYPE of a parcel (R252). -/
def Parcel.type : Parcel → Nat
  | .idle => 0
  | .data _ => 1
  | .signal _ => 2
  | .stretch _ => 3
  | .ping _ => 4
  | .digest _ => 5
  | .halt _ _ _ => 6
  | .container _ => 7

/-- Bits [95:0] of the header (R253, R254). -/
def Parcel.head (p : Parcel) : Nat :=
  p.type +
  match p with
  | .data d =>
    2 ^ 8 * d.stream.toNat + 2 ^ 16 * d.destChip.toNat + 2 ^ 25 * boolNat d.part + 2 ^ 26 * (if d.part then d.win.toNat else 0) +
      2 ^ 32 * d.ctx.toNat + 2 ^ 40 * (if d.part then d.plenM1.toNat else 0) + 2 ^ 48 * d.laddr.toNat
  | .signal g =>
    2 ^ 8 * g.stream.toNat + 2 ^ 16 * g.destChip.toNat + 2 ^ 32 * g.ctx.toNat + 2 ^ 48 * g.sig.toNat + 2 ^ 56 * g.tile.toNat
  | .container c =>
    let n := (c.flits.map CohMsg.flits).foldl (· + ·) 0
    2 ^ 8 * (2 ^ min n 4 - 1) + 2 ^ 16 * c.seq.toNat + 2 ^ 28 * c.ack.toNat + 2 ^ 40 * boolNat c.nak + 2 ^ 48 * c.crReq.toNat +
      2 ^ 56 * c.crSnp.toNat + 2 ^ 64 * c.crRsp.toNat +
      (match c.crSigTile with
       | some t => 2 ^ 72 * t.toNat + 2 ^ 78
       | none => 0)
  | _ => 0

/-- The 256 bytes of the payload (R252, R256, R527). The bytes of a window stand at their place in the line. -/
def Parcel.payload (p : Parcel) : List Byte :=
  padTo 256
    (match p with
     | .data d => if d.part then List.replicate (32 * d.win.toNat) 0 ++ d.data.take 32 else d.data
     | .signal g => leBytes 8 g.add.toNat
     | .stretch x => leBytes 8 x.tsend.toNat ++ leBytes 1 x.n.toNat ++ x.m.toList.flatMap (fun v => leBytes 1 v.toNat)
     | .ping m =>
       leBytes 8 m.t1.toNat ++ leBytes 8 m.t2.toNat ++ leBytes 8 m.t3.toNat ++ leBytes 8 m.offset.toNat ++
       leBytes 2 m.rtt.toNat ++ leBytes 2 m.inLat.toNat ++
       leBytes 1 ((m.num - 1) % 4 + 4 * boolNat m.offsetValid + 8 * boolNat m.epochValid + 16 * boolNat m.side) ++ [m.depth] ++
       leBytes 2 m.chip.toNat
     | .digest d =>
       leBytes 8 d.turn.toNat ++ leBytes 8 d.sum.toNat ++ leBytes 4 d.items.toNat ++
       leBytes 2 (d.chip.toNat + 2 ^ 9 * boolNat d.side) ++ leBytes 1 (boolNat d.late)
     | .halt chip side source => leBytes 2 (chip.toNat + 2 ^ 9 * boolNat side) ++ [source]
     | .container c => c.flits.flatMap cohBytes
     | .idle => [])

/-- The CRC of a parcel: over header bytes [11:0] and the payload (R255). -/
def parcelCrc (head payload : List Byte) : Nat := crc32 (head ++ payload)

/-- The 272 bytes of a parcel, the header first (R251). -/
def Parcel.bytes (p : Parcel) : List Byte :=
  let head := leBytes 12 p.head
  head ++ leBytes 4 (parcelCrc head p.payload) ++ p.payload

/-- The parcel that the bytes of a slot spell; none where the CRC does not match or TYPE is reserved (R252, R255). -/
def Parcel.ofBytes (bs : List Byte) : Option Parcel :=
  let h := numAt bs 0 12
  let y := bs.drop 16
  let chip := BitVec.ofNat 9 (natBits h 24 16)
  if bs.length != 272 || numAt bs 12 4 != parcelCrc (bs.take 12) y then none
  else
    match natBits h 3 0 with
    | 0 => some .idle
    | 1 =>
      let part := natBit h 25
      let win := natBits h 28 26
      let plen := natBits h 44 40
      some (.data
        { stream := BitVec.ofNat 8 (natBits h 15 8), destChip := chip, part := part
          win := if part then BitVec.ofNat 3 win else 0, ctx := BitVec.ofNat 8 (natBits h 39 32)
          plenM1 := if part then BitVec.ofNat 5 plen else 0, laddr := BitVec.ofNat 35 (natBits h 82 48)
          data := if part then (y.drop (32 * win)).take (plen + 1) else y })
    | 2 => some (.signal
        { stream := BitVec.ofNat 8 (natBits h 15 8), destChip := chip, ctx := BitVec.ofNat 8 (natBits h 39 32)
          tile := BitVec.ofNat 6 (natBits h 61 56), sig := BitVec.ofNat 6 (natBits h 53 48), add := BitVec.ofNat 64 (numAt y 0 8) })
    | 3 => some (.stretch
        { tsend := BitVec.ofNat 64 (numAt y 0 8), n := BitVec.ofNat 6 (numAt y 8 1)
          m := Vector.ofFn (fun i : Fin 8 => BitVec.ofNat 6 (numAt y (9 + i.val) 1)) })
    | 4 =>
      let b := numAt y 36 1
      some (.ping
        { num := b % 4 + 1, t1 := BitVec.ofNat 64 (numAt y 0 8), t2 := BitVec.ofNat 64 (numAt y 8 8)
          t3 := BitVec.ofNat 64 (numAt y 16 8), offset := BitVec.ofNat 64 (numAt y 24 8), rtt := BitVec.ofNat 16 (numAt y 32 2)
          inLat := BitVec.ofNat 16 (numAt y 34 2), offsetValid := natBit b 2, epochValid := natBit b 3, side := natBit b 4
          depth := BitVec.ofNat 8 (numAt y 37 1), chip := BitVec.ofNat 9 (numAt y 38 2) })
    | 5 =>
      let b := numAt y 20 2
      some (.digest
        { turn := BitVec.ofNat 64 (numAt y 0 8), sum := BitVec.ofNat 64 (numAt y 8 8), items := BitVec.ofNat 32 (numAt y 16 4)
          chip := BitVec.ofNat 9 b, side := natBit b 9, late := natBit (numAt y 22 1) 0 })
    | 6 =>
      let b := numAt y 0 2
      some (.halt (BitVec.ofNat 9 b) (natBit b 9) (BitVec.ofNat 8 (numAt y 2 1)))
    | 7 =>
      let v := natBits h 11 8
      let n := boolNat (natBit v 0) + boolNat (natBit v 1) + boolNat (natBit v 2) + boolNat (natBit v 3)
      some (.container
        { flits := flitMsgs 4 n y, seq := BitVec.ofNat 12 (natBits h 27 16), ack := BitVec.ofNat 12 (natBits h 39 28)
          nak := natBit h 40, crReq := BitVec.ofNat 8 (natBits h 55 48), crSnp := BitVec.ofNat 8 (natBits h 63 56)
          crRsp := BitVec.ofNat 8 (natBits h 71 64)
          crSigTile := if natBit h 78 then some (BitVec.ofNat 6 (natBits h 77 72)) else none })
    | _ => none

/-- A parcel's type is allowed in a slot (R249, R255): twin says that the link joins a twin pair, running that a rotation runs. -/
def slotAllows (twin running : Bool) (slot type : Nat) : Bool :=
  type == 6 ||
  (if slot == 0 then type == 0 || type == 3
   else if slot == 1 then type == 0 || type == 4
   else if twin then (if slot == 2 then type == 5 else type == 0)
   else if slot < 360 && running then type == 0 || type == 1 || type == 2 || type == 7
   else type == 7)

end Sys2Proof.Machine
end

