-- ==== Sys2Proof/Machine/Canal.lean ====
section
/-! DEFINITION. Canal links (R246 to R274): slots and what they carry, parcels received, the slot map, relaying and
delivery, containers under go-back-N, remote requests, link failure and halt. -/

namespace Sys2Proof.Machine

/-- Sequencers that wait for a credit or a word try again. -/
def State.wakeAll (s : State) : State :=
  (List.finRange 48).foldl (fun s t => if (s.tile t).wait.isSome then s.seqWake t else s) s

/-! ### Failure (R269) -/

/-- A piece of a sluice descriptor whose write toward another chip a link carries, or is to carry: it has not left yet. -/
def SlMove.boundTo (m : SlMove) (l : LinkId) : Bool := m.link == l.val && m.sent && !m.performed && m.due.isNone

/-- Where a channel is bound to a link (R214, R269): at its running descriptor that names the link, or at the descriptor of a piece
that waits for one of its S slots. -/
def State.chanBound (s : State) (t : TileId) (c : ChanId) (l : LinkId) : Option (Nat × Byte) :=
  if s.chanSched t c && s.chanState t c.val != 0 then
    let x := s.chan t c
    match x.desc.bind (fun d => if d.link == l.val then some (d.off, d.ctx) else none) with
    | some y => some y
    | none => (x.flight.find? (fun m => m.boundTo l)).map (fun m => (m.desc, m.ctx))
  else none

/-- Every channel bound to a link stops with LINK (R269). What it had sent to the link is discarded with the link's queue. -/
def State.stopBound (s : State) (l : LinkId) (quiet : Bool) : State :=
  (List.finRange 48).foldl (fun s t => (List.finRange 8).foldl (fun s c =>
    match s.chanBound t c l with
    | some (off, ctx) =>
      (s.updChan t c (fun x => { x with flight := x.flight.filter (fun m => !m.boundTo l) })).chanStop t c off Sl.LINK ctx quiet
    | none => s) s) s

/-- A request that a link carried ends refused with PORT (R267, R269): at this chip's tile, or toward its requester. -/
def State.refuseRequest (s : State) (m : CohMsg) : State :=
  if m.cls != 0 then s
  else if m.srcChip.toNat == s.chipId && m.srcAgent.toNat < 48 then
    match (s.tile (tileOf m.srcAgent)).findReq m.txn with
    | some r => s.failReq (tileOf m.srcAgent) r 4
    | none => s
  else
    s.emit (.coh { s.flit 2 0x4A m.dstAgent m.srcAgent m.addr.toNat m.txn with dstChip := m.srcChip, status := 4 })

/-- The requests that a link carried and that await their answers end refused (R269, R270). -/
def State.refuseCarried (s : State) (l : LinkId) : State :=
  (s.link l).carried.foldl (fun s m => s.refuseRequest m) (s.updLink l (fun x => { x with carried := [] }))

/-- The effects of R269 on a link that goes to a state: 3 DOWN or 0 DISABLED. A quiet change raises no source (R247). -/
def State.linkFails (s : State) (l : LinkId) (lstate : Nat) (quiet : Bool) : State :=
  let x := s.link l
  let s := s.refuseCarried l
  let s := s.setFld (.CN_STATUS l.val) F.CN_STATUS_LSTATE lstate
  let s := if !quiet && !(x.sendQ.isEmpty && x.relayQ.isEmpty) then s.sParcelError l else s
  let s := s.stopBound l quiet
  let s := if s.rotRunning then s.setFld (.CN_STATUS l.val) F.CN_STATUS_S_BLOCKED 1 else s
  let s := s.updLink l (fun x =>
    { x with
      sendQ := [], relayQ := [], retry := [], cOut := [], replaying := 0, replays := 0, nak := false, errored := 0
      sigOut := [] })
  let s := (s.setFld (.LK_PING l.val) F.LK_PING_LAT_VALID 0).latSig
  if x.ping.busy then
    (if quiet then s.updPing l (fun p => { p with auto := false }) else s).pingFail l 3
  else s

/-- A link goes DOWN and says so (R269). -/
def State.linkDown (s : State) (l : LinkId) : State :=
  ((s.linkFails l 3 false).setFld (.CN_STATUS l.val) F.CN_STATUS_DOWN_SEEN 1).wmEvent 98 [] none

/-- LINK_DOWN (R269): loss of training. -/
def execLinkDown (l : LinkId) (s : State) : Host.Outcome State Fault Refusal :=
  s.commit (fun s => if s.linkUp l then s.linkDown l else s)

/-- LINK_UP (R247, R266, R269): training is complete; SEQ and credits start again. -/
def execLinkUp (l : LinkId) (s : State) : Host.Outcome State Fault Refusal :=
  s.commit (fun s =>
    let st := s.fld (.CN_STATUS l.val) F.CN_STATUS_LSTATE
    if s.fld (.CN_CTRL l.val) F.CN_CTRL_ENABLE == 1 && (st == 1 || st == 3) then
      (s.setFld (.CN_STATUS l.val) F.CN_STATUS_LSTATE 2).updLink l (fun x =>
        { x with
          seq := 1, lastRx := 0, nak := false, retry := [], replaying := 0, replays := 0, errored := 0
          credReq := 64, credSnp := 64, credRsp := 64, oweReq := 0, oweSnp := 0, oweRsp := 0, oweSig := []
          sigCredit := Vector.replicate 48 true }) |>.wakeAll
    else s)

/-- CN_ENABLE (R247): a write of CN_CTRL.ENABLE. -/
def State.cnEnable (s : State) (l : LinkId) (v : Bool) : State :=
  let s := s.setFld (.CN_CTRL l.val) F.CN_CTRL_ENABLE (if v then 1 else 0)
  let st := s.fld (.CN_STATUS l.val) F.CN_STATUS_LSTATE
  if v then (if st == 0 then s.setFld (.CN_STATUS l.val) F.CN_STATUS_LSTATE 1 else s)
  else if st == 0 then s
  else s.linkFails l 0 true

def execCnEnable (l : LinkId) (v : Bool) (s : State) : Host.Outcome State Fault Refusal :=
  s.commit (fun s => s.cnEnable l v)

/-- RETRAIN (R274): DOWN without raising link-down, then training again. -/
def State.retrain (s : State) (l : LinkId) : State :=
  if s.linkUp l then (s.linkFails l 3 false).setFld (.CN_STATUS l.val) F.CN_STATUS_DOWN_SEEN 1 else s

def execRetrain (l : LinkId) (s : State) : Host.Outcome State Fault Refusal :=
  s.commit (fun s => s.retrain l)

/-! ### The slot map (R257 to R259, R274) -/

/-- INDEX after an access with AUTOINC. -/
def mapNext (sel : Bool) (i : Nat) : Nat :=
  if sel then (i + 1) % 256
  else if 359 ≤ i % 512 then (i / 512 + 1) % 16 * 512
  else i + 1

/-- An access of CN_MAPDATA advances INDEX where AUTOINC is 1. -/
def State.mapAdvance (s : State) (l : LinkId) : State :=
  let r := Reg.CN_MAPADDR l.val
  if s.fld r F.CN_MAPADDR_AUTOINC == 1 then
    s.setFld r F.CN_MAPADDR_INDEX (mapNext (s.fld r F.CN_MAPADDR_SEL == 1) (s.fld r F.CN_MAPADDR_INDEX))
  else s

/-- A write of CN_MAPDATA. -/
def State.cnMapWrite (s : State) (l : LinkId) (v : Word32) : State :=
  if s.rotState != 0 then s.setFld (.CN_STATUS l.val) F.CN_STATUS_MAP_WERR 1
  else
    let r := Reg.CN_MAPADDR l.val
    let sel := s.fld r F.CN_MAPADDR_SEL == 1
    let i := s.fld r F.CN_MAPADDR_INDEX
    let s := s.updLink l (fun x =>
      if sel then { x with sched := Assoc.put id 0 x.sched (i % 256) v }
      else if i % 512 < 360 then
        { x with slotMap := Assoc.put id 0 x.slotMap i (v.setWidth 16), mapUE := x.mapUE.filter (· != i) }
      else x)
    s.mapAdvance l

/-- CN_MAPDATA_WRITE (R259). -/
def execCnMapdataWrite (l : LinkId) (v : Word32) (s : State) : Host.Outcome State Fault Refusal :=
  s.commit (fun s => s.cnMapWrite l v)

/-- What CN_MAPDATA reads (R274). -/
def State.cnMapRead (s : State) (l : LinkId) : Word32 :=
  let r := Reg.CN_MAPADDR l.val
  let i := s.fld r F.CN_MAPADDR_INDEX
  if s.fld r F.CN_MAPADDR_SEL == 1 then (Assoc.get? (s.link l).sched (i % 256)).getD 0
  else if i % 512 < 360 then (((Assoc.get? (s.link l).slotMap i).getD 0).setWidth 32)
  else 0

/-- The kinds of a slot (R257). -/
inductive SlotKind where
  | c
  | local_ (stream : Byte)
  | relay (stream : Byte)
  | idle
deriving DecidableEq, Repr

/-- The place of a slot's entry in the map memory: in the link's current page (R258). -/
def State.mapIndex (s : State) (l : LinkId) (slot : Nat) : Nat :=
  bitsOf ((Assoc.get? (s.link l).sched (s.link l).entry).getD 0) 31 28 * 512 + slot

/-- The kind that the slot map gives a slot in the link's current page (R257, R258). -/
def State.mapKind (s : State) (l : LinkId) (slot : Nat) : SlotKind :=
  let x := s.link l
  let e := (Assoc.get? x.slotMap (s.mapIndex l slot)).getD 0
  let stream : Byte := BitVec.ofNat 8 (bitsOf e 7 0)
  if bitsOf e 13 8 != 0 then .idle
  else
    match bitsOf e 15 14 with
    | 0 => if stream == 0 then .c else .idle
    | 1 => .local_ stream
    | 2 => .relay stream
    | _ => .idle

/-! ### Containers (R254, R265, R266) -/

/-- A link has a credit for a message (R266). -/
def Link.credit (x : Link) (m : CohMsg) : Bool :=
  match m.cls.toNat with
  | 0 => m.flits ≤ x.credReq
  | 1 => m.flits ≤ x.credSnp
  | 2 => m.flits ≤ x.credRsp
  | _ => true

def Link.useCredit (x : Link) (m : CohMsg) : Link :=
  match m.cls.toNat with
  | 0 => { x with credReq := x.credReq - m.flits }
  | 1 => { x with credSnp := x.credSnp - m.flits }
  | 2 => { x with credRsp := x.credRsp - m.flits }
  | _ => x

/-- The messages of a container: in the order of the queue, those whose class has credits, up to four flit positions. After
a HALT parcel only responses leave (R270). -/
def pickFlits (halted : Bool) : Nat → Link → List CohMsg → List CohMsg × Link
  | _, x, [] => ([], x)
  | room, x, m :: r =>
    if m.flits ≤ room && x.credit m && !(halted && m.cls != 2) then
      let (ms, y) := pickFlits halted (room - m.flits) ((x.useCredit m)) r
      (m :: ms, y)
    else
      let (ms, y) := pickFlits halted room x r
      (ms, y)

/-- The container that the next C slot of a link carries, and the link after it. After a HALT parcel no container leaves that needs
a reply, a replayed one neither (R270). -/
def Link.container (x : Link) (word : Nat → Word64 → CohMsg) : Container × Link :=
  let halted := x.halted
  let fields (c : Container) : Container :=
    { c with
      ack := BitVec.ofNat 12 x.lastRx, nak := x.nak, crReq := BitVec.ofNat 8 (min 255 x.oweReq)
      crSnp := BitVec.ofNat 8 (min 255 x.oweSnp), crRsp := BitVec.ofNat 8 (min 255 x.oweRsp)
      crSigTile := x.oweSig.head?.map (fun t => BitVec.ofNat 6 t.val) }
  let y : Link :=
    { x with
      oweReq := x.oweReq - min 255 x.oweReq, oweSnp := x.oweSnp - min 255 x.oweSnp, oweRsp := x.oweRsp - min 255 x.oweRsp
      oweSig := x.oweSig.drop 1 }
  let empty : Container :=
    { flits := [], seq := 0, ack := 0, nak := false, crReq := 0, crSnp := 0, crRsp := 0, crSigTile := none }
  if x.replaying != 0 then
    match x.retry[x.retry.length - x.replaying]? with
    | some c =>
      if halted && c.flits.any (fun m => m.cls != 2) then (fields empty, y)
      else (fields c, { y with replaying := x.replaying - 1 })
    | none => (fields empty, { y with replaying := 0 })
  else if 64 ≤ x.retry.length then (fields empty, y)
  else
    let (ms, y) := pickFlits halted 4 y x.cOut
    let room := 4 - (ms.map CohMsg.flits).foldl (· + ·) 0
    let sigs := if halted then [] else x.sigOut.take room
    let ms' := ms ++ sigs.map (fun p => word p.1 p.2)
    if ms'.isEmpty then (fields empty, y)
    else
      let c := { fields empty with flits := ms', seq := BitVec.ofNat 12 x.seq }
      (c, { y with
        cOut := ms.foldl (fun q m => q.erase m) x.cOut, sigOut := x.sigOut.drop sigs.length, retry := x.retry ++ [c]
        seq := (x.seq + 1) % 4096 })

/-- A signal word as a flit of the signal class (R192, R353). -/
def State.wordFlit (s : State) (l : LinkId) (tile : Nat) (v : Word64) : CohMsg :=
  { s.flit 3 0x60 (BitVec.ofNat 8 (134 + l.val)) 0 0 0 with opA := v, opB := BitVec.ofNat 64 tile }

/-! ### Slots (R248 to R250) -/

/-- The flit of a stream that a local slot takes: the earliest, the lower tile first (R260). -/
def pickSend (q : List SendFlit) (stream : Byte) : Option SendFlit :=
  (q.filter (fun f => f.stream == stream)).foldl (fun b f =>
    match b with
    | none => some f
    | some g => if f.arrival < g.arrival || (f.arrival == g.arrival && f.tile.val < g.tile.val) then some f else some g) none

def DataOrSignal.stream (p : DataParcel ⊕ SignalParcel) : Byte :=
  match p with
  | .inl d => d.stream
  | .inr d => d.stream

def DataOrSignal.parcel (p : DataParcel ⊕ SignalParcel) : Parcel :=
  match p with
  | .inl d => .data d
  | .inr d => .signal d

/-- The STRETCH parcel of slot 0 (R241, R256). -/
def State.stretchParcel (s : State) : StretchParcel where
  tsend := s.timestamp
  n := BitVec.ofNat 6 s.rot.m[0]
  m := Vector.ofFn (fun (i : Fin 8) => BitVec.ofNat 6 (s.rot.m[i.val + 1]'(by omega)))

/-- The DIGEST parcel of slot 2 on a twin link (R524, R527). -/
def State.digestParcel (s : State) : DigestParcel :=
  match s.twinActive, s.twin.own with
  | true, some d => d
  | _, _ =>
    { turn := BitVec.allOnes 64, sum := 0, items := 0, chip := BitVec.ofNat 9 s.chipId
      side := s.fld .TB_CHIP F.TB_CHIP_SIDE == 1, late := false }

/-- A C slot. -/
def State.cSlot (s : State) (l : LinkId) : Parcel × State :=
  let (c, x) := (s.link l).container (s.wordFlit l)
  (.container c, s.updLink l (fun _ => x))

/-- The point of an FCLK, counted in cycles 0 to 1,799 of the turns since the epoch (R262). -/
def pointOf (turn : Nat) (cycle : Nat) : Nat := 1800 * turn + cycle

/-- The point at which an outbound slot of the running turn begins (R248). -/
def State.slotPoint (s : State) (slot : Nat) : Nat := pointOf s.turnNo.toNat (5 * slot)

/-- A piece of a sluice descriptor leaves in its S slot: it is performed at its target after LK_LAT.OUT of the sending link, and
what the far chip takes from there (R204, R225). -/
def State.pieceLeft (s : State) (l : LinkId) (slot : Nat) (f : SendFlit) : State :=
  match f.piece, f.parcel with
  | some (c, id), .inl d =>
    s.updMove f.tile c id (fun m =>
      { m with due := some (s.rd .TB_RAW + BitVec.ofNat 64
          (5 * slot - s.cycle + s.fld (.LK_LAT l.val) F.LK_LAT_OUT + Config.farLatency d.destChip d.laddr)) })
  | _, _ => s

/-- A link joins the block to its twin (R273). -/
def State.twinLink (s : State) (l : LinkId) : Bool := 34 ≤ l.val && s.fld .TB_CHIP F.TB_CHIP_TWIN == 1

/-- What an outbound slot carries, the first matching line of R249 applying, and the state after it. -/
def State.slotParcel (s : State) (l : LinkId) (slot : Nat) : Parcel × State :=
  let twin := s.twinLink l
  let noS := (s.link l).halted || s.fld (.CN_STATUS l.val) F.CN_STATUS_S_BLOCKED == 1
  if s.safe then
    (.halt (BitVec.ofNat 9 s.chipId) (s.fld .TB_CHIP F.TB_CHIP_SIDE == 1) (BitVec.ofNat 8 (s.fld .WM_STATE F.WM_STATE_FATAL_SRC)), s)
  else if slot == 0 then
    (if s.epochValid && s.fld (.LK_PING l.val) F.LK_PING_LAT_VALID == 1 then .stretch s.stretchParcel else .idle, s)
  else if slot == 1 then
    match (s.link l).ping.due with
    | some k => ((Parcel.ping (s.pingSend l k).1), (s.pingSend l k).2)
    | none => (.idle, s)
  else if twin && slot == 2 then (.digest s.digestParcel, s)
  else if twin then (.idle, s)
  else if 360 ≤ slot || !s.rotRunning then s.cSlot l
  else
    if (s.link l).mapUE.contains (s.mapIndex l slot) then (.idle, s.sParcelError l)
    else
      match s.mapKind l slot with
      | .c => s.cSlot l
      | .idle => (.idle, s)
      | .local_ stream =>
        match if noS then none else pickSend (s.link l).sendQ stream with
        | some f =>
          (DataOrSignal.parcel f.parcel,
            (s.updLink l (fun x => { x with sendQ := x.sendQ.erase f })).pieceLeft l slot f)
        | none => (.idle, s)
      | .relay stream =>
        match if noS then none else (s.link l).relayQ.find? (fun p =>
          DataOrSignal.stream p.parcel == stream && p.point + 2 ≤ s.slotPoint slot) with
        | some p => (DataOrSignal.parcel p.parcel, s.updLink l (fun x => { x with relayQ := x.relayQ.erase p }))
        | none => (.idle, s)

/-- SLOT (R248, R249): an outbound slot of a link that is UP begins and sends its parcel. -/
def execSlot (l : LinkId) (slot : Nat) (s : State) : Host.Outcome State Fault Refusal :=
  s.commit (fun s =>
    let n := s.fld .ROT_STATUS F.ROT_STATUS_STRETCH
    if s.linkUp l && slot < 360 + 9 * n && s.cycle ≤ 5 * slot && (slot < 360 || 1800 ≤ s.cycle) then
      let s := s.advanceTo (5 * slot)
      let (p, s) := s.slotParcel l slot
      s.emit (.parcel l slot p p.bytes)
    else s)

/-! ### Parcels received -/

/-- A parcel arrived intact. -/
def State.intact (s : State) (l : LinkId) : State := s.updLink l (fun x => { x with errored := 0 })

/-- An errored parcel (R255, R265, R269, R271): it is discarded; in a timebase, S or digest slot it raises the S-parcel error
source, in a slot that may carry a container it asks for a replay; eight in a row take the link DOWN. -/
def State.erroredParcel (s : State) (l : LinkId) (slot : Nat) : State :=
  let twin := s.twinLink l
  let s := (s.updLink l (fun x => { x with errored := x.errored + 1 })).linkCount l.val 2 1
  let s := if slot < 2 || twin || (slot < 360 && s.rotRunning) then s.sParcelError l else s
  let s := if 2 ≤ slot && !twin then s.updLink l (fun x => { x with nak := true }) else s
  if 8 ≤ (s.link l).errored then s.linkDown l else s

/-- A parcel of a type arrives in a slot: one whose type the slot does not allow is errored (R249, R255), and any other is intact. -/
def State.received (s : State) (l : LinkId) (slot type : Nat) (go : State → State) : State :=
  if !s.linkUp l then s
  else if slotAllows (s.twinLink l) s.rotRunning slot type then go (s.intact l)
  else s.erroredParcel l slot

/-- ERRORED_PARCEL (R255): the 272 bytes of a slot spell no parcel, or one that the slot does not allow, or the chiplet flags them. -/
def execErroredParcel (l : LinkId) (slot : InSlot RawParcel) (s : State) : Host.Outcome State Fault Refusal :=
  s.commit (fun s =>
    let good := match Parcel.ofBytes slot.item.bytes with
      | some p => slotAllows (s.twinLink l) s.rotRunning slot.slot p.type
      | none => false
    if s.linkUp l && (slot.item.flagged || !good) then s.erroredParcel l slot.slot else s)

/-- IDLE (R252). -/
def execIdle (l : LinkId) (slot : Nat) (s : State) : Host.Outcome State Fault Refusal :=
  s.commit (fun s => s.received l slot 0 id)

/-- The outbound link that CN_STREAM of a receiving link names for a stream (R261, R273, R274). -/
def State.relayLink (s : State) (l : LinkId) (stream : Byte) : Option LinkId :=
  let v := bitsOf (s.rd (.CN_STREAM l.val (stream.toNat / 4))) (8 * (stream.toNat % 4) + 7) (8 * (stream.toNat % 4))
  if v < 36 && !(34 ≤ v && s.fld .TB_CHIP F.TB_CHIP_TWIN == 1) then some ⟨v % 36, Nat.mod_lt _ (by decide)⟩ else none

/-- The point at which a link hands over the parcel of a slot (R262): the sending slot's, advanced by LK_LAT.IN. A slot whose parcel
can only have come this turn is this turn's; else the slot is the past turn's where it has not begun yet in this one. -/
def State.handOver (s : State) (l : LinkId) (slot : Nat) : Nat :=
  let lat := s.fld (.LK_LAT l.val) F.LK_LAT_IN
  let turn := s.turnNo.toNat
  pointOf (if 5 * slot + lat < 1800 || 5 * slot < s.cycle then turn else turn - 1) (5 * slot) + lat

/-- A valid DATA or SIGNAL parcel waits in the link's arrival buffer for its point (R262). -/
def State.sArrive (s : State) (l : LinkId) (slot : Nat) (p : DataParcel ⊕ SignalParcel) : State :=
  let a : Arrival := ⟨s.handOver l slot, p⟩
  s.updLink l (fun x => { x with arrivals := x.arrivals ++ [a] })

/-- DATA_PARCEL (R261). -/
def execDataParcel (l : LinkId) (p : InSlot DataParcel) (s : State) : Host.Outcome State Fault Refusal :=
  s.commit (fun s => s.received l p.slot 1 (fun s => (s.linkCount l.val 1 p.item.data.length).sArrive l p.slot (.inl p.item)))

/-- SIGNAL_PARCEL (R261). -/
def execSignalParcel (l : LinkId) (p : InSlot SignalParcel) (s : State) : Host.Outcome State Fault Refusal :=
  s.commit (fun s => s.received l p.slot 2 (fun s => (s.linkCount l.val 1 8).sArrive l p.slot (.inr p.item)))

/-- The mesh position of a canal link's stop, its row and column moved by one (R224). -/
def linkPos (l : LinkId) : Nat × Nat := if l.val < 18 then (0, 1 + 8 * l.val / 18) else (7, 1 + 8 * (l.val - 18) / 18)

/-- D between two link stops on a minimal route (R225). DESIGN CHOICE (log 122): the route of a relayed parcel is minimal. -/
def relayDelay (a b : LinkId) : Nat :=
  let d (x y : Nat) : Nat := (x - y) + (y - x)
  4 + d (linkPos a).1 (linkPos b).1 + d (linkPos a).2 (linkPos b).2

/-- A parcel for another chip is handed over at a point (R261): it moves to the relay queue of the link that CN_STREAM names. -/
def State.relay (s : State) (l : LinkId) (point : Nat) (p : DataParcel ⊕ SignalParcel) : State :=
  match s.relayLink l (DataOrSignal.stream p) with
  | some o =>
    if (s.link o).relayQ.length < 16 then
      let a : Arrival := ⟨point + relayDelay l o, p⟩
      s.updLink o (fun x => { x with relayQ := x.relayQ ++ [a] })
    else (s.setFld (.CN_STATUS o.val) F.CN_STATUS_RELAY_OVF 1).sParcelError o
  | none => (s.setFld (.CN_STATUS l.val) F.CN_STATUS_MISROUTE 1).sParcelError l

/-- The bytes a local DATA parcel writes (R253, R263). -/
def parcelCells (p : DataParcel) : List (Nat × Byte) :=
  let base := p.laddr.toNat * 256 + (if p.part then 32 * p.win.toNat else 0)
  let n := if p.part then p.plenM1.toNat + 1 else 256
  (p.data.take n).mapIdx (fun i b => (base + i, b))

/-- Whether a local DATA parcel may be written (R263): the slab of a scheduled-mode tile, backed scratch, or a
rotation-locked granule, with the owner table accepting CTX. -/
def State.parcelOk (s : State) (p : DataParcel) : Bool :=
  let a := p.laddr.toNat * 256
  s.backed a && s.ownerOk p.ctx a true &&
  (match placeOf a with
   | .slab t _ => s.schedMode t
   | .scratch _ => true
   | .tier1 => s.rotLocked a && s.rotRunning
   | _ => false)

/-- A DATA parcel for this chip writes its bytes, or is discarded (R263). For tier 1 its request goes to the controller, which performs
it at the position it gives (R297, SCHED_HBM_COMMAND). -/
def State.deliverData (s : State) (l : LinkId) (d : DataParcel) : State :=
  let a := d.laddr.toNat * 256
  if s.parcelOk d then
    let cells := parcelCells d
    if placeOf a == .tier1 then
      let at_ := ((cells.map (fun x => x.1)).head?).getD a
      s.emit (.schedHbm (stackId a) ⟨true, d.ctx, at_, cells.map (fun x => x.2), 0, 0, s.cycle, .link l⟩)
    else
      let (s', bad) := s.storeCells cells
      if bad then
        match placeOf a with
        | .slab t _ => s'.slabUE t a [d.ctx] 256
        | .scratch _ => s'.scratchUE (((s.ueIn a 256).getD a) / 64 * 64) d.ctx
        | _ => s'
      else s'
  else
    (if s.backed a && !s.ownerOk d.ctx a true then
      s.ownerRefusal d.ctx a (match placeOf a with
        | .slab _ _ => none
        | _ => some (homeSlice a).val)
     else s).sParcelError l

/-- S_PARCEL_DELIVER (R261 to R263): the point of the oldest received parcel comes, and it is handed over: delivered to this chip, or
moved to a relay queue. Nothing is handed over in appended cycles. -/
def execSParcelDeliver (l : LinkId) (s : State) : Host.Outcome State Fault Refusal :=
  s.commit (fun s =>
    match (s.link l).arrivals with
    | [] => s
    | x :: rest =>
      let start := pointOf s.turnNo.toNat 0
      if s.appended || start + 1800 ≤ x.point then s
      else
        let s := if start ≤ x.point then s.advanceTo (x.point - start) else s
        let s := s.updLink l (fun y => { y with arrivals := rest })
        let dest := match x.parcel with
          | .inl d => d.destChip.toNat
          | .inr g => g.destChip.toNat
        if dest != s.chipId then s.relay l x.point x.parcel
        else
          match x.parcel with
          | .inl d => s.deliverData l d
          | .inr g =>
            if g.tile.toNat < 48 then s.addSignal ⟨g.tile.toNat % 48, Nat.mod_lt _ (by decide)⟩ g.sig.toNat g.add
            else s.sParcelError l)

/-- LOCAL_FLIT_ARRIVE (R260): a sluice flit reaches its link's stop; one that is late, or that finds 16 flits waiting, is
discarded, and its channel's write with it. -/
def execLocalFlitArrive (l : LinkId) (f : LinkFlit) (late : Bool) (s : State) : Host.Outcome State Fault Refusal :=
  s.commit (fun s =>
    if s.appended then s
    else if late || 16 ≤ (s.link l).sendQ.length || !s.linkUp l then
      (match f.piece with
       | some (c, id) => s.moveDone f.tile c id
       | none => s).sParcelError l
    else s.updLink l (fun x => { x with sendQ := x.sendQ ++ [⟨f.arrival, f.tile, f.piece, f.stream, f.parcel⟩] }))

/-- STRETCH (R241, R242, R264). -/
def execStretch (l : LinkId) (p : StretchParcel) (s : State) : Host.Outcome State Fault Refusal :=
  s.commit (fun s => s.received l 0 3 (fun s =>
      if !s.epochValid then s
      else
        let m : Vector Nat 9 := Vector.ofFn (fun i =>
          if h : i.val = 0 then s.rot.m[i] else max s.rot.m[i] (p.m[i.val - 1]'(by omega)).toNat)
        let s := { s with rot := { s.rot with m := m } }
        let s := if p.n.toNat == s.rot.m[0] then s
          else (s.setFld .ROT_STATUS F.ROT_STATUS_DISAGREE 1).wmEvent 130 [] none
        if s.fld (.LK_PING l.val) F.LK_PING_LAT_VALID == 1 &&
            (s.timestamp - p.tsend).toNat != s.fld (.LK_LAT l.val) F.LK_LAT_IN then s.latChange l
        else s))

/-- HALT_PARCEL (R270). -/
def execHaltParcel (l : LinkId) (chip : BitVec 9) (_side : Bool) (_source : Byte) (s : State) :
    Host.Outcome State Fault Refusal :=
  s.commit (fun s =>
    if !s.linkUp l then s
    else
      let s := s.intact l
      let r := Reg.CN_STATUS l.val
      let s := s.updLink l (fun x => { x with halted := true })
      let s := if s.fld r F.CN_STATUS_HALT_RX == 1 then s
        else (s.setFld r F.CN_STATUS_HALT_CHIP chip.toNat).setFld r F.CN_STATUS_HALT_RX 1
      (s.wmEvent 102 [] none).refuseCarried l)

/-! ### Remote requests (R267, R268) -/

/-- A coherent message for another chip leaves through the lowest-numbered UP link that reaches it; a request for which there
is none is refused. -/
def State.remoteRoute (s : State) (m : CohMsg) : State :=
  match s.linkTo m.dstChip.toNat with
  | some l => s.updLink l (fun x =>
      { x with cOut := x.cOut ++ [m], carried := if m.cls == 0 then x.carried ++ [m] else x.carried })
  | none => s.refuseRequest m

/-- A response ends the request that it answers: no link carries it any more (R269). -/
def State.answered (s : State) (m : CohMsg) : State :=
  if m.cls != 2 then s
  else (List.finRange 36).foldl (fun s l => s.updLink l (fun x =>
    { x with carried := x.carried.filter (fun q => !(q.txn == m.txn && q.srcAgent == m.dstAgent && q.srcChip == m.dstChip)) })) s

/-- REMOTE_REQUEST (R267). -/
def execRemoteRequest (m : CohMsg) (s : State) : Host.Outcome State Fault Refusal :=
  s.commit (fun s => if m.dstChip.toNat == s.chipId then s else s.remoteRoute m)

/-- A flit of an accepted container: a signal word waits for its tile's queue, a flit for another chip goes on, and any other
is delivered on the coherent mesh. -/
def State.acceptFlit (s : State) (l : LinkId) (m : CohMsg) : State :=
  let s := (s.answered m).updLink l (fun x =>
    match m.cls.toNat with
    | 0 => { x with oweReq := x.oweReq + m.flits }
    | 1 => { x with oweSnp := x.oweSnp + m.flits }
    | 2 => { x with oweRsp := x.oweRsp + m.flits }
    | _ => x)
  if m.cls == 3 then
    if m.opB.toNat % 64 < 48 then
      s.updLink l (fun x => { x with sigHeld := x.sigHeld ++ [(tileOf (BitVec.ofNat 8 (m.opB.toNat % 64)), m.opA)] })
    else s.emit (.coh { m with srcAgent := BitVec.ofNat 8 (134 + l.val) })
  else if m.dstChip.toNat != s.chipId then s.remoteRoute m
  else s.emit (.coh m)

/-- A replay starts from the oldest unacknowledged container; after the eighth without an advance the link goes DOWN (R265). -/
def State.replay (s : State) (l : LinkId) : State :=
  let x := s.link l
  if x.retry.isEmpty then s
  else if 8 ≤ x.replays then
    ((s.setFld (.CN_STATUS l.val) F.CN_STATUS_C_RETRY 1).wmEvent 100 [] none).linkDown l
  else (s.linkCount l.val 3 x.retry.length).updLink l (fun x => { x with replaying := x.retry.length, replays := x.replays + 1 })

/-- The retry buffer without the containers that an ACK covers. -/
def ackRetry (ack : BitVec 12) (q : List Container) : List Container :=
  if q.any (fun c => c.seq == ack) then (q.dropWhile (fun c => c.seq != ack)).drop 1 else q

/-- CONTAINER (R265, R266). -/
def execContainer (l : LinkId) (c : InSlot Container) (s : State) : Host.Outcome State Fault Refusal :=
  s.commit (fun s => s.received l c.slot 7 (fun s =>
      let c := c.item
      let s := s.linkCount l.val 1 (c.flits.foldl (fun a m => a + 64 * m.flits) 0)
      let s := s.updLink l (fun x =>
        let q := ackRetry c.ack x.retry
        let x := { x with
          credReq := x.credReq + c.crReq.toNat, credSnp := x.credSnp + c.crSnp.toNat, credRsp := x.credRsp + c.crRsp.toNat
          sigCredit := match c.crSigTile with
            | some t => if h : t.toNat < 48 then x.sigCredit.set t.toNat true h else x.sigCredit
            | none => x.sigCredit }
        if q.length < x.retry.length then { x with retry := q, replays := 0, replaying := min x.replaying q.length } else x)
      let s := if c.nak then s.replay l else s
      let s :=
        if c.flits.isEmpty then s
        else if c.seq.toNat == ((s.link l).lastRx + 1) % 4096 then
          c.flits.foldl (fun s m => s.acceptFlit l m)
            (s.updLink l (fun x => { x with lastRx := c.seq.toNat, nak := false }))
        else s.updLink l (fun x => { x with nak := true })
      s.wakeAll))

/-- C_REPLAY_TIMEOUT (R265): the oldest unacknowledged container has waited 1,024 FCLK. -/
def execCReplayTimeout (l : LinkId) (s : State) : Host.Outcome State Fault Refusal :=
  s.commit (fun s => if s.linkUp l then s.replay l else s)

end Sys2Proof.Machine
end

