-- ==== Sys2Proof/Machine/Watermaster.lean ====
section
/-! DEFINITION. The watermaster: sources, levels and reactions (R509 to R519), the safe state (R520 to R522), ALIVE (R523), and
twin checking (R524 to R529). -/

namespace Sys2Proof.Machine

/-! ### Sources -/

def State.src (s : State) (n : Nat) (f : Fld) : Nat := s.fld (.WM_SRC n) f

def State.setSrc (s : State) (n : Nat) (f : Fld) (v : Nat) : State := s.setFld (.WM_SRC n) f v

/-- The map bit of an instance (R508, R510): set whether or not the source is enabled. -/
def State.setMap (s : State) (n : Nat) (map : Option Nat) : State :=
  match map with
  | none => s
  | some i =>
    if n ≤ 13 && i < 48 then s.setBit (.WM_TILEMAP n) i true
    else if n == 155 && i < 48 then s.setBit (.WM_TILEMAP 7) i true
    else if 14 ≤ n && n ≤ 23 && i < 32 then s.setBit (.WM_SLICEMAP (n - 14)) i true
    else if 119 ≤ n && n ≤ 123 && i < 16 then s.setBit (.WM_SLOTMAP (n - 119)) i true
    else s

/-- The condition of a level source holds (R508, R509). -/
def State.levelHolds (s : State) (n : Nat) : Bool :=
  if 56 ≤ n && n < 68 && (n - 56) % 3 == 0 then s.fld (.T2_STATUS ((n - 56) / 3)) F.T2_STATUS_STATE == 2
  else if 68 ≤ n && n < 98 && (n - 68) % 5 == 0 then !s.groupUp ((n - 68) / 5)
  else if n == 98 then (List.finRange 36).any (fun l => s.fld (.CN_CTRL l.val) F.CN_CTRL_ENABLE == 1 &&
    s.fld (.CN_STATUS l.val) F.CN_STATUS_LSTATE == 3)
  else if 103 ≤ n && n < 119 then s.fld (.ES_STATUS (n - 103)) F.ES_STATUS_STATE == 4
  else if n == 124 then !s.xl.refused.isEmpty
  else if n == 127 then s.hrFull
  else false

/-- A source's cause persists (R513). -/
def State.causeHolds (s : State) (n : Nat) : Bool := s.levelHolds n || s.src n F.WM_SRC_FORCE == 1

/-! ### The safe state (R520) -/

/-- The safe state's effects on a tile: its sequencer, its channels. -/
def State.tileSafe (s : State) (t : TileId) : State :=
  let s := (s.setWait t none).setSeqState t Seq.STOPPED
  let s := s.updTile t (fun x => { x with held := false, starting := false })
  (List.finRange 8).foldl (fun s c => s.chanAbort t c) s

/-- The safe state begins, with the source that caused it. -/
def State.safeState (s : State) (source : Nat) : State :=
  if s.safe then s
  else
    let s := (s.setFld .WM_STATE F.WM_STATE_SAFE 1).setFld .WM_STATE F.WM_STATE_FATAL_SRC source
    let s := (List.finRange 2).foldl (fun s p =>
      if s.groupUp p.val && s.pgRole p.val == 1 then (s.portViral p).emit (.port p.val .aer) else s) s
    let msix := s.twin.msix.length
    let s := s.setFld .WM_DISCARD_HOST F.WM_DISCARD_HOST_COUNT
      (min (2 ^ 32 - 1) (s.fld .WM_DISCARD_HOST F.WM_DISCARD_HOST_COUNT + msix))
    let s := { s with twin := { s.twin with rb := [], msix := [] } }
    let s := (List.finRange 16).foldl (fun s e =>
      if s.esPresent e then (s.esSet e F.ES_STATUS_HOLD_ACK 0).toEngine e .hold else s) s
    let s := s.rotIdle
    let s := { s with
      obs := { s.obs with halt := none, bpHeld := [], bpPass := [] } }
    let s := s.setFld .OBS_STATUS F.OBS_STATUS_HALTED 0
    let s := (List.finRange 48).foldl (fun s t => s.tileSafe t) s
    (List.finRange 8).foldl (fun s k => if 2 ≤ k.val && (s.rider k).running then s.riderStop k else s) s

/-! ### Reactions (R518, R519) -/

/-- The kernel of a tile stops as after an exception, without a record (R149, R197). -/
def State.killKernel (s : State) (t : TileId) : State :=
  (s.kernelFails t).leaveFaults
    (fun w => match w with
      | .group g => g.tile == t
      | _ => false)

/-- What a context-fatal reaction does to each context that the event carries. -/
def State.haltContexts (s : State) (cs : List Byte) : State :=
  let s := s.revoke cs
  let s := (List.finRange 48).foldl (fun s t =>
    let s := if (s.tile t).kernel.any (fun k => cs.contains k.ctx) then s.killKernel t else s
    (List.finRange 8).foldl (fun s c =>
      if cs.contains (BitVec.ofNat 8 (s.fld (.SL_STATUS t.val c.val) F.SL_STATUS_CTX)) then s.chanAbort t c else s) s) s
  let s := s.haltRevoked cs
  (List.finRange 8).foldl (fun s k =>
    if 2 ≤ k.val && (s.rider k).running && cs.contains (s.riderCtx k) then s.riderStop k else s) s

/-- PF0's vector for Notify. -/
def State.wmNotify (s : State) : State := s.notify (s.fld .WM_VECTOR F.WM_VECTOR_VECTOR)

/-- The reaction of a level to an event of a source with the contexts that it carries. A context-fatal event without a context,
or with context 0, is block-fatal (R519). -/
def State.react (s : State) (source level : Nat) (ctxs : List Byte) : State :=
  match level with
  | 0 => s
  | 1 => s.wmNotify
  | 2 => if ctxs.isEmpty || ctxs.contains 0 then s.safeState source else s.wmNotify.haltContexts ctxs.dedup
  | _ => s.safeState source

/-- An event of a source reaches the watermaster (R510 to R512, R428, R584). -/
def State.takeEvent (s : State) (n : Nat) (ctxs : List Byte) (map : Option Nat) : State :=
  let s := s.setMap n map
  if s.src n F.WM_SRC_ENABLE == 0 then s
  else
    let first := s.src n F.WM_SRC_STATUS == 0
    let level := if first then s.src n F.WM_SRC_SEVERITY else min 3 (s.src n F.WM_SRC_LEVEL + 1)
    let top := !first && s.src n F.WM_SRC_LEVEL == 3
    let s := (s.setSrc n F.WM_SRC_STATUS 1).setSrc n F.WM_SRC_LEVEL level
    if top then s
    else
      let s := if 1 ≤ level then s.wake else s
      (s.trigEvent 1 n).react n level ctxs

/-- Sources that no other command raises: the unit's check is the event itself (R340, R508, R535). -/
def external (n : Nat) : Bool :=
  n == 12 || n == 22 || (24 ≤ n && n < 56 && n % 4 == 3) || (133 ≤ n && n ≤ 140) || n == 153

/-- Other instances of an event that has reached the watermaster in the same SCLK: their map bits are set, and the one event
carries the contexts of all; where an instance carries none, the event counts as one without a context (R509, R519). -/
def State.mergeEvents (s : State) (n : Nat) (ctxs : List Byte) : List (List Byte × Option Nat) → State × List Byte
  | [] => (s, ctxs)
  | (c, m) :: r =>
    let e : WmEvent := ⟨n, c, m⟩
    if s.wmEvents.contains e then
      (({ s with wmEvents := s.wmEvents.erase e }).setMap n m).mergeEvents n
        (if ctxs.isEmpty || c.isEmpty then [] else ctxs ++ c) r
    else s.mergeEvents n ctxs r

/-- SOURCE_EVENT (R509 to R512): the events of a source that were detected, or one that no other command raises; map.others are
instances of the same SCLK. The contexts of rider cores' events are the cores' own. -/
def execSourceEvent (source : Fin 192) (ctxs : List Byte) (map : EventMap) (s : State) : Host.Outcome State Fault Refusal :=
  s.commitBus (fun s =>
    let n := source.val
    let e : WmEvent := ⟨n, ctxs, map.map⟩
    if s.wmEvents.contains e then
      let (s, cs) := ({ s with wmEvents := s.wmEvents.erase e }).mergeEvents n ctxs map.others
      s.takeEvent n cs map.map
    else if !external n then s
    else if 135 ≤ n && n ≤ 140 then s.takeEvent n [s.riderCtx ⟨(n - 133) % 8, Nat.mod_lt _ (by decide)⟩] none
    else if 133 ≤ n && n ≤ 134 then s.takeEvent n [] none
    else s.takeEvent n ctxs map.map)

/-! ### Registers of a source (R513 to R517) -/

/-- A W1C write of STATUS. -/
def State.statusClear (s : State) (n : Nat) : State :=
  if s.causeHolds n then s else (s.setSrc n F.WM_SRC_STATUS 0).setSrc n F.WM_SRC_LEVEL (s.src n F.WM_SRC_SEVERITY)

/-- WM_STATUS_CLEAR (R513, R514): together says that an event of the source falls in the same SCLK, which then is a first
event. -/
def execWmStatusClear (source : Fin 192) (together : Bool) (s : State) : Host.Outcome State Fault Refusal :=
  s.commitBus (fun s =>
    let n := source.val
    if !together then s.statusClear n
    else
      let e := (s.wmEvents.find? (fun e => e.source == n)).getD ⟨n, [], none⟩
      let s := { s with wmEvents := s.wmEvents.erase e }
      ((s.setSrc n F.WM_SRC_STATUS 0).setSrc n F.WM_SRC_LEVEL (s.src n F.WM_SRC_SEVERITY)).takeEvent n e.ctxs e.map)

/-- A write of SEVERITY (R515). -/
def State.severity (s : State) (n v : Nat) : State :=
  let s := s.setSrc n F.WM_SRC_SEVERITY v
  if s.src n F.WM_SRC_STATUS == 0 then s.setSrc n F.WM_SRC_LEVEL v else s

/-- SEVERITY_WRITE. -/
def execSeverityWrite (source : Fin 192) (v : BitVec 2) (s : State) : Host.Outcome State Fault Refusal :=
  s.commitBus (fun s => s.severity source.val v.toNat)

/-- A write of FORCE (R516). -/
def State.force (s : State) (n : Nat) (v : Bool) : State :=
  if s.lifecycle != 0 then s
  else
    let before := s.src n F.WM_SRC_FORCE
    let s := s.setSrc n F.WM_SRC_FORCE (if v then 1 else 0)
    if v && before == 0 then s.takeEvent n [] none else s

/-- FORCE_WRITE. -/
def execForceWrite (source : Fin 192) (v : Bool) (s : State) : Host.Outcome State Fault Refusal :=
  s.commitBus (fun s => s.force source.val v)

/-- Who can write WM_RAISE (R517). -/
def mayRaise : Requester → Bool
  | .pf0 => true
  | .management => true
  | .rider c => c.val < 2
  | _ => false

/-- A write of WM_RAISE.SOURCE. -/
def State.wmRaise (s : State) (by_ : Requester) (v : Nat) : State :=
  if mayRaise by_ && 156 ≤ v && v ≤ 191 then s.takeEvent v [] none else s

/-- WM_RAISE. -/
def execWmRaise (by_ : Requester) (v : Byte) (s : State) : Host.Outcome State Fault Refusal :=
  s.commitBus (fun s => s.wmRaise by_ v.toNat)

/-- WM_SELFCHECK_FAIL (R523, R538): the source is raised, and the watermaster is block-fatal. -/
def execWmSelfcheckFail (s : State) : Host.Outcome State Fault Refusal :=
  s.commitBus (fun s => (s.takeEvent 154 [] none).safeState 154)

/-- ALIVE_TOGGLE (R523). -/
def execAliveToggle (s : State) : Host.Outcome State Fault Refusal :=
  s.commitBus (fun s =>
    if s.safe then s
    else s.setFld .WM_STATE F.WM_STATE_ALIVE (1 - s.fld .WM_STATE F.WM_STATE_ALIVE))

/-! ### The drain of the safe state (R520) -/

/-- A coherent write, or an eviction with data. -/
def isWrite (m : CohMsg) : Bool := m.cls == 0 && (m.opc == 0x05 || m.opc == 0x06 || m.opc == 0x07 || m.opc == 0x09)

/-- A discarded write toward another chip: its requester counts it as performed. -/
def State.canalDiscard (s : State) (m : CohMsg) : State :=
  let s := s.countUp .WM_DISCARD_CANAL F.WM_DISCARD_CANAL_COUNT
  if !s.ours m then s
  else if m.srcAgent.toNat < 48 then s.tileCmp (tileOf m.srcAgent) { m with status := 0 }
  else if m.srcAgent == unitAgent then s.unitAnswer { m with opc := 0x42, dstAgent := m.srcAgent }
  else s

/-- What a link still holds is discarded. -/
def State.linkDiscard (s : State) (l : LinkId) : State :=
  let x := s.link l
  let data (p : DataParcel ⊕ SignalParcel) : Bool := match p with
    | .inl _ => true
    | .inr _ => false
  let n := (x.sendQ.filter (fun f => data f.parcel)).length + (x.relayQ.filter (fun a => data a.parcel)).length
  let s := s.updLink l (fun x => { x with sendQ := [], relayQ := [], cOut := [], sigOut := [] })
  let s := s.setFld .WM_DISCARD_CANAL F.WM_DISCARD_CANAL_COUNT
    (min (2 ^ 32 - 1) (s.fld .WM_DISCARD_CANAL F.WM_DISCARD_CANAL_COUNT + n))
  (x.cOut.filter isWrite).foldl (fun s m => s.canalDiscard m) s

/-- A write of a core or of the headgate unit toward this chip's memory is not performed yet. -/
def State.storesLeft (s : State) : Bool :=
  s.heads.writes.any (fun w => chipOf w.tgt.addr == s.chipId) ||
  (List.finRange 48).any (fun t => (List.finRange 4).any (fun c =>
    ((s.core t c).allWrites).any (fun w => w.tgt.cls == .localMem && chipOf w.tgt.addr == s.chipId && !w.performed)))

/-- SAFE_DRAIN_DONE: merge buffers are sent; once every store toward this chip is performed, what is held for host memory, peers
and canal links is discarded and counted. -/
def execSafeDrainDone (s : State) : Host.Outcome State Fault Refusal :=
  s.commit (fun s =>
    if !s.safe || s.fld .WM_STATE F.WM_STATE_DRAINED == 1 then s
    else
      let s := (List.finRange 48).foldl (fun s t =>
        (List.finRange 4).foldl (fun s c => s.sendMerges t c (fun _ => true)) s) s
      if s.storesLeft then s
      else
        let n := s.hostWrites.length
        let s := s.setFld .WM_DISCARD_HOST F.WM_DISCARD_HOST_COUNT
          (min (2 ^ 32 - 1) (s.fld .WM_DISCARD_HOST F.WM_DISCARD_HOST_COUNT + n))
        let s := s.dropHostWrites (fun _ => true) false
        let s := (List.finRange 36).foldl (fun s l => s.linkDiscard l) s
        (s.setFld .WM_STATE F.WM_STATE_DRAINED 1).portGo)

/-! ### Twin checking (R524 to R529) -/

/-- One bit of CRC-64 with the reflected ECMA-182 polynomial (R525). -/
def crc64Bit (c : Nat) : Nat := if c % 2 == 1 then Nat.xor (c / 2) 0xC96C5795D7870F42 else c / 2

def crc64Byte (c : Nat) (b : Byte) : Nat := (List.range 8).foldl (fun c _ => crc64Bit c) (Nat.xor c b.toNat)

/-- The CRC of an item. -/
def crc64 (bs : List Byte) : Nat := Nat.xor (bs.foldl crc64Byte 0xFFFFFFFFFFFFFFFF) 0xFFFFFFFFFFFFFFFF

/-- The bytes of a write item: unmasked bytes count as 0. -/
def writeItem (addr : Word64) (target : BitVec 2) (mask : Word64) (line : List Byte) : List Byte :=
  leBytes 8 (addr.toNat / 64 * 64) ++ leBytes 1 target.toNat ++ leBytes 8 mask.toNat ++
    (List.range 64).map (fun i => if mask.getLsbD i then line.getD i 0 else 0)

/-- The digest takes an item. -/
def State.digestItem (s : State) (bs : List Byte) : State :=
  { s with twin := { s.twin with sum := s.twin.sum + BitVec.ofNat 64 (crc64 bs), items := s.twin.items + 1 } }

/-- TWIN_ITEM (R525, R526, R529): a write that finds the release buffer full waits at its port. -/
def execTwinItem (i : TwinItem) (s : State) : Host.Outcome State Fault Refusal :=
  s.commit (fun s =>
    if !s.twinActive || s.safe then s
    else
      match i with
      | .parcel bs => s.digestItem bs
      | .write turn addr target mask line =>
        if 16384 ≤ s.twin.rb.length then s
        else
          let late := turn.toNat < s.turnNo.toNat
          let s := if late then
              ({ s with twin := { s.twin with late := true } }.setFld .TW_STATUS F.TW_STATUS_LATE 1).wmEvent 151 [] none
            else s
          let s := s.digestItem (writeItem addr target mask line)
          { s with twin := { s.twin with rb := s.twin.rb ++ [⟨turn, addr, target, mask, line⟩] } })

/-- DIGEST (R528): a copy of the twin's digest against this side's own. -/
def execDigest (l : LinkId) (d : DigestParcel) (s : State) : Host.Outcome State Fault Refusal :=
  s.commit (fun s => s.received l 2 5 (fun s =>
    match s.twin.own with
    | none => s
    | some own =>
      if !s.twinActive || d.turn == BitVec.allOnes 64 then s
      else if d.turn != own.turn || d.chip.toNat != s.chipId || d.side == own.side then s.wmEvent 152 [] none
      else
        let differ (a b : DigestParcel) : Bool := a.sum != b.sum || a.items != b.items
        let mismatch (s : State) : State := (s.setFld .TW_STATUS F.TW_STATUS_MISMATCH 1).wmEvent 149 [] none
        match s.twin.copy with
        | some c => if differ c d then mismatch s else s
        | none =>
          let s := { s with twin := { s.twin with copy := some d } }
          if differ own d then mismatch s else s.wr .TW_LAST own.turn))

/-- A missing digest or an overdue release is reported. -/
def State.digestMissing (s : State) : State := (s.setFld .TW_STATUS F.TW_STATUS_MISSING 1).wmEvent 150 [] none

/-- DIGEST_MISSING (R528): the turn ends without a valid copy. -/
def execDigestMissing (s : State) : Host.Outcome State Fault Refusal :=
  s.commit (fun s =>
    if s.twinActive && s.twin.own.isSome && s.twin.copy.isNone then
      { s with twin := { s.twin with own := none } }.digestMissing
    else s)

/-- The 64-byte line of a release-buffer entry, as addressed bytes. -/
def TwinWrite.cells (w : TwinWrite) : List (Nat × Byte) :=
  ((List.range 64).filter (fun i => w.mask.getLsbD i)).map (fun i => (w.addr.toNat / 64 * 64 + i, w.line.getD i 0))

/-- The write that an entry of the release buffer stands for has been emitted: it awaits its GO, or, toward a peer, is
performed. -/
def State.markReleased (s : State) (w : TwinWrite) : State :=
  let line := w.addr.toNat / 64
  let mine (x : HostWr) : Bool := !x.released && x.bytes.any (fun b => b.1 / 64 == line) &&
    (if w.target == 2 then x.peer else !x.peer && x.port.val == w.target.toNat)
  match s.hostWrites.find? mine with
  | none => s
  | some x =>
    if x.peer then
      (({ s with hostWrites := s.hostWrites.filter (fun y => y.id != x.id) }).writeOver x).msixProgress
    else { s with hostWrites := s.hostWrites.map (fun y => if y.id == x.id then { y with released := true } else y) }

/-- A write of the release buffer is emitted (R529). -/
def State.releaseOne (s : State) (w : TwinWrite) : State :=
  match w.target.toNat with
  | 0 => (s.emit (.hostWrite 0 w.cells)).markReleased w
  | 1 => (s.emit (.hostWrite 1 w.cells)).markReleased w
  | 2 => (s.emit (.peerWrite w.cells)).markReleased w
  | _ =>
    match s.twin.msix with
    | (f, v) :: r => { s with twin := { s.twin with msix := r } }.emit (.msix f v)
    | [] => s

/-- Writes whose release is overdue are discarded, and their units see them as over (R529). -/
def State.discardOne (s : State) (w : TwinWrite) : State :=
  match w.target.toNat with
  | 3 => { s with twin := { s.twin with msix := s.twin.msix.tail } }
  | _ =>
    let line := w.addr.toNat / 64
    match s.hostWrites.find? (fun x => !x.released && x.bytes.any (fun b => b.1 / 64 == line)) with
    | some x => s.dropHostWrites (fun y => y.id == x.id) false
    | none => s

/-- What twin checking does in cycle 0 of a turn T (R526 to R529): digest T − 1 closes, the writes of turn T − 3 and before are
emitted when their digest has matched, and discarded otherwise. -/
def State.twinTurn (s : State) : State :=
  if !s.twinActive then s
  else
    let t := s.turnNo
    let s := { s with twin := { s.twin with
      own := if t == 0 then none else some
        { turn := t - 1, sum := s.twin.sum, items := s.twin.items, chip := BitVec.ofNat 9 s.chipId
          side := s.fld .TB_CHIP F.TB_CHIP_SIDE == 1, late := s.twin.late }
      copy := none, sum := 0, items := 0, late := false } }
    let due := s.twin.rb.filter (fun w => w.issue.toNat + 3 ≤ t.toNat)
    let s := { s with twin := { s.twin with rb := s.twin.rb.filter (fun w => !(w.issue.toNat + 3 ≤ t.toNat)) } }
    let last := s.rd .TW_LAST
    let ok (w : TwinWrite) : Bool := last != BitVec.allOnes 64 && w.issue.toNat ≤ last.toNat
    let s := (due.filter ok).foldl (fun s w => s.releaseOne w) s
    let bad := due.filter (fun w => !ok w)
    if bad.isEmpty then s else (bad.foldl (fun s w => s.discardOne w) s).digestMissing

end Sys2Proof.Machine
end

