-- ==== Sys2Proof/Machine/Reset.lean ====
section
/-! DEFINITION. The reset controller: sources and scopes, release, unit resets, the watchdog and tile retirement (R542 to
R556, R563), and the clocks and power interface (R557 to R562, R564). -/

namespace Sys2Proof.Machine

/-! ### What a reset leaves (R12, R545) -/

/-- The reset value of a register with its RW-L fields kept. -/
def Reg.keepRwl (r : Reg) (v : Word64) : Word64 :=
  r.fields.foldl (fun w x => if x.1 == .rwl then x.2.set w (x.2.get v) else w) r.resetVal

/-- A register of the levee unit. -/
def Reg.isLevee (r : Reg) : Bool := 0x40000 ≤ r.offset && r.offset < 0x50000

/-- The word of a register after a block reset. -/
def Reg.afterReset (warm : Bool) (r : Reg) (v : Word64) : Word64 :=
  match r with
  | .RST_CAUSE => v
  | .RST_RETIRED => v
  | .CLK_STATUS => v
  | .RST_STATUS => v &&& 0x3000000
  | _ =>
    if !warm then r.resetVal
    else if r.isLevee || r == .RC_ENTRY 0 || r == .RC_ENTRY 1 then v
    else r.keepRwl v

/-- Registers after each has taken a new word: those at their reset value are not listed. -/
def mapRegs (f : Reg → Word64 → Word64) (regs : List (Reg × Word64)) : List (Reg × Word64) :=
  regs.filterMap (fun x => if f x.1 x.2 == x.1.resetVal then none else some (x.1, f x.1 x.2))

/-- The registers of a unit take their reset values, RW-L fields apart. -/
def State.resetRegs (s : State) (p : Nat → Bool) : State :=
  { s with regs := mapRegs (fun r v => if p r.offset then r.keepRwl v else v) s.regs }

/-- The contents of a slab become unspecified (R294). -/
def State.scrambleSlab (s : State) (t : TileId) : State :=
  let (n, s) := s.takeFresh
  (s.zeroSpan (slabAddr t 0) (slabAddr t 0 + slabSize) none).padSet (slabAddr t 0) (slabAddr t 0 + slabSize) none (some n)

/-- The contents of tier 1 become unspecified: no stack was in self-refresh (R546, R548). -/
def State.scrambleTier1 (s : State) : State :=
  let (n, s) := s.takeFresh
  s.padSet 0 0x9000000000 none (some n)

/-! ### Sources (R544, R547, R550) -/

/-- A bit of RST_CAUSE set. -/
def State.cause (s : State) (i : Nat) : State := s.orReg .RST_CAUSE (BitVec.ofNat 64 (2 ^ i))

/-- A block reset is in progress: up to the release of the last units but for mirrors that reload. -/
def State.resetting (s : State) : Bool :=
  match s.rst.phase with
  | .none => false
  | .mirrors => false
  | _ => true

/-- Block reset is asserted in every unit (R545, R546, R548). -/
def State.assertReset (s : State) : State :=
  let r := s.rst
  let warm := !r.cold
  let keep := warm && r.keep
  let s := (List.finRange 48).foldl (fun s t => s.scrambleSlab t) s
  let s := if keep then s else s.scrambleTier1
  let z := State.reset
  let s := { z with
    regs := mapRegs (Reg.afterReset warm) s.regs
    mem := s.mem
    journal := s.journal
    pads := s.pads
    memUE := s.memUE
    memCE := s.memCE
    keyTags := s.keyTags
    zeroing := if !keep && r.lifecycle == 3 then List.finRange 8 else []
    riders := Vector.replicate 8 Rider.reset
    boot := { Boot.reset with
      image := s.boot.image
      keys := if warm then s.boot.keys else []
      loading := warm && s.boot.loading }
    rst := { r with phase := .asserted, keep := keep, twinOut := !r.twin, fuse := none, units := [] }
    out := s.out
    ioNext := s.ioNext
    fresh := s.fresh
    pending := s.pending }
  let s := (s.setFld .RST_STATUS F.RST_STATUS_SCOPE (if warm then 1 else 0)).setFld .RST_STATUS F.RST_STATUS_T1_KEPT
    (if keep then 1 else 0)
  if warm then s else s.setFld .LC_STATE F.LC_STATE_STATE r.lifecycle

/-- A source of a block reset is detected (R547): cold or warm, whether it lets tier 1 be kept, whether it is TWIN. While units
are in reset the assertion starts again at once. -/
def State.source (s : State) (bit : Nat) (cold keep twin : Bool) : State :=
  let s := s.cause bit
  let busy := s.resetting
  let s := { s with rst := { s.rst with
    cold := cold || (busy && s.rst.cold)
    keep := !cold && keep && (!busy || s.rst.keep)
    twin := twin || (busy && s.rst.twin) } }
  match s.rst.phase with
  | .asserted => s.assertReset
  | .released => s.assertReset
  | _ => { s with rst := { s.rst with phase := .detected } }

/-- POWER_ON (R544, R545, R551): the rails fall, which cuts a fuse write short, or rise, with the life-cycle state that the
security block decodes and the retirement fuses. -/
def execPowerOn (rising : Bool) (lifecycle : BitVec 3) (fuses : BitVec 50) (s : State) :
    Host.Outcome State Fault Refusal :=
  s.commitAlways (fun s =>
    if rising == s.rst.powerOn then s
    else
      let s := { s with rst := { s.rst with powerOn := rising, fuse := none } }
      if !rising then s.source 0 true false false
      else
        let s := { s with rst := { s.rst with lifecycle := lifecycle.toNat } }
        let s := (s.wr .RST_CAUSE 1).wr .RST_RETIRED (fuses.setWidth 64)
        let s := (s.setFld .RST_STATUS F.RST_STATUS_REF_LOST 0).setFld .RST_STATUS F.RST_STATUS_ROOT_LOST 0
        (s.setFld .CLK_STATUS F.CLK_STATUS_LOSSES 0).source 0 true false false)

/-- FUNDAMENTAL. -/
def execFundamental (s : State) : Host.Outcome State Fault Refusal :=
  s.commitAlways (fun s => s.source 1 true false false)

/-- HOT (R430, R544): a hot reset on host port 0 is a source while HF_CTRL.HR0 is 1. -/
def execHot (s : State) : Host.Outcome State Fault Refusal :=
  s.commitAlways (fun s => if s.fld .HF_CTRL F.HF_CTRL_HR0 == 1 then s.source 2 true false false else s)

/-- WATCHDOG (R554): the count reaches TIMEOUT × 1,000 TCLK of 18 FCLK each. -/
def execWatchdog (s : State) : Host.Outcome State Fault Refusal :=
  s.commitAlways (fun s =>
    let due := max 1 (s.fld .RST_WD F.RST_WD_TIMEOUT) * 18000
    if s.fld .RST_WD F.RST_WD_ENABLE == 1 && due ≤ (s.rd .TB_RAW - s.rst.wdStart).toNat then s.source 5 false true false
    else s)

/-- PAR_DIR (R376, R544): transaction or conflict-chain state of a home slice. -/
def execParDir (_n : SliceId) (s : State) : Host.Outcome State Fault Refusal :=
  s.commitAlways (fun s => s.source 7 false true false)

/-- PAR_LEVEE (R495, R549). -/
def execParLevee (s : State) : Host.Outcome State Fault Refusal :=
  s.commitAlways (fun s => s.source 8 true false false)

/-- PAR_RSTC. -/
def execParRstc (s : State) : Host.Outcome State Fault Refusal :=
  s.commitAlways (fun s => s.source 9 true false false)

/-- A write of RST_CTRL.WARM. -/
def State.warmReset (s : State) : State := s.source 10 false true false

/-- WARM. -/
def execWarm (s : State) : Host.Outcome State Fault Refusal := s.commitAlways (fun s => s.warmReset)

/-- TWIN_RST_IN (R555): a rise of the pin while TB_CHIP.TWIN is 1. -/
def execTwinRstIn (s : State) : Host.Outcome State Fault Refusal :=
  s.commitAlways (fun s => if s.fld .TB_CHIP F.TB_CHIP_TWIN == 1 then s.source 11 false true true else s)

/-- A clock signal falls or returns. -/
def State.clockGood (s : State) (root good : Bool) : State :=
  let v := if good then 1 else 0
  if root then { s with rst := { s.rst with rootDown := !good } }.setFld .CLK_STATUS F.CLK_STATUS_CG_ROOT v
  else { s with rst := { s.rst with refDown := !good } }.setFld .CLK_STATUS F.CLK_STATUS_CG_REF v

/-- A clock signal is 0. -/
def State.clockDown (s : State) (root : Bool) : Bool := if root then s.rst.rootDown else s.rst.refDown

/-- CLKLOSS (R550): CG_ROOT or CG_REF falls after release. -/
def execClkloss (root : Bool) (s : State) : Host.Outcome State Fault Refusal :=
  s.commitAlways (fun s =>
    if s.clockDown root || s.rst.phase == .asserted then s
    else
      let s := s.clockGood root false
      let s := if root then s.setFld .RST_STATUS F.RST_STATUS_ROOT_LOST 1 else s.setFld .RST_STATUS F.RST_STATUS_REF_LOST 1
      (s.countUp .CLK_STATUS F.CLK_STATUS_LOSSES).source 12 false false false)

/-- CLOCK_GOOD_FALL_IN_RESET (R550): a fall during the steady count restarts it. -/
def execClockGoodFallInReset (root : Bool) (s : State) : Host.Outcome State Fault Refusal :=
  s.commitAlways (fun s => if s.rst.phase == .asserted then s.clockGood root false else s)

/-- Nothing holds a detected reset back: the reference runs and no fuse write is in progress (R550, R551). -/
def State.mayAssert (s : State) : Bool := s.rst.phase == .detected && !s.rst.refDown && s.rst.fuse.isNone

/-- CLOCK_GOOD_RISE (R550): a reset that waited for the reference is asserted. -/
def execClockGoodRise (root : Bool) (s : State) : Host.Outcome State Fault Refusal :=
  s.commitAlways (fun s =>
    if !s.clockDown root then s
    else
      let s := s.clockGood root true
      if !root && s.mayAssert then s.assertReset else s)

/-! ### Assertion and release (R548, R549) -/

/-- BLOCK_RESET_ASSERT. -/
def execBlockResetAssert (s : State) : Host.Outcome State Fault Refusal :=
  s.commitAlways (fun s => if s.mayAssert then s.assertReset else s)

/-- BLOCK_RELEASE: the clocks have been steady, the rails are good, and the part is not SCRAPPED (R500). -/
def execBlockRelease (s : State) : Host.Outcome State Fault Refusal :=
  s.commitAlways (fun s =>
    if s.rst.phase == .asserted && !s.rst.refDown && !s.rst.rootDown && s.rst.powerOn && s.rst.lifecycle ≤ 3 then
      { s with rst := { s.rst with phase := .released, twinOut := false } }
    else s)

/-- UNITS_RELEASE: the units are released and the spare mapping is applied (R556). -/
def execUnitsRelease (s : State) : Host.Outcome State Fault Refusal :=
  s.commitAlways (fun s =>
    if s.rst.phase == .released && !s.rst.rootDown then
      { s with rst := { s.rst with phase := .units, spared := s.fld .RST_RETIRED F.RST_RETIRED_FUSED } }
    else s)

/-- Rider cores are released after a block reset. -/
def State.ridersStart (s : State) : State :=
  if s.rst.cold then s.riderStart 0 bootRom
  else (s.riderStart 0 (s.rd (.RC_ENTRY 0))).riderStart 1 (s.rd (.RC_ENTRY 1))

/-- SLICE_INIT_DONE: home slices accept requests, groups in use train, and the rider cores start, or the scrub of R488 runs
first. -/
def execSliceInitDone (s : State) : Host.Outcome State Fault Refusal :=
  s.commit (fun s =>
    if s.rst.phase != .units then s
    else
      let s := { s with rst := { s.rst with phase := if s.rst.keep then .mirrors else .none } }
      let s := (List.finRange 6).foldl (fun s g =>
        if s.pgRole g.val == 1 then s.setFld (.PG_STATUS g.val) F.PG_STATUS_LSTATE 1 else s) s
      if s.lifecycle == 3 then { s with boot := { s.boot with scrub := true } } else s.ridersStart)

/-- MIRROR_RELOAD: the translation unit has read its mirrors from the table and is released. -/
def execMirrorReload (s : State) : Host.Outcome State Fault Refusal :=
  s.commit (fun s => if s.rst.phase == .mirrors then { s with rst := { s.rst with phase := .none } } else s)

/-! ### Unit resets (R552, R553) -/

/-- The register and the bit of a unit. -/
def unitBit : ResetUnit → Reg × Nat
  | .tile t => (.RST_TILE, t.val)
  | .link l => (.RST_LINK, l.val)
  | .slot e => (.RST_UNIT, e.val)
  | .tier2 g => (.RST_UNIT, 16 + g.val)
  | .observation => (.RST_UNIT, 20)
  | .rider c => (.RST_UNIT, 21 + c.val)

/-- A unit goes into reset, unless a block reset is in progress or it is in reset already (R547). -/
def State.unitReset (s : State) (u : ResetUnit) (go : State → State) : State :=
  if s.resetting || s.rst.units.contains u then s
  else
    let s := go s
    let s := { s with rst := { s.rst with units := s.rst.units ++ [u] } }
    (s.setBit (unitBit u).1 (unitBit u).2 true).cause 10

/-- A pending fault's requester is on tile t. -/
def Walker.onTile (t : TileId) : Walker → Bool
  | .group g => g.tile == t
  | .channel u _ => u == t
  | _ => false

/-- A write toward the host is of tile t. -/
def HostSrc.onTile (t : TileId) : HostSrc → Bool
  | .write u _ _ => u == t
  | .atomic u _ _ => u == t
  | .chan u _ _ => u == t
  | _ => false

/-- What the reset of a tile does (R552). -/
def State.tileReset (s : State) (t : TileId) : State :=
  let s := if s.agentDead t.val then s else s.agentDies t.val
  let s := s.dropHostWrites (fun w => HostSrc.onTile t w.src) false
  let s := s.leaveFaults (Walker.onTile t)
  let s := if (s.tile t).kernel.isSome then { s with heads := s.heads.kernelOver t 1 } else s
  let s := s.setTile t { Tile.reset with inReset := true }
  let s := s.resetRegs (fun a => 0x100000 + 0x4000 * t.val ≤ a && a < 0x104000 + 0x4000 * t.val)
  let s := { s with obs := { s.obs with
    dumps := s.obs.dumps.set t.val none t.isLt
    bpHeld := s.obs.bpHeld.filter (· != t)
    bpPass := s.obs.bpPass.filter (· != t) } }
  s.scrambleSlab t

/-- TILE_RESET. -/
def execTileReset (t : TileId) (s : State) : Host.Outcome State Fault Refusal :=
  s.commit (fun s => s.unitReset (.tile t) (fun s => s.tileReset t))

/-- PAR_SEQ (R189, R553). -/
def execParSeq (t : TileId) (s : State) : Host.Outcome State Fault Refusal :=
  s.commit (fun s =>
    if s.resetting || s.rst.units.contains (.tile t) then s
    else
      let s := { s.tileReset t with rst := { s.rst with units := s.rst.units ++ [ResetUnit.tile t] } }
      ((s.setBit .RST_TILE t.val true).setBit .RST_PARTILE t.val true).cause 6)

/-- What the reset of a canal link does: as a clear of CN_CTRL.ENABLE; map and schedule read 0. -/
def State.linkReset (s : State) (l : LinkId) : State :=
  let s := s.cnEnable l false
  let s := s.updLink l (fun x => { Link.reset with ping := x.ping })
  s.resetRegs (fun a => 0xA0000 + 0x1000 * l.val ≤ a && a < 0xA1000 + 0x1000 * l.val)

/-- LINK_RESET. -/
def execLinkReset (l : LinkId) (s : State) : Host.Outcome State Fault Refusal :=
  s.commit (fun s => s.unitReset (.link l) (fun s => s.linkReset l))

/-- What the reset of an engine slot does: as ES_CTRL.RESET, then every register but ES_FIELD at its reset value. -/
def State.slotReset (s : State) (e : EngineId) : State :=
  let s := s.esReset e
  let s := s.updEslot e (fun x => { ESlot.reset with reqs := x.reqs })
  let field := s.rd (.ES_FIELD e.val)
  (s.resetRegs (fun a => 0xD0000 + 0x1000 * e.val ≤ a && a < 0xD1000 + 0x1000 * e.val)).wr (.ES_FIELD e.val) field

/-- SLOT_RESET. -/
def execSlotReset (e : EngineId) (s : State) : Host.Outcome State Fault Refusal :=
  s.commit (fun s => s.unitReset (.slot e) (fun s => s.slotReset e))

/-- What the reset of a tier-2 port group does: as R309 with no source raised, then ABSENT. -/
def State.tier2Reset (s : State) (g : Fin 4) : State :=
  (s.t2Lost g true).resetRegs (fun a => 0x1C8000 + 0x1000 * g.val ≤ a && a < 0x1C9000 + 0x1000 * g.val)

/-- T2_RESET. -/
def execT2Reset (g : Fin 4) (s : State) : Host.Outcome State Fault Refusal :=
  s.commit (fun s => s.unitReset (.tier2 g) (fun s => s.tier2Reset g))

/-- Units that a halt holds continue. -/
def State.releaseHeld (s : State) : State :=
  let s := (List.finRange 48).foldl (fun s t =>
    if (s.tile t).held then (s.updTile t (fun x => { x with held := false })).setFld (.OBS_BP t.val) F.OBS_BP_HALTED 0
    else s) s
  let s := (List.finRange 8).foldl (fun s k => if (s.rider k).halted then s.updRider k (fun x => { x with halted := false })
    else s) s
  (List.finRange 16).foldl (fun s e =>
    if (s.eslot e).halted then
      let s := s.updEslot e (fun x => { x with halted := false })
      if s.esPresent e && s.fld (.ES_CTRL e.val) F.ES_CTRL_HOLD == 0 then s.toEngine e .release else s
    else s) s

/-- What the reset of the observation and race port does. Dumps run in the tiles, and continue. -/
def State.obsReset (s : State) : State :=
  let s := { s.releaseHeld with obs := { Obs.reset with dumps := s.obs.dumps } }
  s.resetRegs (fun a => 0x1D0000 ≤ a && a < 0x1D5000)

/-- OBS_RESET. -/
def execObsReset (s : State) : Host.Outcome State Fault Refusal :=
  s.commit (fun s => s.unitReset .observation (fun s => s.obsReset))

/-- Rider core 0 or 1. -/
def riderOfReset (c : Fin 2) : RiderId := ⟨c.val, Nat.lt_of_lt_of_le c.isLt (by decide)⟩

/-- A write of a RIDER bit: refused while CLOSED is 0 (R496). -/
def State.riderReset (s : State) (c : Fin 2) : State :=
  if s.fld .LV_CTRL F.LV_CTRL_CLOSED == 0 then s
  else s.unitReset (.rider c) (fun s => s.riderStop (riderOfReset c))

/-- RIDER_RESET. -/
def execRiderReset (c : Fin 2) (s : State) : Host.Outcome State Fault Refusal := s.commit (fun s => s.riderReset c)

/-- UNIT_RELEASE (R552): the unit's bit reads 0; a tile revives (R373), a rider core starts at its entry (R496). -/
def execUnitRelease (u : ResetUnit) (s : State) : Host.Outcome State Fault Refusal :=
  s.commit (fun s =>
    if !s.rst.units.contains u then s
    else
      let s := { s with rst := { s.rst with units := s.rst.units.erase u } }
      let s := s.setBit (unitBit u).1 (unitBit u).2 false
      match u with
      | .tile t => (s.updTile t (fun x => { x with inReset := false })).agentLives t.val
      | .rider c => s.riderStart (riderOfReset c) (s.rd (.RC_ENTRY c.val))
      | _ => s)

/-! ### Watchdog and retirement (R551, R554, R556) -/

/-- The watchdog's count starts again. -/
def State.wdRestart (s : State) : State := { s with rst := { s.rst with wdStart := s.rd .TB_RAW } }

/-- A write of RST_WD: it is ignored while ENABLE is 1. -/
def State.wdWrite (s : State) (enable : Bool) (timeout : Nat) : State :=
  if s.fld .RST_WD F.RST_WD_ENABLE == 1 then s
  else (s.wdRestart.setFld .RST_WD F.RST_WD_TIMEOUT timeout).setFld .RST_WD F.RST_WD_ENABLE (if enable then 1 else 0)

/-- WD_ENABLE. -/
def execWdEnable (timeout : BitVec 24) (s : State) : Host.Outcome State Fault Refusal :=
  s.commitBus (fun s => s.wdWrite true timeout.toNat)

/-- A write of RST_WD_KICK: any value but 0xC35A is ignored. -/
def State.wdKick (s : State) (key : Nat) : State :=
  if key == 0xC35A && s.fld .RST_WD F.RST_WD_ENABLE == 1 then s.wdRestart else s

/-- KICK. -/
def execKick (key : Word16) (s : State) : Host.Outcome State Fault Refusal := s.commitBus (fun s => s.wdKick key.toNat)

/-- How many tiles are retired. -/
def State.retired (s : State) : Nat := ((List.range 50).filter (fun i => (s.rd .RST_RETIRED).getLsbD i)).length

/-- A write of RST_RETIRE.GO with PTILE (R556). -/
def State.retire (s : State) (p : Nat) : State :=
  if s.fld .RST_RETIRE F.RST_RETIRE_BUSY == 1 then s
  else
    let s := s.setFld .RST_RETIRE F.RST_RETIRE_PTILE p
    if 2 ≤ s.retired then s.setFld .RST_RETIRE F.RST_RETIRE_RESULT 1
    else if 49 < p || (s.rd .RST_RETIRED).getLsbD p then s.setFld .RST_RETIRE F.RST_RETIRE_RESULT 2
    else
      ({ s with rst := { s.rst with fuse := some (p, 0) } }.setFld .RST_RETIRE F.RST_RETIRE_BUSY 1).setFld
        .RST_STATUS F.RST_STATUS_OTP_BUSY 1

/-- RETIRE. -/
def execRetire (ptile : BitVec 6) (s : State) : Host.Outcome State Fault Refusal :=
  s.commitBus (fun s => s.retire ptile.toNat)

/-- The write of a fuse is over. -/
def State.fuseOver (s : State) (result : Nat) : State :=
  let s := { s with rst := { s.rst with fuse := none } }
  ((s.setFld .RST_RETIRE F.RST_RETIRE_BUSY 0).setFld .RST_RETIRE F.RST_RETIRE_RESULT result).setFld
    .RST_STATUS F.RST_STATUS_OTP_BUSY 0

/-- OTP_PULSE_END (R551, R556): the word read back passes its check or not; a failed pulse is repeated up to 3 times. A block
reset that waits is asserted. -/
def execOtpPulseEnd (checkOk : Bool) (s : State) : Host.Outcome State Fault Refusal :=
  s.commitAlways (fun s =>
    match s.rst.fuse with
    | none => s
    | some (p, n) =>
      let s := if checkOk then s.setBit .RST_RETIRED p true else s
      if s.rst.phase == .detected then
        let s := s.fuseOver 0
        if s.mayAssert then s.assertReset else s
      else if checkOk then s.fuseOver 0
      else if n < 3 then { s with rst := { s.rst with fuse := some (p, n + 1) } }
      else s.fuseOver 3)

/-! ### Power (R558 to R561) -/

/-- ACTIVITY_ESTIMATE (R558): the estimate goes to the power manager. -/
def execActivityEstimate (energy : Word16) (s : State) : Host.Outcome State Fault Refusal :=
  s.commit (fun s => (s.setFld .PW_TELEM F.PW_TELEM_ENERGY energy.toNat).emit (.activity energy))

/-- POWER_REPORT (R558). -/
def execPowerReport (power : Word16) (window : BitVec 2) (boostLeft : BitVec 11) (peakLeft : BitVec 5) (s : State) :
    Host.Outcome State Fault Refusal :=
  s.commit (fun s =>
    (((s.setFld .PW_TELEM F.PW_TELEM_POWER power.toNat).setFld .PW_STATE F.PW_STATE_WINDOW window.toNat).setFld
      .PW_STATE F.PW_STATE_BOOST_LEFT boostLeft.toNat).setFld .PW_STATE F.PW_STATE_PEAK_LEFT peakLeft.toNat)

/-- POWER_BOOST (R560): the manager reports the boost window used up. -/
def execPowerBoost (s : State) : Host.Outcome State Fault Refusal := s.commit (fun s => s.wmEvent 142 [] none)

/-- POWER_PEAK (R560): the manager reports the peak limit breached. -/
def execPowerPeak (s : State) : Host.Outcome State Fault Refusal := s.commit (fun s => s.wmEvent 141 [] none)

/-- THERMAL (R561): the hub reports a thermal trip. -/
def execThermal (s : State) : Host.Outcome State Fault Refusal := s.commit (fun s => s.wmEvent 144 [] none)

end Sys2Proof.Machine
end

