-- ==== Sys2Proof/Machine/Observation.lean ====
section
/-! DEFINITION. The observation and race port unit: counters and samples (R565 to R578), the trace ring (R579 to R587), tensor
dumps (R588 to R593), breakpoints and halts (R594 to R598), hang snapshots (R599, R600), and the race port (R601 to R608). -/

namespace Sys2Proof.Machine

/-! ### What the unit writes and refuses -/

/-- A write of the unit to tier 1, with context 0: the owner table takes none (R339). -/
def State.obsWrite (s : State) (a : Nat) (bytes : List Byte) : State :=
  if placeOf a != .tier1 then s
  else if s.ownerOk 0 a true then s.wrWords a bytes
  else s.ownerRefusal 0 a none

/-- Bytes of consecutive pieces of n bytes. -/
def pieces (n : Nat) (bytes : List Byte) : List (List Byte) :=
  (List.range (bytes.length / n)).map (fun i => (bytes.drop (n * i)).take n)

/-- A request that the debug capabilities refuse (R586, R598). -/
def State.debugRefused (s : State) : State := (s.setFld .OBS_STATUS F.OBS_STATUS_REFUSED 1).wmEvent 148 [] none

/-! ### Counters and samples -/

/-- A write of OBS_CTRL.CLEAR (R573). -/
def State.countsClear (s : State) : State := s.clearCounts (fun _ => true)

/-- CLEAR. -/
def execClear (s : State) : Host.Outcome State Fault Refusal := s.commit (fun s => s.countsClear)

/-- A write of SMP_CTRL (R575, R610): one that sets ENABLE starts the ring and the counts again. -/
def State.smpCtrl (s : State) (v : Word64) : State :=
  let s := s.wr .SMP_CTRL (v &&& 0xFFCFFFFF)
  if v.getLsbD 31 then
    let s := (s.wr .SMP_TAIL 0).wr .SMP_HEAD 0
    { s with obs := { s.obs with smpSeq := 0, smpSkipped := 0, smpStart := s.rd .TB_RAW } }
  else s

/-- SMP_ENABLE. -/
def execSmpEnable (v : Word32) (s : State) : Host.Outcome State Fault Refusal :=
  s.commit (fun s => s.smpCtrl (v.setWidth 64 ||| 0x80000000))

/-- Offsets of the counters of the selected groups, in the order of the value words (R577). -/
def sampleWords (groups : Nat) : List Nat :=
  (if groups % 2 == 1 then (List.range 768).map (fun i => 0x1D1000 + 8 * i) else []) ++
  (if groups / 2 % 2 == 1 then (List.range 232).map (fun i => 0x1D2800 + 8 * i) else []) ++
  (if groups / 4 % 2 == 1 then (List.range 512).map (fun i => 0x1D4000 + 8 * i) else [])

/-- A full counter whose field lacks TRACE (R571). -/
def State.gatedCount (s : State) (off : Nat) : Bool :=
  0x1D4000 ≤ off && (off - 0x1D4000) / 8 < 484 && !s.capOn Cap.TRACE (s.fullField ((off - 0x1D4000) / 8))

/-- The value word of a counter (R576, R577): one that was reset in this FCLK is sampled as it was. -/
def State.valueWord (s : State) (off : Nat) : Nat :=
  let before := if s.obs.boundaryAt == s.rd .TB_RAW then Assoc.get? s.obs.boundary off else none
  match before with
  | some v => v.toNat / 2 ^ 63 * 2 ^ 63 + 2 ^ 62 + v.toNat % 2 ^ 48
  | none =>
    if s.gatedCount off then 2 ^ 61
    else
      let v := s.counter off
      v.toNat / 2 ^ 63 * 2 ^ 63 + v.toNat % 2 ^ 48

/-- Ring size of a LOG2SIZE field: 21 to 30 (R577). -/
def ringLog (v : Nat) : Nat := max 21 (min 30 v)

/-- A sample is due (R575). -/
def State.sampleDue (s : State) : Bool :=
  let period := max 1 (s.fld .SMP_CTRL F.SMP_CTRL_PERIOD)
  s.fld .SMP_CTRL F.SMP_CTRL_ENABLE == 1 &&
    (if s.fld .SMP_CTRL F.SMP_CTRL_MODE == 0 then s.cycle == 0 && s.turnNo.toNat % period == 0
     else (s.rd .TB_RAW - s.obs.smpStart).toNat % period == 0)

/-- Bytes of a sample record (R577). -/
def State.sampleRecord (s : State) (words : List Nat) : List Byte :=
  let any (i : Nat) : Nat := if words.any (fun w => w.testBit i) then 1 else 0
  let len := 1 + words.length / 8
  leBytes 8 (s.obs.smpSeq + 1) ++ leBytes 8 s.timestamp.toNat ++ leBytes 8 s.turnNo.toNat ++ leBytes 2 len ++
    leBytes 1 (s.fld .SMP_CTRL F.SMP_CTRL_GROUPS + 8 * any 62 + 16 * any 63 + 32 * any 61) ++ leBytes 1 0 ++
    leBytes 4 s.obs.smpSkipped ++ leBytes 2 (s.chipId + 512 * s.fld .TB_CHIP F.TB_CHIP_SIDE) ++ leBytes 30 0 ++
    words.flatMap (fun w => leBytes 8 w)

/-- SAMPLE_LATCH (R575 to R578): the record is written where the ring has room for all of it, and skipped otherwise. -/
def execSampleLatch (s : State) : Host.Outcome State Fault Refusal :=
  s.commit (fun s =>
    if !s.sampleDue then s
    else
      let offs := sampleWords (s.fld .SMP_CTRL F.SMP_CTRL_GROUPS)
      let words := offs.map (fun o => s.valueWord o)
      let s := if offs.any (fun o => s.gatedCount o) then s.setFld .OBS_STATUS F.OBS_STATUS_GATED_SEEN 1 else s
      let len := 1 + words.length / 8
      let ring := 2 ^ (ringLog (s.fld .SMP_CTRL F.SMP_CTRL_LOG2SIZE) - 6)
      let tail := s.fld .SMP_TAIL F.SMP_TAIL_INDEX
      let used := (tail + ring - s.fld .SMP_HEAD F.SMP_HEAD_INDEX % ring) % ring
      if used + len < ring then
        let base := s.fld .SMP_BASE F.SMP_BASE_REGION * 2 ^ 21
        let lines := pieces 64 (s.sampleRecord words)
        let s := (lines.zipIdx).foldl (fun s x => s.obsWrite (base + (tail + x.2) % ring * 64) x.1) s
        let s := s.setFld .SMP_TAIL F.SMP_TAIL_INDEX ((tail + len) % ring)
        { s with obs := { s.obs with smpSeq := s.obs.smpSeq + 1, smpSkipped := 0 } }
      else
        let s := s.countUp .SMP_SKIP F.SMP_SKIP_COUNT
        { s with obs := { s.obs with smpSeq := s.obs.smpSeq + 1, smpSkipped := min (2 ^ 32 - 1) (s.obs.smpSkipped + 1) } })

/-! ### The trace ring -/

/-- Bytes of a record (R580). -/
def traceBytes (r : TraceRecord) : List Byte :=
  leBytes 1 r.typ.toNat ++ leBytes 1 r.ctx.toNat ++ leBytes 2 (r.unitClass.toNat * 2 ^ 13 + r.unitIndex.toNat) ++
    leBytes 2 r.layer.toNat ++ leBytes 2 r.operator.toNat ++ leBytes 8 r.t0.toNat ++ leBytes 8 r.t1.toNat ++
    leBytes 8 r.data.toNat

/-- A record of the observation unit itself. -/
def obsRecord (typ : Nat) (t0 t1 : Word64) (data : Nat) : TraceRecord where
  typ := BitVec.ofNat 8 typ
  ctx := 0
  unitClass := 7
  unitIndex := 0
  layer := 0xFFFF
  operator := 0xFFFF
  t0 := t0
  t1 := t1
  data := BitVec.ofNat 64 data

/-- How many records the ring holds when full (R579). -/
def State.ringSize (s : State) : Nat := 2 ^ (ringLog (s.fld .TR_CTRL F.TR_CTRL_LOG2SIZE) - 5)

/-- A record is written at TAIL (R579, R583, R585): the oldest gives way when the ring is full, and after a trigger the ring
freezes with the last of S/8 records. A GAP record raises its source. -/
def State.ringPut (s : State) (r : TraceRecord) : State :=
  let n := s.ringSize
  let tail := s.fld .TR_TAIL F.TR_TAIL_VALUE
  let s := s.obsWrite (s.fld .TR_BASE F.TR_BASE_REGION * 2 ^ 21 + 32 * tail) (traceBytes r)
  let s := s.setFld .TR_TAIL F.TR_TAIL_VALUE ((tail + 1) % n)
  let s := s.wr .TR_TOTAL (s.rd .TR_TOTAL + 1)
  let s := if s.fld .TR_COUNT F.TR_COUNT_VALUE < n then
      s.setFld .TR_COUNT F.TR_COUNT_VALUE (s.fld .TR_COUNT F.TR_COUNT_VALUE + 1)
    else s.setFld .TR_HEAD F.TR_HEAD_VALUE ((s.fld .TR_HEAD F.TR_HEAD_VALUE + 1) % n)
  let s := if r.typ == 5 then s.wmEvent 145 [] none else s
  match s.obs.trigLeft with
  | none => s
  | some k =>
    let s := { s with obs := { s.obs with trigLeft := if k ≤ 1 then none else some (k - 1) } }
    if k ≤ 1 then s.setFld .TRACE_STATUS F.TRACE_STATUS_FROZEN 1 else s

/-- The field of a record's unit (R586); none for the observation unit, which is never gated. -/
def State.unitField (s : State) (r : TraceRecord) : Option Nat :=
  let i := r.unitIndex.toNat
  match r.unitClass.toNat with
  | 4 => some (s.ctxField (BitVec.ofNat 8 (s.fld (.HG_CFG i) F.HG_CFG_CTX)))
  | 5 => some (if 2 ≤ i && i < 8 then s.fld (.LV_RIDER i) F.LV_RIDER_FIELD else 15)
  | 6 => some (s.fld (.ES_FIELD (i % 16)) F.ES_FIELD_FIELD)
  | 7 => none
  | _ => some (s.leveeNibble .LV_TILE (i / 128))

/-- A record is dropped by KEEP_FIRST: one GAP record for the drops since the last written record is due (R583). -/
def State.ringDrop (s : State) : State :=
  let s := s.countUp .TR_DROP F.TR_DROP_COUNT
  let now := s.timestamp
  let g := match s.obs.gaps with
    | (u, n, t0, _) :: _ => [(u, n + 1, t0, now)]
    | [] => [(0xE000, 1, now, now)]
  { s with obs := { s.obs with gaps := g } }

/-- The GAP record that is due is written (R579, R583). -/
def State.ringGap (s : State) : State :=
  match s.obs.gaps with
  | (_, n, t0, t1) :: _ =>
    ({ s with obs := { s.obs with gaps := [] } }).ringPut (obsRecord 5 t0 t1 (n % 2 ^ 32))
  | [] => s

/-- A record reaches the trace unit (R579, R583, R585, R586). -/
def State.trace (s : State) (r : TraceRecord) : State :=
  if s.fld .TR_CTRL F.TR_CTRL_ENABLE == 0 then s
  else if (s.unitField r).any (fun f => !s.capOn Cap.TRACE f) then
    (s.countUp .TR_DROP F.TR_DROP_COUNT).debugRefused
  else if s.fld .TRACE_STATUS F.TRACE_STATUS_FROZEN == 1 then s.countUp .TR_DROP F.TR_DROP_COUNT
  else if s.fld .TR_CTRL F.TR_CTRL_KEEP == 1 && s.obs.trigLeft.isNone &&
      s.ringSize - s.ringSize / 8 ≤ s.fld .TR_COUNT F.TR_COUNT_VALUE then s.ringDrop
  else
    let s := s.ringGap
    if s.fld .TRACE_STATUS F.TRACE_STATUS_FROZEN == 1 then s.countUp .TR_DROP F.TR_DROP_COUNT else s.ringPut r

/-- The classes of records that TR_CTRL and TR_MIN let units make (R581, R582): a wait's class, kernels, commands, and the GAP
record of a unit whose queue was full. -/
def State.traceWanted (s : State) (r : TraceRecord) : Bool :=
  let sync (i : Nat) : Bool := s.fld .TR_CTRL F.TR_CTRL_SYNC / 2 ^ i % 2 == 1
  match r.typ.toNat with
  | 1 =>
    s.fld .TR_MIN F.TR_MIN_MIN ≤ (r.t1 - r.t0).toNat &&
      (match r.unitClass.toNat with
       | 0 => sync 0
       | 1 => sync 2
       | 2 => sync 1
       | 4 => sync 3
       | _ => false)
  | 2 => s.fld .TR_CTRL F.TR_CTRL_KERNEL == 1
  | 3 => s.fld .TR_CTRL F.TR_CTRL_COMMAND == 1
  | 5 => true
  | _ => false

/-- The tag of a record (R574): the current tag of the tile whose unit made it; a headgate's is its command's, and every other
record has none. -/
def State.tagged (s : State) (r : TraceRecord) : TraceRecord :=
  match r.unitClass.toNat with
  | 4 => r
  | 5 => { r with layer := 0xFFFF, operator := 0xFFFF }
  | 6 => { r with layer := 0xFFFF, operator := 0xFFFF }
  | 7 => { r with layer := 0xFFFF, operator := 0xFFFF }
  | _ =>
    let x := s.tile ⟨r.unitIndex.toNat / 128 % 48, Nat.mod_lt _ (by decide)⟩
    { r with layer := x.layer, operator := x.operator }

/-- TRACE_RECORD: the record of a unit. The records that the observation unit and the dump engines make themselves come with
their commands. A GAP record stands for drops of its unit, which are counted with it. -/
def execTraceRecord (r : TraceRecord) (s : State) : Host.Outcome State Fault Refusal :=
  s.commit (fun s =>
    if !s.traceWanted r then s
    else
      let n := r.data.toNat % 2 ^ 32
      let s := if r.typ == 5 then
          s.setFld .TR_DROP F.TR_DROP_COUNT (min (2 ^ 32 - 1) (s.fld .TR_DROP F.TR_DROP_COUNT + n))
        else s
      s.trace (s.tagged r))

/-- FIRE (R584). -/
def execFire (s : State) : Host.Outcome State Fault Refusal := s.commit (fun s => s.trigEvent 0 0)

/-- The armed trigger is taken (R583, R584): S/8 records follow, the TRIGGER record first. -/
def State.triggerAt (s : State) (kind source : Nat) (time : Word64) : State :=
  let s := s.setFld .TR_TRIG F.TR_TRIG_ARM 0
  let s := { s with obs := { s.obs with triggers := [] } }
  let s := (s.setFld .TRACE_STATUS F.TRACE_STATUS_TRIGGERED 1).setFld .TRACE_STATUS F.TRACE_STATUS_TRIGIDX
    (s.fld .TR_TAIL F.TR_TAIL_VALUE)
  if s.fld .TR_CTRL F.TR_CTRL_ENABLE == 0 then s
  else if s.fld .TRACE_STATUS F.TRACE_STATUS_FROZEN == 1 then s.countUp .TR_DROP F.TR_DROP_COUNT
  else
    let s := if s.obs.trigLeft.isNone then { s with obs := { s.obs with trigLeft := some (s.ringSize / 8) } } else s
    s.ringPut (obsRecord 4 time 0 (kind + if kind == 1 then 256 * source else 0))

/-- TRIGGER: the first event since ARM was set, or TR_TRIGTIME reached. -/
def execTrigger (kind : BitVec 3) (source : Byte) (s : State) : Host.Outcome State Fault Refusal :=
  s.commit (fun s =>
    if kind == 4 then
      if s.fld .TR_TRIG F.TR_TRIG_ARM == 1 && s.fld .TR_TRIG F.TR_TRIG_KIND == 4 &&
          (s.rd .TR_TRIGTIME).toNat ≤ s.timestamp.toNat then s.triggerAt 4 0 s.timestamp
      else s
    else
      match s.obs.triggers with
      | (k, n, t) :: _ =>
        if k == kind.toNat && (k != 1 || n == source.toNat) then s.triggerAt k n t else s
      | [] => s)

/-- A write of TR_CTRL.REARM (R585). -/
def State.rearm (s : State) : State :=
  let s := (s.setFld .TRACE_STATUS F.TRACE_STATUS_TRIGGERED 0).setFld .TRACE_STATUS F.TRACE_STATUS_FROZEN 0
  { s with obs := { s.obs with trigLeft := none } }

/-- REARM. -/
def execRearm (s : State) : Host.Outcome State Fault Refusal := s.commit (fun s => s.rearm)

/-- A write of TR_CTRL (R585): one that takes ENABLE from 0 to 1 empties the ring. -/
def State.trCtrl (s : State) (v : Word64) : State :=
  let sets := v.getLsbD 31 && s.fld .TR_CTRL F.TR_CTRL_ENABLE == 0
  let s := s.wr .TR_CTRL (v &&& 0xEF80003F)
  let s := if v.getLsbD 28 then s.rearm else s
  if sets then
    let s := (((s.wr .TR_TAIL 0).wr .TR_HEAD 0).wr .TR_COUNT 0).wr .TR_TOTAL 0
    { s.rearm with obs := { s.rearm.obs with gaps := [] } }
  else s

/-- TR_ENABLE. -/
def execTrEnable (v : Word32) (s : State) : Host.Outcome State Fault Refusal :=
  s.commit (fun s => s.trCtrl (v.setWidth 64 ||| 0x80000000))

/-- A software write of TR_HEAD (R587). -/
def State.trHead (s : State) (v : Nat) : State :=
  let n := s.ringSize
  let count := s.fld .TR_COUNT F.TR_COUNT_VALUE
  let d := (v + n - s.fld .TR_HEAD F.TR_HEAD_VALUE % n) % n
  if s.fld .TR_CTRL F.TR_CTRL_DRAIN == 1 || n ≤ v || count < d then s
  else (s.setFld .TR_HEAD F.TR_HEAD_VALUE v).setFld .TR_COUNT F.TR_COUNT_VALUE (count - d)

/-- TR_HEAD_WRITE. -/
def execTrHeadWrite (v : Word32) (s : State) : Host.Outcome State Fault Refusal :=
  s.commit (fun s => s.trHead (v.toNat % 2 ^ 26))

/-! ### Tensor dumps -/

/-- The results of R593. -/
def Dmp.NONE : Nat := 0
def Dmp.DONE : Nat := 1
def Dmp.MISS : Nat := 2
def Dmp.TRUNC : Nat := 3
def Dmp.GATED : Nat := 4
def Dmp.ERROR : Nat := 5

/-- The dump of a tile. -/
def State.dump (s : State) (t : TileId) : Option Dump := s.obs.dumps[t.val]'(t.isLt)

def State.setDump (s : State) (t : TileId) (d : Option Dump) : State :=
  { s with obs := { s.obs with dumps := s.obs.dumps.set t.val d t.isLt } }

/-- The lowest-numbered armed request that a point matches (R589). -/
def State.dumpMatch (s : State) (tag step : Nat) : Option Nat :=
  (List.range 16).find? (fun n =>
    s.fld (.DUMP_CTRL n) F.DUMP_CTRL_ARM == 1 && s.fld (.DUMP_CTRL n) F.DUMP_CTRL_TAG == tag &&
      (s.fld (.DUMP_CTRL n) F.DUMP_CTRL_ANYSTEP == 1 || s.fld (.DUMP_STEP n) F.DUMP_STEP_STEP == step))

/-- Cycles 0 to 1,799 of turns, counted up to now (R591). -/
def State.counted (s : State) : Nat := s.turnNo.toNat * 1800 + min s.cycle 1799

/-- A dump ends (R593): the tile's result, the request's, and the record. -/
def State.dumpEnd (s : State) (t : TileId) (d : Dump) : State :=
  let r := d.result.getD Dmp.NONE
  let s := s.setDump t none
  let s := (s.setFld (.OBS_DP_CTRL t.val) F.OBS_DP_CTRL_BUSY 0).setFld (.OBS_DP_CTRL t.val) F.OBS_DP_CTRL_RESULT r
  match d.request with
  | none => s
  | some n =>
    (s.setFld (.DUMP_CTRL n) F.DUMP_CTRL_RESULT r).trace
      { typ := 6, ctx := 0, unitClass := 3, unitIndex := BitVec.ofNat 13 (t.val * 128), layer := d.layer
        operator := d.operator, t0 := d.time, t1 := d.last
        data := BitVec.ofNat 64 (d.tag + r * 2 ^ 24 + d.step * 2 ^ 32) }

/-- A dump point (R589 to R593). -/
def State.dumpPoint (s : State) (t : TileId) : State :=
  if s.fld (.OBS_DP_CTRL t.val) F.OBS_DP_CTRL_BUSY == 1 then s
  else
    let tag := s.fld (.OBS_DP_TAG t.val) F.OBS_DP_TAG_TAG
    let step := s.fld (.OBS_DP_STEP t.val) F.OBS_DP_STEP_STEP
    let lines := s.fld (.OBS_DP_CTRL t.val) F.OBS_DP_CTRL_LINES
    let sched := s.schedMode t
    let x := s.tile t
    let m := s.dumpMatch tag step
    let n := m.getD 0
    let dest := s.fld (.DUMP_DEST n) F.DUMP_DEST_LINE * 256
    let count := min lines (s.fld (.DUMP_MAX n) F.DUMP_MAX_LINES)
    let locked := (List.range (count + 1)).all (fun i => placeOf (dest + 256 * i) == .tier1 && s.rotLocked (dest + 256 * i))
    let gated := !s.capOn Cap.DUMP (s.leveeNibble .LV_TILE t.val)
    let result := if m.isNone then some Dmp.NONE
      else if gated then some Dmp.GATED
      else if sched && !locked then some Dmp.ERROR
      else none
    let d : Dump :=
      { request := m, sched := sched, src := s.fld (.OBS_DP_SRC t.val) F.OBS_DP_SRC_LINE * 256, dest := dest
        lines := lines, count := count, next := 0, go := s.counted, time := s.timestamp, last := s.timestamp, tag := tag
        step := step, layer := x.layer, operator := x.operator, result := result }
    let s := match m with
      | some n => s.setFld (.DUMP_CTRL n) F.DUMP_CTRL_ARM 0
      | none => s
    let s := if result == some Dmp.GATED then s.debugRefused else s
    if !sched && result.isSome then s.dumpEnd t d
    else (s.setDump t (some d)).setFld (.OBS_DP_CTRL t.val) F.OBS_DP_CTRL_BUSY 1

/-- GO: a write of OBS_DP_CTRL.GO. -/
def execGo (t : TileId) (s : State) : Host.Outcome State Fault Refusal := s.commit (fun s => s.dumpPoint t)

/-- The header line of a dump (R590). -/
def State.dumpHeader (s : State) (t : TileId) (d : Dump) : List Byte :=
  leBytes 3 d.tag ++ leBytes 1 (if d.count < d.lines then Dmp.TRUNC else Dmp.DONE) ++ leBytes 4 d.step ++
    leBytes 2 t.val ++ leBytes 2 s.chipId ++ leBytes 2 d.layer.toNat ++ leBytes 2 d.operator.toNat ++
    leBytes 8 d.time.toNat ++ leBytes 4 d.count ++ leBytes 228 0

/-- A line of a dump is written: a scheduled flit leaves for tier 1, an open-mode one is a coherent write. -/
def State.dumpWrite (s : State) (d : Dump) (a : Nat) (bytes : List Byte) : State × Option Nat :=
  if d.sched then (s.emit (.schedFlit (schedWriteFlit 0 a (bytes.mapIdx (fun i b => (a + i, b))))), none)
  else if placeOf a == .tier1 && s.ownerOk 0 a true then (s.wrWords a bytes, none)
  else (s, some Dmp.ERROR)

/-- One flit of a dump (R590 to R592). -/
def State.dumpFlit (s : State) (t : TileId) (d : Dump) (collision : Bool) : State :=
  let i := d.next
  let d := { d with next := i + 1 }
  let put (s : State) (a : Nat) (bytes : List Byte) (ok : Option Nat) : State :=
    let (s, bad) := s.dumpWrite d a bytes
    let d := { d with last := s.timestamp }
    match bad with
    | some e => s.setDump t (some { d with result := some e })
    | none => s.setDump t (some { d with result := ok })
  if d.result.isSome || (d.count ≤ i && i < d.lines) then s.setDump t (some d)
  else if d.sched && collision then (s.setDump t (some { d with result := some Dmp.MISS })).wmEvent 146 [] none
  else if i < d.count then
    let off := d.src + 256 * i
    if slabSize ≤ off then s.setDump t (some { d with result := some Dmp.ERROR })
    else
      let a := slabAddr t off
      let bytes := s.rdBytes a 256
      let s := if (s.ueIn a 256).isSome then s.slabUE t a [0] else s
      put s (d.dest + 256 + 256 * i) bytes none
  else put s d.dest (s.dumpHeader t d) (some (if d.count < d.lines then Dmp.TRUNC else Dmp.DONE))

/-- DUMP_FLIT_ISSUE: the next flit of a scheduled dump at its cycle, or of an open-mode one. -/
def execDumpFlitIssue (t : TileId) (collision : Bool) (s : State) : Host.Outcome State Fault Refusal :=
  s.commit (fun s =>
    match s.dump t with
    | none => s
    | some d =>
      if d.lines < d.next then s
      else if !d.sched then s.dumpFlit t d false
      else
        let at_ := d.go + 8 + d.next * (s.fld (.OBS_DP_CTRL t.val) F.OBS_DP_CTRL_PACE + 1)
        if s.turnNo.toNat < at_ / 1800 then s
        else
          let s := if s.turnNo.toNat == at_ / 1800 then s.advanceTo (at_ % 1800) else s
          s.dumpFlit t d collision)

/-- DUMP_DONE: the cycle of the last flit has passed, or the header is performed, or an open-mode dump has ended. -/
def execDumpDone (t : TileId) (s : State) : Host.Outcome State Fault Refusal :=
  s.commit (fun s =>
    match s.dump t with
    | none => s
    | some d => if d.lines < d.next || (!d.sched && d.result.isSome) then s.dumpEnd t d else s)

/-! ### Breakpoints and halts -/

/-- A halt or resume word (R596): origin chip, RESUME, number, low 32 bits of the resume turn. -/
def haltWord (origin : Nat) (resume : Bool) (number turn : Nat) : Word64 :=
  BitVec.ofNat 64 (origin % 512 + (if resume then 512 else 0) + number % 2 ^ 16 * 2 ^ 16 + turn % 2 ^ 32 * 2 ^ 32)

/-- A word is sent in C slots on every UP link but links 34 and 35 and the one it came from. -/
def State.haltSend (s : State) (v : Word64) (from_ : Option LinkId) : State :=
  (List.finRange 36).foldl (fun s l =>
    if l.val < 34 && s.linkUp l && from_ != some l then s.updLink l (fun x => { x with sigOut := x.sigOut ++ [(63, v)] })
    else s) s

/-- The number of the last halt of an origin that the block has acted on. -/
def State.haltSeen (s : State) (origin number : Nat) : State :=
  { s with obs := { s.obs with seen := (origin, number) :: s.obs.seen.filter (fun x => x.1 != origin) } }

/-- A halt begins (R594). -/
def State.haltBegin (s : State) (cause origin number : Nat) : State :=
  let s := { s with obs := { s.obs with
    halt := some ⟨cause, origin, number, s.timestamp, s.turnNo, false, none⟩ } }
  let s := (s.setFld .OBS_STATUS F.OBS_STATUS_CAUSE cause).setFld .OBS_STATUS F.OBS_STATUS_ORIGIN origin
  s.trigEvent 3 0

/-- A halt of which the block is the origin. -/
def State.haltOwn (s : State) (cause : Nat) : State :=
  let n := (s.fld .OBS_HALT F.OBS_HALT_NUMBER + 1) % 2 ^ 16
  let s := s.setFld .OBS_HALT F.OBS_HALT_NUMBER n
  ((s.haltSeen s.chipId n).haltBegin cause s.chipId n).haltSend (haltWord s.chipId false n 0) none

/-- BREAKPOINT_HIT (R594, R597): while the block is halted, the hit halts only its sequencer. -/
def execBreakpointHit (t : TileId) (s : State) : Host.Outcome State Fault Refusal :=
  s.commit (fun s =>
    if s.seqReady t && s.atBreak t then
      let s := (s.updTile t (fun x => { x with held := true })).setFld (.OBS_BP t.val) F.OBS_BP_HALTED 1
      let s := { s with obs := { s.obs with bpHeld := s.obs.bpHeld ++ [t] } }
      if s.obs.halt.isSome then s else s.haltOwn 0
    else s)

/-- A write of OBS_HALT.GO (R594, R598). -/
def State.haltGo (s : State) : State :=
  if s.twinActive then s.debugRefused
  else if s.obs.halt.isSome then s
  else s.haltOwn 1

/-- OBS_HALT_GO. -/
def execObsHaltGo (s : State) : Host.Outcome State Fault Refusal := s.commit (fun s => s.haltGo)

/-- A HALT word arrives over a link (R596, R598). -/
def State.haltWordRx (s : State) (l : LinkId) (v : Word64) : State :=
  let origin := bitsOf v 8 0
  let number := bitsOf v 31 16
  if s.twinActive || s.obs.seen.contains (origin, number) then s
  else
    let s := (s.haltSeen origin number).haltSend v (some l)
    if s.obs.halt.isSome then s else s.haltBegin 2 origin number

/-- HALT_WORD. -/
def execHaltWord (l : LinkId) (v : Word64) (s : State) : Host.Outcome State Fault Refusal :=
  s.commit (fun s => if bitOf v 9 then s else s.haltWordRx l v)

/-- The turn that the low 32 bits name, within 2^31 turns of the current one (R597), or none where it has begun. -/
def State.resumeTurn (s : State) (low : Nat) : Option Nat :=
  let now := s.turnNo.toNat
  let d := (low + 2 ^ 32 - now % 2 ^ 32) % 2 ^ 32
  if d == 0 || 2 ^ 31 ≤ d then none else some (now + d)

/-- A RESUME word arrives over a link (R596, R597): it is new while the block is halted under its origin and number. -/
def State.resumeWordRx (s : State) (l : LinkId) (v : Word64) : State :=
  match s.obs.halt with
  | none => s
  | some h =>
    if s.twinActive || h.resume.isSome || h.origin != bitsOf v 8 0 || h.number != bitsOf v 31 16 then s
    else
      let s := s.haltSend v (some l)
      match s.resumeTurn (bitsOf v 63 32) with
      | some r => { s with obs := { s.obs with halt := some { h with resume := some (BitVec.ofNat 64 r) } } }
      | none =>
        { s with obs := { s.obs with halt := some { h with resume := some (s.turnNo + 1) } } }.setFld .OBS_STATUS
          F.OBS_STATUS_RESUME_LATE 1

/-- RESUME_WORD. -/
def execResumeWord (l : LinkId) (v : Word64) (s : State) : Host.Outcome State Fault Refusal :=
  s.commit (fun s => if bitOf v 9 then s.resumeWordRx l v else s)

/-- A write of OBS_RESUME.TURN (R597). -/
def State.obsResume (s : State) (turn : Word64) : State :=
  match s.obs.halt with
  | some h =>
    if s.fld .OBS_STATUS F.OBS_STATUS_HALTED == 0 || turn.toNat < s.turnNo.toNat + 2 then
      s.setFld .OBS_STATUS F.OBS_STATUS_REFUSED 1
    else
      let s := s.haltSend (haltWord h.origin true h.number turn.toNat) none
      { s with obs := { s.obs with halt := some { h with resume := some turn } } }
  | none => s.setFld .OBS_STATUS F.OBS_STATUS_REFUSED 1

/-- OBS_RESUME. -/
def execObsResume (turn : Word64) (s : State) : Host.Outcome State Fault Refusal := s.commit (fun s => s.obsResume turn)

/-- A field on which halts act and HALT is enabled (R595). -/
def State.haltField (s : State) (f : Nat) : Bool :=
  s.fld .OBS_CTRL F.OBS_CTRL_HALTFIELDS / 2 ^ f % 2 == 1 && s.capOn Cap.HALT f

/-- A halt takes effect (R595). -/
def State.haltEffect (s : State) (h : Halt) : State :=
  let s := (List.finRange 48).foldl (fun s t =>
    if s.haltField (s.leveeNibble .LV_TILE t.val) && !(s.tile t).inReset then
      (s.updTile t (fun x => { x with held := true })).setFld (.OBS_BP t.val) F.OBS_BP_HALTED 1
    else s) s
  let s := (List.finRange 8).foldl (fun s k =>
    if 2 ≤ k.val && (s.rider k).running && s.haltField (s.fld (.LV_RIDER k.val) F.LV_RIDER_FIELD) then
      s.updRider k (fun x => { x with halted := true })
    else s) s
  let s := (List.finRange 16).foldl (fun s e =>
    if s.esPresent e && s.haltField (s.esField e) then
      ((s.updEslot e (fun x => { x with halted := true })).esSet e F.ES_STATUS_HOLD_ACK 0).toEngine e .hold
    else s) s
  { s with obs := { s.obs with halt := some { h with effect := true } } }.setFld .OBS_STATUS F.OBS_STATUS_HALTED 1

/-- Halted units of fields where HALT is no longer enabled continue (R505). -/
def State.haltLapse (s : State) : State :=
  let s := (List.finRange 48).foldl (fun s t =>
    if (s.tile t).held && !s.capOn Cap.HALT (s.leveeNibble .LV_TILE t.val) then
      { (s.updTile t (fun x => { x with held := false })).setFld (.OBS_BP t.val) F.OBS_BP_HALTED 0 with
        obs := { s.obs with bpHeld := s.obs.bpHeld.filter (· != t) } }
    else s) s
  let s := (List.finRange 8).foldl (fun s k =>
    if (s.rider k).halted && !s.capOn Cap.HALT (s.fld (.LV_RIDER k.val) F.LV_RIDER_FIELD) then
      s.updRider k (fun x => { x with halted := false })
    else s) s
  (List.finRange 16).foldl (fun s e =>
    if (s.eslot e).halted && !s.capOn Cap.HALT (s.esField e) then
      let s := s.updEslot e (fun x => { x with halted := false })
      if s.esPresent e && s.fld (.ES_CTRL e.val) F.ES_CTRL_HOLD == 0 then s.toEngine e .release else s
    else s) s

/-- The block resumes (R597): a sequencer that a breakpoint stopped continues with the instruction it stopped before. -/
def State.haltOver (s : State) (h : Halt) : State :=
  let s := s.releaseHeld
  let s := { s with obs := { s.obs with halt := none, bpPass := s.obs.bpPass ++ s.obs.bpHeld, bpHeld := [] } }
  (s.setFld .OBS_STATUS F.OBS_STATUS_HALTED 0).trace
    (obsRecord 7 h.began s.timestamp (h.cause + h.origin * 2 ^ 16 + h.number * 2 ^ 32))

/-- What halts do in cycle 0 of a turn. -/
def State.haltTurn (s : State) : State :=
  match s.obs.halt with
  | none => s.haltLapse
  | some h =>
    if h.resume.any (fun r => r.toNat ≤ s.turnNo.toNat) then s.haltOver h
    else if !h.effect then s.haltEffect h
    else s.haltLapse

/-- WORD (R192, R596): a word from a link, for a tile's queue or a halt word. -/
def execWord (m : CohMsg) (s : State) : Host.Outcome State Fault Refusal :=
  s.commit (fun s =>
    let t := m.opB.toNat % 64
    if m.cls != 3 || m.srcAgent.toNat < 134 || 170 ≤ m.srcAgent.toNat then s
    else
      let l : LinkId := ⟨(m.srcAgent.toNat - 134) % 36, Nat.mod_lt _ (by decide)⟩
      if !s.linkUp l then s
      else if h : t < 48 then s.updLink l (fun x => { x with sigHeld := x.sigHeld ++ [(⟨t, h⟩, m.opA)] })
      else if t != 63 then s
      else if bitOf m.opA 9 then s.resumeWordRx l m.opA
      else s.haltWordRx l m.opA)

/-! ### Hang snapshots -/

/-- A local address in tier 1 in a region owned by context 0 (R577, R599). -/
def State.owned0 (s : State) (a : Nat) : Bool :=
  placeOf a == .tier1 && (match ownerIndex a with
    | some e => s.ownerEntry e % 256 == 0
    | none => false)

/-- A write of SNAP_CTRL.GO (R599). -/
def State.snapGo (s : State) : State :=
  if s.fld .SNAP_CTRL F.SNAP_CTRL_BUSY == 1 then s.setFld .SNAP_CTRL F.SNAP_CTRL_RESULT 1
  else if !s.owned0 (s.fld .SNAP_BASE F.SNAP_BASE_REGION * 2 ^ 20) then s.setFld .SNAP_CTRL F.SNAP_CTRL_RESULT 2
  else
    let s := (s.setFld .SNAP_CTRL F.SNAP_CTRL_BUSY 1).setFld .SNAP_CTRL F.SNAP_CTRL_RESULT 0
    { s with obs := { s.obs with snap := true } }

/-- SNAP_GO. -/
def execSnapGo (s : State) : Host.Outcome State Fault Refusal := s.commit (fun s => s.snapGo)

/-- The SYNC kind of a group's wait, or 0xF (R582, R600). -/
def snapKind : Option GWait → Nat
  | some (.token _) => 5
  | some (.queue _) => 5
  | some .barrier => 6
  | some .load => 5
  | some (.fault ..) => 7
  | some (.refusedFault ..) => 7
  | _ => 15

/-- The entry of a resident slot (R600). -/
def snapSlot (c : Core) (i : SlotId) : List Byte :=
  match c.group i with
  | none => [0]
  | some gr =>
    let st := if gr.halted then 3 else if c.isActive i then 1 else 2
    let done := (List.range 16).foldl (fun a n => if ((gr.tok.toList.getD n default).done) then a + 2 ^ n else a) 0
    leBytes 1 st ++ leBytes 1 (snapKind gr.wait) ++ leBytes 6 0 ++ leBytes 8 gr.pc.toNat ++ leBytes 8 gr.mask.toNat ++
      leBytes 8 gr.exited.toNat ++ leBytes 2 done ++ leBytes 1 gr.stack.length ++ leBytes 1 gr.blockSlot ++ leBytes 28 0

/-- Bytes at an offset. -/
def bytesAt (off : Nat) (bs : List Byte) : List (Nat × Byte) := bs.mapIdx (fun i b => (off + i, b))

/-- The places of a tile's section whose layout R600 gives: resident slots and signals. -/
def State.snapTile (s : State) (t : TileId) : List (Nat × Byte) :=
  let base := 0x1000 + 0x4000 * t.val
  (List.finRange 4).flatMap (fun v => (List.finRange 32).flatMap (fun i =>
    bytesAt (base + 0x800 + 0x800 * v.val + 64 * i.val) (snapSlot (s.core t v) i))) ++
  (List.range 64).flatMap (fun n => bytesAt (base + 0x2800 + 8 * n) (leBytes 8 (s.rd (.SQ_SIG t.val n)).toNat))

/-- What every unit captures in one FCLK (R599, R600). Sections of fields without DUMP are zeros. -/
def State.capture (s : State) (stamp : Nat) : Capture :=
  let tiles := (List.finRange 48).filter (fun t => !s.capOn Cap.DUMP (s.leveeNibble .LV_TILE t.val))
  let links := (List.range 36).filter (fun l => !s.capOn Cap.DUMP (s.leveeNibble .LV_LINK l))
  let slots := (List.finRange 16).filter (fun e => !s.capOn Cap.DUMP (s.esField e))
  let bits (l : List Nat) : Nat := l.foldl (fun a i => a + 2 ^ i) 0
  { stamp := stamp
    zeros := [(42, 0x1000 - 42), (0xEB000, 0x15000)] ++
      (List.range 48).map (fun t => (0x1000 + 0x4000 * t + 0x2C00, 0x1400)) ++
      tiles.map (fun t => (0x1000 + 0x4000 * t.val, 0x4000)) ++
      links.map (fun l => (0xD1000 + 0x200 * l, 0x200)) ++ slots.map (fun e => (0xD8000 + 0x400 * e.val, 0x400))
    bytes :=
      bytesAt 0 (leBytes 8 s.timestamp.toNat ++ leBytes 8 s.turnNo.toNat ++
        leBytes 2 (s.chipId + 512 * s.fld .TB_CHIP F.TB_CHIP_SIDE) ++ leBytes 6 0 ++
        leBytes 8 (bits (tiles.map (fun t => t.val))) ++ leBytes 8 (bits links) ++ leBytes 2 (bits (slots.map (fun e => e.val)))) ++
      ((List.finRange 48).filter (fun t => !tiles.contains t)).flatMap (fun t => s.snapTile t) }

/-- SNAP_CAPTURE. -/
def execSnapCapture (s : State) : Host.Outcome State Fault Refusal :=
  s.commit (fun s =>
    if s.obs.snap then
      let (n, s) := s.takeFresh
      { s with obs := { s.obs with snap := false, captured := some (s.capture n) } }
    else s)

/-- A byte of the snapshot's region: a free value where R600 gives contents without a place. -/
def Capture.byte (c : Capture) (off : Nat) : Byte :=
  if c.zeros.any (fun z => z.1 ≤ off && off < z.1 + z.2) then 0
  else
    match Assoc.get? c.bytes off with
    | some b => b
    | none => BitVec.ofNat 8 (Config.freeBits c.stamp off)

/-- SNAP_DONE: the region is written. -/
def execSnapDone (s : State) : Host.Outcome State Fault Refusal :=
  s.commit (fun s =>
    match s.obs.captured with
    | none => s
    | some c =>
      let base := s.fld .SNAP_BASE F.SNAP_BASE_REGION * 2 ^ 20
      let s := s.obsWrite base ((List.range 0x100000).map c.byte)
      { s with obs := { s.obs with captured := none } }.setFld .SNAP_CTRL F.SNAP_CTRL_BUSY 0)

/-! ### The race port -/

/-- RACE_CTRL.MODE as it acts: 3 is OFF. -/
def State.raceMode (s : State) : Nat :=
  let m := s.fld .RACE_CTRL F.RACE_CTRL_MODE
  if m == 3 then 0 else m

/-- A write of RACE_CTRL.MODE (R601): a change takes effect only to or from OFF. -/
def State.raceWrite (s : State) (m : Nat) : State :=
  let off := m == 0 || m == 3
  if s.raceMode != 0 && !off then s
  else (s.setFld .RACE_CTRL F.RACE_CTRL_MODE m).setFld .RACE_STATUS F.RACE_STATUS_LSTATE (if off then 0 else 1)

/-- RACE_MODE. -/
def execRaceMode (mode : BitVec 2) (s : State) : Host.Outcome State Fault Refusal :=
  s.commit (fun s => s.raceWrite mode.toNat)

/-- RACE_LANES_ALIGNED (R601, R610). -/
def execRaceLanesAligned (aligned : Bool) (s : State) : Host.Outcome State Fault Refusal :=
  s.commit (fun s =>
    if s.raceMode == 0 then s else s.setFld .RACE_STATUS F.RACE_STATUS_LSTATE (if aligned then 2 else 1))

/-- The tailrace may send: TRACE on every field, or MAKER (R602). -/
def State.raceAllowed (s : State) : Bool := s.lifecycle == 0 || (List.range 16).all (fun f => s.capOn Cap.TRACE f)

/-- TRACE_PACKET_SEND (R601, R602). -/
def execTracePacketSend (count : Nat) (s : State) : Host.Outcome State Fault Refusal :=
  s.commit (fun s =>
    if s.raceMode != 1 || s.fld .RACE_STATUS F.RACE_STATUS_LSTATE != 2 || s.fld .TR_CTRL F.TR_CTRL_DRAIN == 0 then s
    else if !s.raceAllowed then s.setFld .OBS_STATUS F.OBS_STATUS_REFUSED 1
    else
      let held := s.fld .TR_COUNT F.TR_COUNT_VALUE
      let n := min (min count 32) held
      if n == 0 then s
      else
        let head := s.fld .TR_HEAD F.TR_HEAD_VALUE
        let base := s.fld .TR_BASE F.TR_BASE_REGION * 2 ^ 21
        let payload := (List.range n).flatMap (fun i => s.rdBytes (base + 32 * ((head + i) % s.ringSize)) 32)
        let packet := leBytes 1 1 ++ leBytes 1 0 ++ leBytes 2 (32 * n) ++ leBytes 2 0 ++
          leBytes 2 (s.chipId + 512 * s.fld .TB_CHIP F.TB_CHIP_SIDE) ++ leBytes 8 ((s.rd .TR_TOTAL).toNat - held) ++ payload
        let s := s.emit (.race (packet ++ leBytes 4 (crc32 packet)))
        (s.setFld .TR_HEAD F.TR_HEAD_VALUE ((head + n) % s.ringSize)).setFld .TR_COUNT F.TR_COUNT_VALUE (held - n))

def State.stream (s : State) (n : Fin 16) : Stream := s.obs.streams[n.val]'(n.isLt)

def State.updStream (s : State) (n : Fin 16) (f : Stream → Stream) : State :=
  { s with obs := { s.obs with streams := s.obs.streams.set n.val (f (s.stream n)) n.isLt } }

/-- Bytes that the arrival buffer holds (R603). -/
def State.arrivalBytes (s : State) : Nat :=
  s.obs.streams.toList.foldl (fun a x =>
    a + (match x.part with
      | some f => f.bytes.length
      | none => 0) + (x.ready.map (fun f => f.bytes.length)).foldl (· + ·) 0) 0

/-- A frame is discarded (R603, R607). -/
def State.frameError (s : State) (n : Fin 16) : State :=
  let s := s.updStream n (fun x => { x with part := none, bad := true })
  ((s.setFld .RACE_STATUS F.RACE_STATUS_FRAME_ERR 1).countUp .HR_ERRORS F.HR_ERRORS_COUNT).wmEvent 147 [] none

/-- The bytes of a frame grow by a packet; the last packet completes it or shows that its length is wrong. -/
def State.framePart (s : State) (n : Fin 16) (f : Frame) (p : FramePacket) : State :=
  let f := { f with bytes := f.bytes ++ p.payload, time := s.timestamp }
  let size := s.fld (.HR_SLEN n.val) F.HR_SLEN_LINES * 256
  if !p.last then s.updStream n (fun x => { x with part := some f })
  else if f.bytes.length == size then s.updStream n (fun x => { x with part := none, ready := x.ready ++ [f] })
  else s.frameError n

/-- FRAME_PACKET (R601, R603). -/
def execFramePacket (p : FramePacket) (s : State) : Host.Outcome State Fault Refusal :=
  s.commit (fun s =>
    let n := p.stream
    let x := s.stream n
    if s.raceMode != 2 || s.fld .RACE_STATUS F.RACE_STATUS_LSTATE != 2 ||
        s.fld (.HR_SCFG n.val) F.HR_SCFG_ENABLE == 0 then s
    else if !p.crcOk then (if x.bad then s else s.frameError n)
    else if p.first then
      let s := if x.part.isSome then s.frameError n else s
      let s := s.updStream n (fun x => { x with part := none, bad := false })
      if p.offset != 0 then s.frameError n
      else if 4 * 2 ^ 20 < s.arrivalBytes + p.payload.length then
        (s.frameError n).setFld .RACE_STATUS F.RACE_STATUS_OVERRUN 1
      else s.framePart n { number := p.frame, bytes := [], time := 0 } p
    else
      match x.part with
      | none => if x.bad then s else s.frameError n
      | some f =>
        if p.offset != f.bytes.length || p.frame != f.number then s.frameError n
        else if 4 * 2 ^ 20 < s.arrivalBytes + p.payload.length then
          (s.frameError n).setFld .RACE_STATUS F.RACE_STATUS_OVERRUN 1
        else s.framePart n f p)

/-- The slots of a stream in the headrace map (R605). -/
def State.hrSlots (s : State) (n : Fin 16) : List Nat :=
  (List.range 360).filter (fun i =>
    let e := (Assoc.get? s.obs.hrMap i).getD 0
    e.getLsbD 15 && e.toNat % 16 == n.val)

/-- Index of the current turn (R221). -/
def State.turnIndex (s : State) : Nat := (s.turnNo - s.rot.start).toNat % (s.fld .ROT_PERIOD F.ROT_PERIOD_PERIOD_M1 + 1)

/-- An error of a delivery is counted (R607). -/
def State.deliveryError (s : State) : State := (s.countUp .HR_ERRORS F.HR_ERRORS_COUNT).wmEvent 147 [] none

/-- HEADRACE_DELIVERY_START (R605, R607): at the stream's first slot of a start turn. -/
def execHeadraceDeliveryStart (stream : Fin 16) (s : State) : Host.Outcome State Fault Refusal :=
  s.commit (fun s =>
    let n := stream.val
    let x := s.stream stream
    let starts := (List.range (s.fld (.HR_SCFG n) F.HR_SCFG_NSTART_M1 + 1)).map (fun j => s.fld (.HR_SSTART n j) F.HR_SSTART_INDEX)
    match s.hrSlots stream with
    | [] => s
    | first :: _ =>
      if s.raceMode != 2 || !s.rotRunning || s.fld (.HR_SCFG n) F.HR_SCFG_ENABLE == 0 ||
          !starts.contains s.turnIndex || x.started == some s.turnNo then s
      else
        let s := s.advanceTo (5 * first)
        let s := if x.delivery.isSome then s.deliveryError else s
        let s := if x.ready.isEmpty then (s.countUp .HR_MISSING F.HR_MISSING_COUNT).wmEvent 147 [] none else s
        s.updStream stream (fun x =>
          { x with
            ready := x.ready.drop 1, count := x.count + 1, started := some s.turnNo
            delivery := some { number := x.count, frame := x.ready.head?, next := 0, turn := s.turnNo } }))

/-- The status line of a delivery (R606). -/
def Delivery.status (d : Delivery) : List Byte :=
  let (number, st, time) := match d.frame with
    | some f => (f.number.toNat, 0, f.time.toNat)
    | none => (0, 1, 0)
  leBytes 4 d.number ++ leBytes 2 number ++ leBytes 1 st ++ leBytes 1 0 ++ leBytes 8 time ++ leBytes 8 d.turn.toNat ++
    leBytes 232 0

/-- A headrace flit is performed in its slab (R36, R291, R605, R607). -/
def State.headraceWrite (s : State) (t : TileId) (off : Nat) (ctx : Byte) (bytes : List Byte) : State :=
  let a := slabAddr t off
  if slabSize ≤ off then s.deliveryError
  else if !s.schedMode t then (s.wmEvent 9 [ctx] (some t.val)).deliveryError
  else if !s.slabOwned t ctx off then (s.ownerRefusal ctx a none).deliveryError
  else (s.storeCells (bytes.mapIdx (fun i b => (a + i, b)))).1

/-- HEADRACE_FLIT (R605): the delivery's next slot. A MISSING delivery leaves its data slots empty. -/
def execHeadraceFlit (stream : Fin 16) (s : State) : Host.Outcome State Fault Refusal :=
  s.commit (fun s =>
    let n := stream.val
    match (s.stream stream).delivery with
    | none => s
    | some d =>
      let slots := s.hrSlots stream
      let turn := d.turn.toNat + d.next / max 1 slots.length
      if s.raceMode != 2 || slots.isEmpty || s.turnNo.toNat < turn then s
      else
        let s := if s.turnNo.toNat == turn then s.advanceTo (5 * slots.getD (d.next % slots.length) 0) else s
        let lines := s.fld (.HR_SLEN n) F.HR_SLEN_LINES
        let tile := s.fld (.HR_SCFG n) F.HR_SCFG_TILE
        let ctx : Byte := BitVec.ofNat 8 (s.fld (.HR_SCFG n) F.HR_SCFG_CTX)
        let buf := s.fld (.HR_SBASE n) F.HR_SBASE_LINE * 256 +
          d.number % (s.fld (.HR_SCFG n) F.HR_SCFG_NBUF_M1 + 1) * (lines + 1) * 256
        let put (s : State) (off : Nat) (bytes : List Byte) : State :=
          if h : tile < 48 then s.headraceWrite ⟨tile, h⟩ off ctx bytes else s.deliveryError
        if d.next < lines then
          let s := match d.frame with
            | some f => put s (buf + 256 + 256 * d.next) ((f.bytes.drop (256 * d.next)).take 256)
            | none => s
          s.updStream stream (fun x => { x with delivery := some { d with next := d.next + 1 } })
        else
          let s := put s buf d.status
          let s := s.updStream stream (fun x => { x with delivery := none })
          if d.frame.isSome then s.countUp .HR_FRAMES F.HR_FRAMES_COUNT else s)

/-- A write of HR_MAPDATA (R605, R610). -/
def State.hrMapWrite (s : State) (v : Word32) : State :=
  if s.fld .ROT_STATUS F.ROT_STATUS_STATE != 0 then s.setFld .RACE_STATUS F.RACE_STATUS_MAP_WERR 1
  else
    let i := s.fld .HR_MAPADDR F.HR_MAPADDR_SLOT
    let s := if i < 360 then
        { s with obs := { s.obs with hrMap := Assoc.put id 0 s.obs.hrMap i ((v &&& 0x800F).setWidth 16) } }
      else s
    if s.fld .HR_MAPADDR F.HR_MAPADDR_AUTOINC == 1 then
      s.setFld .HR_MAPADDR F.HR_MAPADDR_SLOT (if 359 ≤ i then 0 else i + 1)
    else s

/-- HR_MAPDATA_WRITE. -/
def execHrMapdataWrite (v : Word32) (s : State) : Host.Outcome State Fault Refusal := s.commit (fun s => s.hrMapWrite v)

end Sys2Proof.Machine
end

