-- ==== Sys2Proof/Machine/ConfigSpace.lean ====
section
/-! DEFINITION. What configuration space shows (R406 to R410): the identity of a function, its capabilities, the CXL Devices
DVSEC and the Horpigen DVSEC. CONFIG_WRITE changes what it holds. -/

namespace Sys2Proof.Machine

/-- A capability of configuration space (R407). -/
inductive Capability where
  | powerManagement | pciExpress | msix | aer | ari | sriov | serialNumber | linkLayers | doe | ide
  | cxlDevices | nonCxlMap | flexBusPort | registerLocator | horpigen | ats | pri | pasid
deriving DecidableEq, Repr

/-- Whether a function has a capability (R407). -/
def hasCapability (f : FunctionId) (c : Capability) : Bool :=
  match f, c with
  | _, .powerManagement => true
  | _, .pciExpress => true
  | .companion, .msix => false
  | _, .msix => true
  | .companion, .ari => false
  | _, .ari => true
  | .pf0, .sriov => true
  | _, .sriov => false
  | .pf0, .nonCxlMap => true
  | _, .nonCxlMap => false
  | _, .ats => false
  | _, .pri => false
  | _, .pasid => false
  | .vf _, _ => false
  | _, _ => true

/-- A field of configuration space that R406 to R409 give a value, or that CONFIG_WRITE changes. -/
inductive ConfigField where
  | vendorId | deviceId | revisionId | classCode | subsystem | serialNumber
  | vfDeviceId | totalVfs | initialVfs | firstVfOffset | vfStride | numVfs | vfEnable
  | memorySpace | busMaster | msixEnable | msixFunctionMask | msixVectors | pmeEn | pmeStatus | d3hot | completionTimeout
  | cacheCapable | ioCapable | memCapable | memHwInitMode | hdmCount | cacheWritebackInvalidateCapable | cxlResetCapable
  | viralCapable | multipleLogicalDevice | cacheSizeUnit | cacheSize | cacheEnable | cacheInvalid | viralStatus
  | rangeSize (i : Fin 2) | memoryInfoValid (i : Fin 2) | memoryActive (i : Fin 2)
  | horpigen (word : Fin 2)
  | bar (i : Fin 3)
deriving DecidableEq, Repr

/-- A field of the CXL Devices DVSEC (R408), sizes in bytes. -/
def State.cxlField (s : State) (x : Func) : ConfigField → Option Nat
  | .cacheCapable => some 1
  | .ioCapable => some 1
  | .memCapable => some 1
  | .memHwInitMode => some 0
  | .hdmCount => some 1
  | .cacheWritebackInvalidateCapable => some 1
  | .cxlResetCapable => some 0
  | .viralCapable => some 1
  | .multipleLogicalDevice => some 0
  | .cacheSizeUnit => some 0x10000
  | .cacheSize => some 16
  | .cacheEnable => some (if x.cacheEnable then 1 else 0)
  | .cacheInvalid => some (if x.cacheInvalid then 1 else 0)
  | .viralStatus => some (if x.viralStatus then 1 else 0)
  | .rangeSize i => some (if i = 0 then 0x1000000000 else 0)
  | .memoryInfoValid i => if i = 0 then some 1 else none
  | .memoryActive i => if i = 0 then some (s.fld .CUL_CTRL F.CUL_CTRL_ENABLE) else none
  | _ => none

/-- A word of the Horpigen DVSEC body at a host port (R409). -/
def State.horpigenWord (s : State) (port : HostPortId) (word : Fin 2) : Word32 :=
  if word = 0 then BitVec.ofNat 32 (port.val + 2 * s.fld .TB_CHIP F.TB_CHIP_SIDE + 2 ^ 16 * s.chipId)
  else (s.rd .ID_BLOCK).setWidth 32

/-- What a read of a field of configuration space returns; none where the function has no such field. -/
def State.configRead (s : State) (f : FunctionId) (r : ConfigField) : Option Nat :=
  let x := s.func f
  let vf := match f with
    | .vf _ => true
    | _ => false
  let pf0 := f == .pf0
  let bit (b : Bool) : Option Nat := some (if b then 1 else 0)
  match r with
  | .vendorId => some (if vf then 0xFFFF else 0x1F3C)
  | .deviceId => some (if vf then 0xFFFF else if pf0 then 0xAC21 else 0xAC23)
  | .revisionId => some 0x10
  | .classCode => some 0x120000
  | .subsystem => some (s.rd .HF_SUBSYS).toNat
  | .serialNumber => if vf then none else some Config.dieSerial.toNat
  | .vfDeviceId => if pf0 then some 0xAC22 else none
  | .totalVfs => if pf0 then some 63 else none
  | .initialVfs => if pf0 then some 63 else none
  | .firstVfOffset => if pf0 then some 1 else none
  | .vfStride => if pf0 then some 1 else none
  | .numVfs => if pf0 then some x.numVfs else none
  | .vfEnable => if pf0 then bit x.vfEnable else none
  | .memorySpace => bit x.memSpace
  | .busMaster => bit x.busMaster
  | .msixEnable => if f == .companion then none else bit x.msixEnable
  | .msixFunctionMask => if f == .companion then none else bit x.msixMask
  | .msixVectors => if f == .companion then none else some (if vf then 32 else 2048)
  | .pmeEn => if pf0 then bit x.pmeEn else none
  | .pmeStatus => if pf0 then bit x.pmeStatus else none
  | .d3hot => bit x.d3
  | .completionTimeout => some x.cplTimeout.toNat
  | .horpigen w => if vf then none else some (s.horpigenWord (if pf0 then 0 else 1) w).toNat
  | .bar i => if f == .companion && i != 0 then none else some (x.bars[i.val]'(i.isLt)).toNat
  | _ => if vf then none else s.cxlField x r

/-- The size of a BAR in bytes (R410). -/
def barSize (f : FunctionId) (i : Fin 3) : Option Nat :=
  match f, i.val with
  | .pf0, 0 => some 0x4000000
  | .pf0, 1 => some 0x800000
  | .pf0, _ => some 0x400000000
  | .vf _, 0 => some 0x10000
  | .vf _, 1 => some 0x40000
  | .companion, 0 => some 0x10000
  | _, _ => none

end Sys2Proof.Machine
end

