-- ==== Sys2Proof/Machine/Turns.lean ====
section
/-! DEFINITION. Turns of the timebase and what every unit does in cycle 0 of one (R217 to R223, R235, R239 to R243, R258), the
appended cycles (R32), the epoch (R235), and the shadow copy of a sequencer (R536). -/

namespace Sys2Proof.Machine

/-! ### Stretching (R240 to R243, R559) -/

/-- The request that cycle 0 takes: the larger of the manager's and the floor, at most 40; 40 when its parity fails. -/
def State.sampleRequest (s : State) (request : Nat) (parityOk : Bool) : State × Nat :=
  let s := s.setFld .PW_STRETCH F.PW_STRETCH_MGR request
  if !parityOk then ((s.setFld .PW_STRETCH F.PW_STRETCH_IF_ERR 1).wmEvent 143 [] none, 40)
  else
    let s := if 40 < request then (s.setFld .ROT_STATUS F.ROT_STATUS_CLIPPED 1).wmEvent 131 [] none else s
    (s, max (min 40 request) (min 40 (s.fld .PW_STRETCH F.PW_STRETCH_FLOOR)))

/-- M[E] of the coming turn is applied, and the sampled request enters M[T + 8]. -/
def State.stretchTurn (s : State) (request : Nat) (parityOk : Bool) : State :=
  let (s, r) := s.sampleRequest request parityOk
  let m := s.rot.m
  let s := { s with rot := { s.rot with m := m.set 8 (max m[8] r) } }
  (s.setFld .ROT_STATUS F.ROT_STATUS_STRETCH m[0]).setFld .ROT_STATUS F.ROT_STATUS_REQUEST r

/-! ### The rotation and its links (R222, R223, R239, R258) -/

/-- The page schedule of a link at a turn index. -/
def Link.page (x : Link) (index last : Nat) : Link :=
  let turns := bitsOf ((Assoc.get? x.sched x.entry).getD 0) 19 0 + 1
  if index == 0 then { x with entry := 0, entryTurns := 1 }
  else if turns ≤ x.entryTurns && x.entry < last then { x with entry := x.entry + 1, entryTurns := 1 }
  else { x with entryTurns := x.entryTurns + 1 }

/-- A rotation starts or stops in cycle 0 of its latched turn, and a running one turns its pages. -/
def State.rotationTurn (s : State) : State :=
  let s :=
    if s.rotState == 1 && s.turnNo == s.rot.start then s.setFld .ROT_STATUS F.ROT_STATUS_STATE 2
    else if s.rotState == 2 && s.rot.stop == some s.turnNo then s.rotIdle
    else s
  if s.rotRunning then
    let i := s.turnIndex
    (List.finRange 36).foldl (fun s l =>
      s.updLink l (fun x => x.page i (s.fld (.CN_SCHEDLEN l.val) F.CN_SCHEDLEN_LAST))) s
  else s

/-- Every ping counts the turn (R234), and the side with the lower pair starts a repeated ping of a link (R239). -/
def State.pingTurn (s : State) : State :=
  let s := (List.finRange 36).foldl (fun s l => s.updPing l (fun p => { p with waited := p.waited + 1 })) s
  if s.rotRunning && s.turnNo.toNat % 1024 == 0 then
    (List.finRange 36).foldl (fun s l =>
      let p := (s.link l).ping
      let farPair := (if p.farSide then 512 else 0) + p.farChip.toNat
      if s.fld (.LK_PING l.val) F.LK_PING_LAT_VALID == 1 && !p.busy && s.sidePair < farPair then
        s.pingStart l false true
      else s) s
  else s

/-! ### Cycle 0 -/

/-- What the sequencer of a tile does at a turn boundary (R184, R186, R187). DESIGN CHOICE (log 118): the MARK-gap count stands
still while MARK_GAP is 0 or the sequencer is not RUNNING, and a START clears it. -/
def State.seqTurn (s : State) (t : TileId) : State :=
  let x := s.tile t
  let counts := s.seqState t == Seq.RUNNING && s.fld (.SQ_CTRL t.val) F.SQ_CTRL_MARK_GAP != 0
  let s := s.setTile t { x with
    delayLeft := x.delayLeft - 1800
    markGap := if counts then x.markGap + 1 else x.markGap
    lateMark := false }
  if x.lateMark then s.wmEvent 0 [] (some t.val) else s

/-- Everything that acts in cycle 0 of the turn that has begun. -/
def State.turnBegin (s : State) (request : Nat) (parityOk : Bool) : State :=
  let s := (List.finRange 48).foldl (fun s t => s.seqTurn t) s
  let s := s.stretchTurn request parityOk
  let s := (List.range 32).foldl (fun s n => s.wr (.RSV_WEIR_COUNT n) 0) s
  let s := s.updHome (fun h => { h with taken := [] })
  s.rotationTurn.homePump.pingTurn.twinTurn.engineTurn.haltTurn

/-- FCLK of the running turn (R217). -/
def State.turnLength (s : State) : Nat := 1800 + 45 * s.fld .ROT_STATUS F.ROT_STATUS_STRETCH

/-- TURN_START: the running turn ends and the next one begins. -/
def execTurnStart (request : BitVec 6) (parityOk : Bool) (s : State) : Host.Outcome State Fault Refusal :=
  s.commit (fun s =>
    let s := s.wr .TB_RAW (s.rd .TB_RAW + BitVec.ofNat 64 (s.turnLength - s.cycle))
    let s := (s.wr .TB_TURN (s.turnNo + 1)).setFld .TB_CYCLE F.TB_CYCLE_CYCLE 0
    let m := s.rot.m
    let s := { s with rot := { s.rot with m := Vector.ofFn (fun (i : Fin 9) => if h : i.val < 8 then m[i.val + 1] else 0) } }
    s.turnBegin request.toNat parityOk)

/-- APPENDED_CYCLES_START (R32): cycle 1,800 of a stretched turn. -/
def execAppendedCyclesStart (s : State) : Host.Outcome State Fault Refusal :=
  s.commit (fun s => if s.fld .ROT_STATUS F.ROT_STATUS_STRETCH == 0 then s else s.advanceTo 1800)

/-- EPOCH (R218, R235, R243): corrected time reaches the armed epoch, and turn 0 begins. -/
def execEpoch (s : State) : Host.Outcome State Fault Refusal :=
  s.commit (fun s =>
    if s.fld .ROT_STATUS F.ROT_STATUS_EPOCH_PEND == 0 || (s.rd .TB_EPOCH).toNat < s.corrected.toNat then s
    else
      let s := s.wr .TB_RAW (s.rd .TB_EPOCH - s.rd .TB_OFFSET)
      let s := { s with rot := { s.rot with epoch := s.rd .TB_EPOCH } }
      let s := (s.wr .TB_TURN 0).setFld .TB_CYCLE F.TB_CYCLE_CYCLE 0
      let s := (s.setFld .ROT_STATUS F.ROT_STATUS_EPOCH_VALID 1).setFld .ROT_STATUS F.ROT_STATUS_EPOCH_PEND 0
      let s := { s with rot := { s.rot with m := Vector.ofFn (fun (i : Fin 9) => if i.val < 8 then 40 else 0) } }
      s.turnBegin (s.fld .PW_STRETCH F.PW_STRETCH_MGR) true)

/-- SEQ_LOCKSTEP_MISMATCH (R536): a running sequencer and its shadow disagree. -/
def execSeqLockstepMismatch (t : TileId) (s : State) : Host.Outcome State Fault Refusal :=
  s.commit (fun s =>
    if s.seqState t == Seq.RUNNING then
      ((s.setWait t none).setSeqState t Seq.FAULTED).wmEvent 13 [] (some t.val)
    else s)

end Sys2Proof.Machine
end

