-- ==== Sys2Proof/Machine/RegBus.lean ====
section
/-! DEFINITION. The register bus: what a read of a register shows (R10 to R15), what a write does (R10, R11, R16 to R18), who may
write (R411 to R414, R490, R507), and the sequencer's CSRR and CSRW (R174, R190). -/

namespace Sys2Proof.Machine

/-! ### Reads -/

/-- TA_STATUS (R101). -/
def State.viewTensor (s : State) (t : TileId) : Word64 :=
  let ta := (s.tile t).ta
  BitVec.ofNat 64 (min 8 ta.mq.length * 2 ^ 20 + min 8 ta.tq.length * 2 ^ 16 + (if ta.clearing then 4 else 0) +
    (if ta.tqStarted then 2 else 0) + (if !ta.mq.isEmpty && !ta.clearing then 1 else 0))

/-- VC_STATUS (R151). -/
def State.viewCore (s : State) (t : TileId) (v : CoreId) : Word64 :=
  let c := s.core t v
  let n := (c.groups.toList.filter (fun g => g.isSome)).length
  let a := (c.active.toList.filter (fun g => g.isSome)).length
  let b := (c.blocks.toList.filter (fun g => g.isSome)).length
  (s.rd (.VC_STATUS t.val v.val) &&& 0x20000000) |||
    BitVec.ofNat 64 ((if n == 0 then 0 else 2 ^ 28) + n * 2 ^ 16 + a * 2 ^ 8 + b)

/-- An entry of a CN_MAPDATA read whose tile does not exist cannot occur: t and v are checked here. -/
def State.viewAt (s : State) (r : Reg) : Word64 :=
  match r with
  | .TA_STATUS t => if h : t < 48 then s.viewTensor ⟨t, h⟩ else 0
  | .VC_STATUS t v => if h : t < 48 ∧ v < 4 then s.viewCore ⟨t, h.1⟩ ⟨v, h.2⟩ else 0
  | .CN_MAPDATA l => if h : l < 36 then (s.cnMapRead ⟨l, h⟩).setWidth 64 else 0
  | _ => s.rd r

/-- Open transactions and waiting requests of a slice (R378). -/
def State.viewDir (s : State) (n : Nat) : Word64 :=
  let o := (s.home.txns.filter (fun x => (homeSlice x.line).val == n)).length
  let w := (s.home.retry.filter (fun m => (homeSlice (localOf m.line)).val == n)).length
  (s.rd (.DIR_STATUS n) &&& 1) ||| BitVec.ofNat 64 (min 255 w * 2 ^ 16 + min 511 o * 2 ^ 7)

/-- What a register reads as: its stored word, or what its unit holds. -/
def State.view (s : State) (r : Reg) : Word64 :=
  match r with
  | .TB_TIME => s.timestamp
  | .PW_STRETCH =>
    F.PW_STRETCH_EFFECTIVE.set (s.rd r) (max (s.fld r F.PW_STRETCH_MGR) (min 40 (s.fld r F.PW_STRETCH_FLOOR)))
  | .WM_PEND k =>
    BitVec.ofNat 64 ((List.range 32).foldl (fun a i => a + s.src (32 * k + i) F.WM_SRC_STATUS * 2 ^ i) 0)
  | .DIR_STATUS n => s.viewDir n
  | .DIR_LOSTCNT n =>
    BitVec.ofNat 64 (s.home.dir.filter (fun e => e.state == .lost && (homeSlice e.line).val == n)).length
  | .TW_STATUS =>
    (s.rd r &&& 7) ||| BitVec.ofNat 64 ((if s.twinActive then 2 ^ 31 else 0) + min (2 ^ 15 - 1) s.twin.rb.length * 2 ^ 15)
  | .HR_ENTRY k =>
    if s.fld .HR_COUNT F.HR_COUNT_VALUE == 0 then 0 else BitVec.ofNat 64 (s.rdNat (s.fld .HR_BASE F.HR_BASE_REGION * 2 ^ 21 + 32 * s.fld .HR_HEAD F.HR_HEAD_VALUE + 8 * k) 8)
  | .HR_MAPDATA => ((Assoc.get? s.obs.hrMap (s.fld .HR_MAPADDR F.HR_MAPADDR_SLOT)).getD 0).setWidth 64
  | .CTX_ENTRY1 0 => F.CTX_ENTRY1_KEYSLOT.set (s.rd r ||| 0x80000000) (s.fld .LV_CTRL F.LV_CTRL_KEY0)
  | _ => s.viewAt r

/-- A counter as the register bus shows it (R565, R571). -/
def State.viewCounter (s : State) (off : Nat) : Word64 := if s.gatedCount off then 0 else s.counter off

/-- A counter lies at an offset (R567, R568, R570). -/
def isCounter (off : Nat) : Bool :=
  (0x1D1000 ≤ off && off < 0x1D2800) || (0x1D2800 ≤ off && off < 0x1D2F40) || (0x1D4000 ≤ off && off < 0x1D5000)

/-- A word of a function's MSI-X table: the mask bit of an entry is bit 0 of its last word, whose other bits are 0 (R407). -/
def Func.tableWord (x : Func) (off : Nat) : Word32 :=
  if off % 16 == 12 then (if x.unmasked.contains (off / 16) then 0 else 1) else (Assoc.get? x.table (off / 4 * 4)).getD 0

/-- A word of a function's pending-bit array. -/
def Func.pendWord (x : Func) (k : Nat) : Word32 :=
  BitVec.ofNat 32 ((List.range 32).foldl (fun a i => if x.pend.contains (32 * k + i) then a + 2 ^ i else a) 0)

/-- The 32-bit word at an aligned offset of PF0's BAR0 (R7, R425); unoccupied offsets read 0 (R14). -/
def State.busRead4 (s : State) (off : Nat) : Word32 :=
  if 0x70000 ≤ off && off < 0x78000 then s.pf0.tableWord (off - 0x70000)
  else if 0x78000 ≤ off && off < 0x78100 then s.pf0.pendWord ((off - 0x78000) / 4)
  else if isCounter (off / 8 * 8) then (s.viewCounter (off / 8 * 8) >>> (off % 8 * 8)).setWidth 32
  else
    match Reg.atOffset off with
    | some (r, d) => (s.view r >>> (d * 8)).setWidth 32
    | none => 0

/-- What an aligned read of 8 bytes returns: one 64-bit register (R15), or two 32-bit words. -/
def State.busRead8 (s : State) (off : Nat) : Word64 := (s.busRead4 (off + 4)) ++ (s.busRead4 off)

/-- The 32-bit word at an aligned offset of VF k's BAR0 (R411). -/
def State.vfRead4 (s : State) (k : Fin 64) (off : Nat) : Word32 :=
  let x := s.vfs[k.val]'(k.isLt)
  if off < 0x10 then s.busRead4 off
  else if off == 0x100 then (if s.vfRevoked k then 1 else 0)
  else if 0x1000 ≤ off && off < 0x1200 then x.tableWord (off - 0x1000)
  else if off == 0x1800 then x.pendWord 0
  else 0

/-- Whether a requester's memory accesses reach its BAR0 at all (R412, R413). -/
def State.reaches (s : State) (by_ : Requester) : Bool :=
  match by_ with
  | .pf0 => s.funcOpen .pf0
  | .vf k => s.funcOpen (.vf k)
  | _ => true

/-- IDE keeps a requester's memory accesses from the block (R436). -/
def State.ideKeepsOut (s : State) (by_ : Requester) : Bool :=
  match by_ with
  | .pf0 | .vf _ => s.ideBars 0
  | _ => false

/-- What a read of the register bus returns; none is Unsupported Request (R13, R412). -/
def State.busRead (s : State) (by_ : Requester) (off size : Nat) : Option Word64 :=
  if !((size == 4 || size == 8) && off % size == 0) || !s.reaches by_ || s.ideKeepsOut by_ then none
  else
    match by_ with
    | .vf k => some (if size == 8 then s.vfRead4 k (off + 4) ++ s.vfRead4 k off else (s.vfRead4 k off).setWidth 64)
    | _ => some (if size == 8 then s.busRead8 off else (s.busRead4 off).setWidth 64)

/-- What a debugger reads at an offset of the register bus (R502, R503): a tile's window needs INSPECT on the tile's field. -/
def State.debugRead (s : State) (off : Nat) : Option Word32 :=
  if 0x100000 ≤ off && off < 0x1C0000 && !s.capOn Cap.INSPECT (s.leveeNibble .LV_TILE ((off - 0x100000) / 0x4000)) then none
  else some (s.busRead4 off)

/-- The field of the memory at a local address (R492). -/
def State.memField (s : State) (a : Nat) : Nat :=
  match placeOf a, ownerIndex a with
  | .slab t _, _ => s.leveeNibble .LV_TILE t.val
  | _, some e => s.regionField e
  | _, none => 15

/-- A byte that a debugger reads through context 0 (R502, R503). -/
def State.debugByte (s : State) (a : Nat) : Option Byte :=
  if s.capOn Cap.INSPECT (s.memField a) then some (s.rdByte a) else none

/-- The state after a read of the register bus: a read of CN_MAPDATA advances its index (R274). -/
def State.busReadNext (s : State) (by_ : Requester) (off size : Nat) : State :=
  if (s.busRead by_ off size).isNone then s
  else
    match by_ with
    | .vf _ => s
    | _ =>
      match Reg.atOffset off, (if size == 8 then Reg.atOffset (off + 4) else none) with
      | some (.CN_MAPDATA l, _), _ => if h : l < 36 then s.mapAdvance ⟨l, h⟩ else s
      | _, some (.CN_MAPDATA l, _) => if h : l < 36 then s.mapAdvance ⟨l, h⟩ else s
      | _, _ => s

/-! ### Writes by field type -/

/-- The word after a write of bits v under a mask: each field by its type (R10, R11). -/
def Reg.plain (r : Reg) (levee : Bool) (old v mask : Word64) : Word64 :=
  r.fields.foldl (fun w x =>
    let k := x.2.mask &&& mask
    match x.1 with
    | .rw => (w &&& ~~~k) ||| (v &&& k)
    | .w1c => w &&& ~~~(v &&& k)
    | .rwl => if levee then (w &&& ~~~k) ||| (v &&& k) else w
    | _ => w) old

/-- The bits of a register that software clears by writing 1. -/
def Reg.clears (r : Reg) : Word64 := r.fields.foldl (fun w x => if x.1 == .w1c then w ||| x.2.mask else w) 0

/-- Status bits whose cause is still present: a link or a group that is down, a tier-2 group or an engine that is lost, a viral
or failed group, a home slice that holds requests, a clock that is down (R18). -/
def State.causeBits (s : State) (r : Reg) : Word64 :=
  let bit (b : Bool) (i : Nat) : Word64 := if b then BitVec.ofNat 64 (2 ^ i) else 0
  match r with
  | .CN_STATUS l => bit (s.fld (.CN_STATUS l) F.CN_STATUS_LSTATE == 3) 0
  | .T2_STATUS g => bit (s.fld (.T2_STATUS g) F.T2_STATUS_STATE == 2) 0
  | .PG_STATUS g => bit (!s.groupUp g) 0 ||| bit (s.fld (.PG_STATUS g) F.PG_STATUS_VIRAL_TX == 1 || s.fld (.PG_STATUS g) F.PG_STATUS_VIRAL_RX == 1) 1 |||
      bit (s.fld (.PG_STATUS g) F.PG_STATUS_IDE == 3) 2
  | .ES_STATUS e => bit (s.fld (.ES_STATUS e) F.ES_STATUS_STATE == 4) 1
  | .RSV_STATUS n => bit (s.home.held.any (fun m =>
      (homeSlice (localOf m.line)).val == n && s.weirHolds (homeSlice (localOf m.line)) m)) 3
  | .RST_CAUSE => bit (s.rst.refDown || s.rst.rootDown) 12
  | _ => 0

/-- A write with no behaviour of its own: a status bit whose cause is still present stays set (R18). -/
def State.plain (s : State) (r : Reg) (levee : Bool) (v mask : Word64) : State :=
  s.wr r (r.plain levee (s.rd r) (v &&& ~~~(r.clears &&& s.causeBits r)) mask)

/-- A counter that a write with bit 0 set clears. -/
def State.clearOn (s : State) (r : Reg) (v : Word64) : State := if v.getLsbD 0 then s.wr r 0 else s

/-- A register that is released when the status bits of another are 0 (R10). -/
def State.release (s : State) (status : Reg) (mask : Word64) (r : Reg) : State :=
  if s.rd status &&& mask == 0 then s.wr r 0 else s

/-- The command that TR_CMD.OP names (R343). -/
def State.trOp (s : State) (op : Nat) : State :=
  match op with
  | 1 => s.ctxCreate
  | 2 => s.ctxDestroy
  | 3 => s.rebase
  | 4 => s.unmap
  | 5 => s.pin
  | 6 => s.unpin
  | 7 => s.own
  | _ => s.trCommand (fun s => s.trResult 2)

/-- The command that BIAS_CMD.OP names (R377). -/
def State.biasOp (s : State) (op : Nat) : State :=
  match op with
  | 1 => s.setDevice
  | 2 => s.lockCmd
  | 3 => s.unlockCmd
  | _ => if s.biasBusy then s.setFld .BIAS_STATUS F.BIAS_STATUS_RESULT 1 else s.biasResult 2

/-- Bindings of a slot after a write of ES_PASIDk (R472). -/
def State.pasidWrite (s : State) (e : EngineId) (k : Nat) (v mask : Word64) : State :=
  (List.range 32).foldl (fun s i =>
    if !mask.getLsbD i then s
    else
      let c : Byte := BitVec.ofNat 8 (32 * k + i)
      if v.getLsbD i then s.pasidBind e c else if s.bound e c then s.pasidUnbind e c else s) s

/-- A write of bits of RC_CTRL (R487, R507): L2SRAM stays 0 once it is. -/
def State.rcWrite (s : State) (v mask : Word64) : State :=
  let s := (List.finRange 8).foldl (fun s k =>
    if k.val < 2 || !mask.getLsbD k.val then s
    else if v.getLsbD k.val then s.runRelease k
    else s.runReset k) s
  if mask.getLsbD 0 && !v.getLsbD 0 then s.setBit .RC_CTRL 0 false else s

/-- A write of a source's register (R513, R515, R516). -/
def State.srcWrite (s : State) (n : Nat) (v mask : Word64) : State :=
  let s := if mask.getLsbD 30 then s.setSrc n F.WM_SRC_ENABLE (if v.getLsbD 30 then 1 else 0) else s
  let s := if mask.getLsbD 0 then s.severity n (v.toNat % 4) else s
  let s := if mask.getLsbD 29 then s.force n (v.getLsbD 29) else s
  if mask.getLsbD 31 && v.getLsbD 31 then s.statusClear n else s

/-! ### Writes by unit -/

/-- A write to a register of tile t. DESIGN CHOICE (log 118): a write of SQ_CTRL with START and STOP both 1 acts START first. -/
def State.tileWrite (s : State) (t : TileId) (r : Reg) (v mask : Word64) : State :=
  let x := v &&& mask
  if (s.tile t).inReset then s
  else
    match r with
    | .SQ_CTRL _ =>
      let s := s.plain r false v mask
      let s := if x.getLsbD 0 then s.seqStart t else s
      if x.getLsbD 1 then s.seqStop t else s
    | .SQ_STATUS _ => (s.plain r false v mask).release r 4 (.SQ_LATE t.val)
    | .SQ_SIG _ n => s.setSignal t n ((s.rd r &&& ~~~mask) ||| x)
    | .SL_CTRL _ c => if h : c < 8 then (if x.getLsbD 0 then s.chanAbort t ⟨c, h⟩ else s) else s
    | .SLAB_OWN _ u => s.slabOwnWrite t u (x.setWidth 32)
    | .SLAB_STATUS _ => (s.plain r false v mask).release r 6 (.SLAB_ERRADDR t.val)
    | .OBS_DP_CTRL _ =>
      let s := s.plain r false v mask
      if x.getLsbD 31 then s.dumpPoint t else s
    | .OBS_BP _ =>
      if x.getLsbD 31 && (s.twinActive || !s.capOn Cap.HALT (s.leveeNibble .LV_TILE t.val)) then s.debugRefused
      else s.plain r false v mask
    | _ => s.plain r false v mask

/-- A write to a register of canal link l. -/
def State.linkWrite (s : State) (l : LinkId) (r : Reg) (v mask : Word64) : State :=
  let x := v &&& mask
  match r with
  | .CN_CTRL _ =>
    let s := if mask.getLsbD 0 && v.getLsbD 0 != (s.fld r F.CN_CTRL_ENABLE == 1) then s.cnEnable l (v.getLsbD 0) else s
    if x.getLsbD 1 then s.retrain l else s
  | .CN_STATUS _ =>
    let s := s.plain r false v mask
    if s.fld r F.CN_STATUS_HALT_RX == 0 then s.setFld r F.CN_STATUS_HALT_CHIP 0 else s
  | .CN_MAPDATA _ => s.cnMapWrite l (x.setWidth 32)
  | _ => s.plain r false v mask

/-- A write to a register of engine slot e. -/
def State.slotWrite (s : State) (e : EngineId) (r : Reg) (levee : Bool) (v mask : Word64) : State :=
  let x := v &&& mask
  match r with
  | .ES_CTRL _ =>
    let s := if mask.getLsbD 3 then s.setFld r F.ES_CTRL_SCHED_REQ (if v.getLsbD 3 then 1 else 0) else s
    let s := if mask.getLsbD 4 && v.getLsbD 4 != (s.fld r F.ES_CTRL_HOLD == 1) then s.esHold e (v.getLsbD 4) else s
    let s := if mask.getLsbD 0 && v.getLsbD 0 != (s.fld r F.ES_CTRL_ENABLE == 1) then s.esEnable e (v.getLsbD 0) else s
    let s := if x.getLsbD 1 then s.esAdmitFree e else s
    if x.getLsbD 2 then s.esReset e else s
  | .ES_BIND _ => s.plain r levee v (if s.esState e == 3 then mask &&& 0x7FF else mask)
  | .ES_PASID _ k => s.pasidWrite e k v mask
  | .ES_MMIO_ADDR _ =>
    let s := s.plain r levee v mask
    if x.getLsbD 63 then s.mmioGo e else s
  | .ES_GRANT _ k => s.esGrantWrite e k (x.setWidth 32)
  | _ => s.plain r levee v mask

/-- A write to a register of headgate h or turnout entry h. -/
def State.headWrite (s : State) (h : HeadId) (r : Reg) (v mask : Word64) : State :=
  let x := v &&& mask
  let on := s.fld (.HG_CFG h.val) F.HG_CFG_ENABLE == 1
  match r with
  | .HG_CFG _ =>
    if on then (if mask.getLsbD 31 && !v.getLsbD 31 then s.hgDisable h else s)
    else
      let s := s.plain r false v (mask &&& 0x7FFFFFFF)
      if x.getLsbD 31 then s.hgEnable h else s
  | .HG_STATUS _ => s.plain r false v mask
  | _ => if on then s else s.plain r false v mask

/-- A write to a register of turnout entry e (R460). -/
def State.turnoutWrite (s : State) (e : Fin 256) (r : Reg) (v mask : Word64) : State :=
  match r with
  | .TO_CFG _ =>
    if s.toOn e.val then
      (if mask.getLsbD 31 && !v.getLsbD 31 then s.setFld r F.TO_CFG_ENABLE 0 else s)
    else
      let s := s.plain r false v (mask &&& 0x7FFFFFFF)
      if (v &&& mask).getLsbD 31 then s.toEnable e else s
  | _ => if s.toOn e.val then s else s.plain r false v mask

/-- A write to a register of the culvert or of bias and coherence (R377, R414, R417, R437). -/
def State.culvertWrite (s : State) (r : Reg) (manager levee : Bool) (v mask : Word64) : State :=
  let x := v &&& mask
  match r with
  | .CUL_CTRL =>
    if !manager then s
    else
      let on := s.fld r F.CUL_CTRL_ENABLE == 1
      let ctx : Byte := if mask.getLsbD 0 then v.setWidth 8 else BitVec.ofNat 8 (s.fld r F.CUL_CTRL_CTX)
      if on then (if mask.getLsbD 31 && !v.getLsbD 31 then s.culvertDisable else s)
      else if x.getLsbD 31 then s.culvertEnable ctx
      else s.setFld r F.CUL_CTRL_CTX ctx.toNat
  | .CUL_MOVE =>
    if !manager then s
    else
      let s := s.plain r levee v mask
      if x.getLsbD 63 then s.culvertMove else s
  | .CUL_STATUS => if manager then s.plain r levee v mask else s
  | .HF_WAKE => if x.getLsbD 0 then s.wake else s
  | .HP_REFUSE => s.clearOn r x
  | .HP_REFFIRST => if x.getLsbD 63 then s.wr r 0 else s
  | .COH_RECLAIM => if x.getLsbD 8 then s.reclaimStart (x.setWidth 8) else s.plain r levee v mask
  | .LL_BASE => if s.fld .LL_CTRL F.LL_CTRL_ENABLE == 1 then s else s.plain r levee v mask
  | .LL_CTRL =>
    let s := s.plain r levee v mask
    if x.getLsbD 31 then (s.wr .LL_TAIL 0).wr .LL_HEAD 0 else s
  | .LL_OVERFLOW => s.clearOn r x
  | .BIAS_CMD => s.biasOp (x.toNat % 16)
  | _ => s.plain r levee v mask

/-- A write to a register of home slice n. -/
def State.sliceWrite (s : State) (n : SliceId) (r : Reg) (v mask : Word64) : State :=
  let x := v &&& mask
  match r with
  | .RSV_STATUS _ => (s.plain r false v mask).release r 7 (.RSV_ERRADDR n.val)
  | .RSV_CECNT _ => s.clearOn r x
  | .DIR_STATUS _ => (s.plain r false v mask).release r 1 (.DIR_ERRADDR n.val)
  | .DIR_CECNT _ => s.clearOn r x
  | .DIR_STRAY _ => s.clearOn r x
  | .DIR_PROBE _ =>
    let w := r.plain false (s.rd r) v mask
    let set := F.DIR_PROBE_SET.get w
    let way := F.DIR_PROBE_WAY.get w
    if x.getLsbD 63 then s.nextLost n set way else s.probeRead n set way
  | _ => s.plain r false v mask

/-- A write to a register of the observation and race port unit (R610). -/
def State.obsRegWrite (s : State) (r : Reg) (v mask : Word64) : State :=
  let x := v &&& mask
  let idle := s.rotState == 0
  match r with
  | .OBS_CTRL =>
    let s := s.plain r false v mask
    if x.getLsbD 31 then s.countsClear else s
  | .OBS_HALT => if x.getLsbD 31 then s.haltGo else s
  | .OBS_RESUME => s.obsResume x
  | .SMP_BASE => if s.fld .SMP_CTRL F.SMP_CTRL_ENABLE == 1 then s else s.plain r false v mask
  | .TR_BASE => if s.fld .TR_CTRL F.TR_CTRL_ENABLE == 1 then s else s.plain r false v mask
  | .SMP_CTRL => s.smpCtrl x
  | .SMP_SKIP => s.clearOn r x
  | .TR_DROP => s.clearOn r x
  | .HR_FRAMES => s.clearOn r x
  | .HR_MISSING => s.clearOn r x
  | .HR_ERRORS => s.clearOn r x
  | .TR_CTRL => s.trCtrl x
  | .TR_HEAD => s.trHead (x.toNat % 2 ^ 26)
  | .TR_TRIG =>
    let s := s.plain r false v mask
    if x.getLsbD 30 then s.trigEvent 0 0 else s
  | .SNAP_CTRL => if x.getLsbD 31 then s.snapGo else s
  | .RACE_CTRL => s.raceWrite (x.toNat / 2 ^ 30 % 4)
  | .HR_MAPDATA => s.hrMapWrite (x.setWidth 32)
  | .HR_SCFG _ => if idle then s.plain r false v mask else s
  | .HR_SBASE _ => if idle then s.plain r false v mask else s
  | .HR_SLEN _ => if idle then s.plain r false v mask else s
  | .HR_SSTART _ _ => if idle then s.plain r false v mask else s
  | _ => s.plain r false v mask

/-- Unit resets that a write of a W1S field asks for (R552). -/
def State.resetBits (s : State) (r : Reg) (x : Word64) : State :=
  match r with
  | .RST_TILE => (List.finRange 48).foldl (fun s t =>
      if x.getLsbD t.val then s.unitReset (.tile t) (fun s => s.tileReset t) else s) s
  | .RST_LINK => (List.finRange 36).foldl (fun s l =>
      if x.getLsbD l.val then s.unitReset (.link l) (fun s => s.linkReset l) else s) s
  | _ =>
    let s := (List.finRange 16).foldl (fun s e =>
      if x.getLsbD e.val then s.unitReset (.slot e) (fun s => s.slotReset e) else s) s
    let s := (List.finRange 4).foldl (fun s g =>
      if x.getLsbD (16 + g.val) then s.unitReset (.tier2 g) (fun s => s.tier2Reset g) else s) s
    let s := if x.getLsbD 20 then s.unitReset .observation (fun s => s.obsReset) else s
    (List.finRange 2).foldl (fun s c => if x.getLsbD (21 + c.val) then s.riderReset c else s) s

/-- A write to a register of the reset controller (R563). -/
def State.rstWrite (s : State) (r : Reg) (v mask : Word64) : State :=
  let x := v &&& mask
  match r with
  | .RST_CAUSE =>
    let s := s.plain r false v mask
    if (s.rd r).getLsbD 12 then s
    else (s.setFld .RST_STATUS F.RST_STATUS_REF_LOST 0).setFld .RST_STATUS F.RST_STATUS_ROOT_LOST 0
  | .RST_CTRL => if x.getLsbD 0 then s.warmReset else s
  | .RST_TILE => s.resetBits r x
  | .RST_LINK => s.resetBits r x
  | .RST_UNIT => s.resetBits r x
  | .RST_WD => s.wdWrite (x.getLsbD 31) (x.toNat % 2 ^ 24)
  | .RST_WD_KICK => s.wdKick (x.toNat % 2 ^ 16)
  | .RST_RETIRE => if x.getLsbD 31 then s.retire (x.toNat % 64) else s.plain r false v mask
  | _ => s.plain r false v mask

/-- A write to a register of the translation unit (R344). -/
def State.trWrite (s : State) (r : Reg) (levee : Bool) (v mask : Word64) : State :=
  let x := v &&& mask
  match r with
  | .TR_CMD => s.trOp (x.toNat % 16)
  | .FQ_BASE => if s.fld .FQ_CTRL F.FQ_CTRL_ENABLE == 1 then s else s.plain r levee v mask
  | .HL_BASE => if s.fld .HL_CTRL F.HL_CTRL_ENABLE == 1 then s else s.plain r levee v mask
  | .FQ_CTRL => s.fqWrite false (x.setWidth 32)
  | .HL_CTRL => s.fqWrite true (x.setWidth 32)
  | .FQ_RESUME => s.fqResume (x.toNat % 4096) (!x.getLsbD 31)
  | .FQ_OVERFLOW => s.clearOn r x
  | .HL_DROP => s.clearOn r x
  | .OT_REFUSALS => s.clearOn r x
  | .OT_FIRST => if x.getLsbD 63 then s.wr r 0 else s
  | _ => s.plain r levee v mask

/-- A write to a register of the rotation unit (R245). -/
def State.rotWrite (s : State) (r : Reg) (levee : Bool) (v mask : Word64) : State :=
  let x := v &&& mask
  let pend := s.fld .ROT_STATUS F.ROT_STATUS_EPOCH_PEND == 1
  match r with
  | .ROT_CTRL =>
    let s := if x.getLsbD 2 then s.epochArm else s
    let s := if x.getLsbD 1 then s.stopArm else s
    if x.getLsbD 0 then s.startArm else s
  | .ROT_START => if s.rotState == 0 then s.plain r levee v mask else s
  | .TB_OFFSET => if pend then s else s.plain r levee v mask
  | .TB_EPOCH => if pend then s else s.plain r levee v mask
  | .LK_PING l => if h : l < 36 then (if x.getLsbD 0 then s.pingGo ⟨l, h⟩ else s) else s
  | _ => s.plain r levee v mask

/-- A write to a register of the memory controllers (R311, R312). -/
def State.memWrite (s : State) (r : Reg) (v mask : Word64) : State :=
  let x := v &&& mask
  match r with
  | .HB_CTRL k => if h : k < 8 then (if x.getLsbD 0 then s.hbLoad ⟨k, h⟩ else s) else s
  | .HB_STATUS k => (s.plain r false v mask).release r 6 (.HB_ERRADDR k)
  | .HB_CECNT _ => s.clearOn r x
  | .T2_CTRL g => if h : g < 4 then (if mask.getLsbD 0 then s.t2Enable ⟨g, h⟩ (v.getLsbD 0) else s) else s
  | .T2_STATUS g => (s.plain r false v mask).release r 6 (.T2_ERRADDR g)
  | .T2_SIZE g => if s.fld (.T2_CTRL g) F.T2_CTRL_ENABLE == 1 then s else s.plain r false v mask
  | _ => s.plain r false v mask

/-- A write of bits v under a mask to a register, by its unit. -/
def State.regWrite (s : State) (r : Reg) (by_ : Requester) (v mask : Word64) : State :=
  let levee := by_ == .rider 0 && s.leveeOpen
  let manager := Requester.isManager by_
  let x := v &&& mask
  let a := r.offset
  if 0x100000 ≤ a && a < 0x1C0000 then s.tileWrite ⟨(a - 0x100000) / 0x4000 % 48, Nat.mod_lt _ (by decide)⟩ r v mask
  else if 0xA0000 ≤ a && a < 0xC4000 then s.linkWrite ⟨(a - 0xA0000) / 0x1000 % 36, Nat.mod_lt _ (by decide)⟩ r v mask
  else if 0xD0000 ≤ a && a < 0xE0000 then
    s.slotWrite ⟨(a - 0xD0000) / 0x1000 % 16, Nat.mod_lt _ (by decide)⟩ r levee v mask
  else if 0x80000 ≤ a && a < 0x90000 then s.culvertWrite r manager levee v mask
  else if 0x90000 ≤ a && a < 0xA0000 then s.rotWrite r levee v mask
  else if 0x50000 ≤ a && a < 0x60000 then s.trWrite r levee v mask
  else if 0x10000 ≤ a && a < 0x20000 then s.rstWrite r v mask
  else if 0x1C0000 ≤ a && a < 0x1D0000 then s.memWrite r v mask
  else if 0x1D0000 ≤ a && a < 0x1E0000 then s.obsRegWrite r v mask
  else
    match r with
    | .RSV_SCRATCH =>
      let s := s.plain r false v (mask &&& 0x40000000)
      if mask.getLsbD 0 then s.scratchWrite (v.toNat % 16) else s
    | .HG_BASE h => s.headWrite ⟨h % 1024, Nat.mod_lt _ (by decide)⟩ r v mask
    | .HG_CFG h => s.headWrite ⟨h % 1024, Nat.mod_lt _ (by decide)⟩ r v mask
    | .HG_BIND h => s.headWrite ⟨h % 1024, Nat.mod_lt _ (by decide)⟩ r v mask
    | .HG_STATUS h => s.headWrite ⟨h % 1024, Nat.mod_lt _ (by decide)⟩ r v mask
    | .HG_ERRREC h => s.headWrite ⟨h % 1024, Nat.mod_lt _ (by decide)⟩ r v mask
    | .TO_APER e => s.turnoutWrite ⟨e % 256, Nat.mod_lt _ (by decide)⟩ r v mask
    | .TO_CFG e => s.turnoutWrite ⟨e % 256, Nat.mod_lt _ (by decide)⟩ r v mask
    | .TO_PAGES e => s.turnoutWrite ⟨e % 256, Nat.mod_lt _ (by decide)⟩ r v mask
    | .TO_VBASE e => s.turnoutWrite ⟨e % 256, Nat.mod_lt _ (by decide)⟩ r v mask
    | .TO_REFUSE => s.clearOn r x
    | .AT_ATTACH => s.attach (x.setWidth 32)
    | .HR_HEAD => s.hrHeadWrite (x.setWidth 32)
    | .LV_CTRL =>
      let s := s.plain r levee v mask
      if levee && x.getLsbD 0 then s.leveeClose else s
    | .BOOT_STATUS => if manager then s.plain r levee v mask else s
    | .DBG_CTRL =>
      let s := if x.getLsbD 1 then s.grantEnd else s
      if x.getLsbD 0 then s.challenge else s
    | .RC_CTRL => s.rcWrite v mask
    | .WM_RAISE => if mask.getLsbD 0 then s.wmRaise by_ (x.toNat % 256) else s
    | .WM_SRC n => s.srcWrite n v mask
    | .RSV_WEIR n => s.sliceWrite ⟨n % 32, Nat.mod_lt _ (by decide)⟩ r v mask
    | .RSV_STATUS n => s.sliceWrite ⟨n % 32, Nat.mod_lt _ (by decide)⟩ r v mask
    | .RSV_CECNT n => s.sliceWrite ⟨n % 32, Nat.mod_lt _ (by decide)⟩ r v mask
    | .DIR_STATUS n => s.sliceWrite ⟨n % 32, Nat.mod_lt _ (by decide)⟩ r v mask
    | .DIR_CECNT n => s.sliceWrite ⟨n % 32, Nat.mod_lt _ (by decide)⟩ r v mask
    | .DIR_STRAY n => s.sliceWrite ⟨n % 32, Nat.mod_lt _ (by decide)⟩ r v mask
    | .DIR_PROBE n => s.sliceWrite ⟨n % 32, Nat.mod_lt _ (by decide)⟩ r v mask
    | _ => s.plain r levee v mask

/-! ### The bus -/

/-- Whether a requester's writes at an offset of PF0's BAR0 take effect (R412, R413, R485, R486). -/
def State.mayWrite (s : State) (by_ : Requester) (off : Nat) : Bool :=
  match by_ with
  | .pf0 => s.funcOpen .pf0
  | .management => (0x10000 ≤ off && off < 0x40000) || (0x1D0000 ≤ off && off < 0x1E0000) || off == 0x80160
  | .rider c => c.val < 2
  | _ => false

/-- A write of 4 bytes of a value at an offset of a register. Bits that a hardware event sets in the same SCLK cycle stay set
(R17): a 1 that would clear one has no effect. -/
def State.busWrite4 (s : State) (by_ : Requester) (off : Nat) (v : Word32) (together : Word32 := 0) : State :=
  match Reg.atOffset off with
  | some (r, d) =>
    s.regWrite r by_ ((v.setWidth 64 <<< (8 * d)) &&& ~~~(r.clears &&& (together.setWidth 64 <<< (8 * d)))) (0xFFFFFFFF#64 <<< (8 * d))
  | none => s

/-- A write of 8 bytes: to a 64-bit register, or to two 32-bit ones, the lower first. -/
def State.busWrite8 (s : State) (by_ : Requester) (off : Nat) (v together : Word64) : State :=
  let two (s : State) : State := (s.busWrite4 by_ off (v.setWidth 32) (together.setWidth 32)).busWrite4 by_ (off + 4)
    ((v >>> 32).setWidth 32) ((together >>> 32).setWidth 32)
  match Reg.atOffset off with
  | some (r, _) => if r.width == 64 then s.regWrite r by_ (v &&& ~~~(r.clears &&& together)) (BitVec.allOnes 64) else two s
  | none => two s

/-- A word of a function's MSI-X table is written (R411, R425, R426): bit 0 of an entry's last word masks its vector. -/
def State.msixWrite (s : State) (f : FunctionId) (off : Nat) (v : Word32) : State :=
  let g (x : Func) : Func :=
    if off % 16 == 12 then
      { x with unmasked := if v.getLsbD 0 then x.unmasked.erase (off / 16) else (off / 16) :: x.unmasked.erase (off / 16) }
    else { x with table := Assoc.put id 0 x.table off v }
  (s.updFunc f g).msixFlush f

/-- An aligned access of 4 or 8 bytes (R13). -/
def aligned (off size : Nat) : Bool := (size == 4 || size == 8) && off % size == 0

/-- The write reaches a unit that runs: a block reset releases the register bus with the watermaster and the reset controller
first (R549), and the entry scrub lets no access through (R488). -/
def State.busOpen (s : State) (off : Nat) : Bool :=
  !s.boot.scrub && (s.rst.phase != .released || (0x10000 ≤ off && off < 0x30000))

/-- A register write by a requester of the register bus. A VF's BAR0 holds only its MSI-X table that can be written (R411). -/
def State.busAccess (s : State) (off size : Nat) (v : Word64) (by_ : Requester) (together : Word64) : State :=
  if !s.busOpen off then s
  else if s.ideKeepsOut by_ then (s.hostRefuse 0 4 0).emit (.unsupported by_)
  else if !aligned off size || !s.reaches by_ then s.emit (.unsupported by_)
  else
    match by_ with
    | .vf k =>
      if 0x1000 ≤ off && off + size ≤ 0x1200 then
        let s := s.msixWrite (.vf k) (off - 0x1000) (v.setWidth 32)
        if size == 8 then s.msixWrite (.vf k) (off - 0x1000 + 4) ((v >>> 32).setWidth 32) else s
      else s
    | _ =>
      if !s.mayWrite by_ off then s
      else if 0x70000 ≤ off && off < 0x78000 then
        let s := s.msixWrite .pf0 (off - 0x70000) (v.setWidth 32)
        if size == 8 then s.msixWrite .pf0 (off - 0x70000 + 4) ((v >>> 32).setWidth 32) else s
      else if size == 8 then s.busWrite8 by_ off v together
      else s.busWrite4 by_ off (v.setWidth 32) (together.setWidth 32)

/-- REGISTER_WRITE (R16). v.together names the bits that hardware events set in the SCLK cycle of the write (R17). -/
def execRegisterWrite (off size : Nat) (v : WriteData) (by_ : Requester) (s : State) : Host.Outcome State Fault Refusal :=
  s.commitBus (fun s => s.busAccess off size v.value by_ v.together)

/-- UNSUPPORTED_ACCESS (R13): the access completes as Unsupported Request and changes no register. An aligned one of 4 or 8
bytes is none. -/
def execUnsupportedAccess (off size : Nat) (by_ : Requester) (s : State) : Host.Outcome State Fault Refusal :=
  s.commitBus (fun s => if aligned off size then s else s.emit (.unsupported by_))

/-! ### The sequencer's accesses (R174, R190) -/

/-- Offset of a tile-window word in BAR0. -/
def windowOff (t : TileId) (w : Word32) : Nat := 0x100000 + 0x4000 * t.val + 4 * sX12 w

/-- CSRR: sD := the zero-extended 32-bit register. -/
def execCsrr (t : TileId) (w : Word32) (s : State) : Host.Outcome State Fault Refusal :=
  s.commit (fun s => s.seqOp t w 0x33 (sSA w == 0 && bitsOf w 15 12 == 0) (fun s =>
    (s.wrS t (sSD w) ((s.busRead4 (windowOff t w)).setWidth 64)).seqNext t))

/-- CSRW: offsets 0x0000 to 0x003F take no write. -/
def execCsrw (t : TileId) (w : Word32) (s : State) : Host.Outcome State Fault Refusal :=
  s.commit (fun s => s.seqOp t w 0x34 (sSD w == 0 && bitsOf w 15 12 == 0) (fun s =>
    let s := s.seqNext t
    if 4 * sX12 w < 0x40 then s else s.busWrite4 (.sequencer t) (windowOff t w) ((s.rdS t (sSA w)).setWidth 32)))

end Sys2Proof.Machine
end

