-- ==== Sys2Proof/Machine/Dispatch.lean ====
section
/-! DEFINITION. One arm per command: each calls its meaning. -/

namespace Sys2Proof.Machine

/-- What a command does to everything but the queue. -/
def exec (i : Instr) (s : State) : Host.Outcome State Fault Refusal :=
  match i with
  | .registerWrite off size v by_ => Sys2Proof.Machine.execRegisterWrite off size v by_ s
  | .unsupportedAccess off size by_ => Sys2Proof.Machine.execUnsupportedAccess off size by_ s
  | .turnStart request parityOk => Sys2Proof.Machine.execTurnStart request parityOk s
  | .appendedCyclesStart => Sys2Proof.Machine.execAppendedCyclesStart s
  | .markGapExpiry t => Sys2Proof.Machine.execMarkGapExpiry t s
  | .slabDrainDone t => Sys2Proof.Machine.execSlabDrainDone t s
  | .schedFlitArrive f => Sys2Proof.Machine.execSchedFlitArrive f s
  | .schedHbmCommand k q => Sys2Proof.Machine.execSchedHbmCommand k q s
  | .schedHbmData k q ecc => Sys2Proof.Machine.execSchedHbmData k q ecc s
  | .coherentHbmCommand k q ecc => Sys2Proof.Machine.execCoherentHbmCommand k q ecc s
  | .refresh k pc run => Sys2Proof.Machine.execRefresh k pc run s
  | .iadd g w => Sys2Proof.Machine.execIadd g w s
  | .isub g w => Sys2Proof.Machine.execIsub g w s
  | .imul g w => Sys2Proof.Machine.execImul g w s
  | .imulh g w => Sys2Proof.Machine.execImulh g w s
  | .imad g w => Sys2Proof.Machine.execImad g w s
  | .imin g w => Sys2Proof.Machine.execImin g w s
  | .imax g w => Sys2Proof.Machine.execImax g w s
  | .and g w => Sys2Proof.Machine.execAnd g w s
  | .or g w => Sys2Proof.Machine.execOr g w s
  | .xor g w => Sys2Proof.Machine.execXor g w s
  | .shl g w => Sys2Proof.Machine.execShl g w s
  | .shr g w => Sys2Proof.Machine.execShr g w s
  | .sel g w => Sys2Proof.Machine.execSel g w s
  | .mov g w => Sys2Proof.Machine.execMov g w s
  | .isetp g w => Sys2Proof.Machine.execIsetp g w s
  | .fadd g w => Sys2Proof.Machine.execFadd g w s
  | .fsub g w => Sys2Proof.Machine.execFsub g w s
  | .fmul g w => Sys2Proof.Machine.execFmul g w s
  | .ffma g w => Sys2Proof.Machine.execFfma g w s
  | .fmin g w => Sys2Proof.Machine.execFmin g w s
  | .fmax g w => Sys2Proof.Machine.execFmax g w s
  | .fsetp g w => Sys2Proof.Machine.execFsetp g w s
  | .hadd2 g w => Sys2Proof.Machine.execHadd2 g w s
  | .hmul2 g w => Sys2Proof.Machine.execHmul2 g w s
  | .hfma2 g w => Sys2Proof.Machine.execHfma2 g w s
  | .badd2 g w => Sys2Proof.Machine.execBadd2 g w s
  | .bmul2 g w => Sys2Proof.Machine.execBmul2 g w s
  | .bfma2 g w => Sys2Proof.Machine.execBfma2 g w s
  | .cvt g w => Sys2Proof.Machine.execCvt g w s
  | .wadd g w => Sys2Proof.Machine.execWadd g w s
  | .wcvt g w => Sys2Proof.Machine.execWcvt g w s
  | .wrnd g w => Sys2Proof.Machine.execWrnd g w s
  | .rcp g w => Sys2Proof.Machine.execRcp g w s
  | .sqrt g w => Sys2Proof.Machine.execSqrt g w s
  | .rsq g w => Sys2Proof.Machine.execRsq g w s
  | .ex2 g w => Sys2Proof.Machine.execEx2 g w s
  | .lg2 g w => Sys2Proof.Machine.execLg2 g w s
  | .sinpi g w => Sys2Proof.Machine.execSinpi g w s
  | .cospi g w => Sys2Proof.Machine.execCospi g w s
  | .idiv g w => Sys2Proof.Machine.execIdiv g w s
  | .irem g w => Sys2Proof.Machine.execIrem g w s
  | .shfl g w => Sys2Proof.Machine.execShfl g w s
  | .ballot g w => Sys2Proof.Machine.execBallot g w s
  | .movu g w => Sys2Proof.Machine.execMovu g w s
  | .bcast g w => Sys2Proof.Machine.execBcast g w s
  | .sreg g w => Sys2Proof.Machine.execSreg g w s
  | .fflag g w => Sys2Proof.Machine.execFflag g w s
  | .lds g w => Sys2Proof.Machine.execLds g w s
  | .sts g w => Sys2Proof.Machine.execSts g w s
  | .ldl g w => Sys2Proof.Machine.execLdl g w s
  | .stl g w => Sys2Proof.Machine.execStl g w s
  | .ld g w => Sys2Proof.Machine.execLd g w s
  | .st g w => Sys2Proof.Machine.execSt g w s
  | .aopAdd g w => Sys2Proof.Machine.execAopAdd g w s
  | .aopSmin g w => Sys2Proof.Machine.execAopSmin g w s
  | .aopUmin g w => Sys2Proof.Machine.execAopUmin g w s
  | .aopSmax g w => Sys2Proof.Machine.execAopSmax g w s
  | .aopUmax g w => Sys2Proof.Machine.execAopUmax g w s
  | .aopAnd g w => Sys2Proof.Machine.execAopAnd g w s
  | .aopOr g w => Sys2Proof.Machine.execAopOr g w s
  | .aopXor g w => Sys2Proof.Machine.execAopXor g w s
  | .exch g w => Sys2Proof.Machine.execExch g w s
  | .cas g w => Sys2Proof.Machine.execCas g w s
  | .aopFadd g w => Sys2Proof.Machine.execAopFadd g w s
  | .ulds g w => Sys2Proof.Machine.execUlds g w s
  | .usts g w => Sys2Proof.Machine.execUsts g w s
  | .l1inv g w => Sys2Proof.Machine.execL1inv g w s
  | .fenceOrd g w => Sys2Proof.Machine.execFenceOrd g w s
  | .fenceEnd g w => Sys2Proof.Machine.execFenceEnd g w s
  | .fenceComplete g => Sys2Proof.Machine.execFenceComplete g s
  | .mxma g w => Sys2Proof.Machine.execMxma g w s
  | .mxld g w => Sys2Proof.Machine.execMxld g w s
  | .mxst g w => Sys2Proof.Machine.execMxst g w s
  | .twait g w => Sys2Proof.Machine.execTwait g w s
  | .ttest g w => Sys2Proof.Machine.execTtest g w s
  | .tstat g w => Sys2Proof.Machine.execTstat g w s
  | .matrixAccept t u ue => Sys2Proof.Machine.execMatrixAccept t u ue s
  | .matrixEnd t u check => Sys2Proof.Machine.execMatrixEnd t u check s
  | .tokenDone g tok => Sys2Proof.Machine.execTokenDone g tok s
  | .accumClear t => Sys2Proof.Machine.execAccumClear t s
  | .barBlk g w => Sys2Proof.Machine.execBarBlk g w s
  | .exit g w => Sys2Proof.Machine.execExit g w s
  | .bra g w => Sys2Proof.Machine.execBra g w s
  | .braU g w => Sys2Proof.Machine.execBraU g w s
  | .jmp g w => Sys2Proof.Machine.execJmp g w s
  | .jalU g w => Sys2Proof.Machine.execJalU g w s
  | .jrU g w => Sys2Proof.Machine.execJrU g w s
  | .trap g w => Sys2Proof.Machine.execTrap g w s
  | .nop g w => Sys2Proof.Machine.execNop g w s
  | .uadd g w => Sys2Proof.Machine.execUadd g w s
  | .usub g w => Sys2Proof.Machine.execUsub g w s
  | .umul g w => Sys2Proof.Machine.execUmul g w s
  | .uand g w => Sys2Proof.Machine.execUand g w s
  | .uor g w => Sys2Proof.Machine.execUor g w s
  | .uxor g w => Sys2Proof.Machine.execUxor g w s
  | .ushl g w => Sys2Proof.Machine.execUshl g w s
  | .ushr g w => Sys2Proof.Machine.execUshr g w s
  | .umin g w => Sys2Proof.Machine.execUmin g w s
  | .umax g w => Sys2Proof.Machine.execUmax g w s
  | .umov g w => Sys2Proof.Machine.execUmov g w s
  | .usetp g w => Sys2Proof.Machine.execUsetp g w s
  | .illegal idx => Sys2Proof.Machine.execIllegal idx s
  | .lateAccess g idx cause => Sys2Proof.Machine.execLateAccess g idx cause s
  | .loadReturn g idx hostData => Sys2Proof.Machine.execLoadReturn g idx hostData s
  | .icacheFill g ue hostData => Sys2Proof.Machine.execIcacheFill g ue hostData s
  | .mergeFlush t c line => Sys2Proof.Machine.execMergeFlush t c line s
  | .rangeWalkDone q va access => Sys2Proof.Machine.execRangeWalkDone q va access s
  | .groupTimeslice g => Sys2Proof.Machine.execGroupTimeslice g s
  | .activeSlotFill t c => Sys2Proof.Machine.execActiveSlotFill t c s
  | .blockStart t c => Sys2Proof.Machine.execBlockStart t c s
  | .alu t w => Sys2Proof.Machine.execAlu t w s
  | .aluAdd t w => Sys2Proof.Machine.execAluAdd t w s
  | .aluSub t w => Sys2Proof.Machine.execAluSub t w s
  | .aluAnd t w => Sys2Proof.Machine.execAluAnd t w s
  | .aluOr t w => Sys2Proof.Machine.execAluOr t w s
  | .aluXor t w => Sys2Proof.Machine.execAluXor t w s
  | .sll t w => Sys2Proof.Machine.execSll t w s
  | .srl t w => Sys2Proof.Machine.execSrl t w s
  | .sra t w => Sys2Proof.Machine.execSra t w s
  | .slt t w => Sys2Proof.Machine.execSlt t w s
  | .sltu t w => Sys2Proof.Machine.execSltu t w s
  | .mul t w => Sys2Proof.Machine.execMul t w s
  | .addi t w => Sys2Proof.Machine.execAddi t w s
  | .andi t w => Sys2Proof.Machine.execAndi t w s
  | .ori t w => Sys2Proof.Machine.execOri t w s
  | .xori t w => Sys2Proof.Machine.execXori t w s
  | .slli t w => Sys2Proof.Machine.execSlli t w s
  | .srli t w => Sys2Proof.Machine.execSrli t w s
  | .srai t w => Sys2Proof.Machine.execSrai t w s
  | .slti t w => Sys2Proof.Machine.execSlti t w s
  | .lui t w => Sys2Proof.Machine.execLui t w s
  | .seqLd t w => Sys2Proof.Machine.execSeqLd t w s
  | .ldw t w => Sys2Proof.Machine.execLdw t w s
  | .seqSt t w => Sys2Proof.Machine.execSeqSt t w s
  | .stw t w => Sys2Proof.Machine.execStw t w s
  | .beq t w => Sys2Proof.Machine.execBeq t w s
  | .bne t w => Sys2Proof.Machine.execBne t w s
  | .blt t w => Sys2Proof.Machine.execBlt t w s
  | .bge t w => Sys2Proof.Machine.execBge t w s
  | .bltu t w => Sys2Proof.Machine.execBltu t w s
  | .bgeu t w => Sys2Proof.Machine.execBgeu t w s
  | .jal t w => Sys2Proof.Machine.execJal t w s
  | .jalr t w => Sys2Proof.Machine.execJalr t w s
  | .wait t w => Sys2Proof.Machine.execWait t w s
  | .waitPointReached t => Sys2Proof.Machine.execWaitPointReached t s
  | .delay t w => Sys2Proof.Machine.execDelay t w s
  | .delayExpiry t => Sys2Proof.Machine.execDelayExpiry t s
  | .mark t w => Sys2Proof.Machine.execMark t w s
  | .mode t w => Sys2Proof.Machine.execMode t w s
  | .launch t w => Sys2Proof.Machine.execLaunch t w s
  | .kernelStart t => Sys2Proof.Machine.execKernelStart t s
  | .kernelEnd t => Sys2Proof.Machine.execKernelEnd t s
  | .kwait t w => Sys2Proof.Machine.execKwait t w s
  | .slgo t w => Sys2Proof.Machine.execSlgo t w s
  | .slwait t w => Sys2Proof.Machine.execSlwait t w s
  | .sgwait t w => Sys2Proof.Machine.execSgwait t w s
  | .sgset t w => Sys2Proof.Machine.execSgset t w s
  | .cnsig t w => Sys2Proof.Machine.execCnsig t w s
  | .cnrcv t w => Sys2Proof.Machine.execCnrcv t w s
  | .cnstat t w => Sys2Proof.Machine.execCnstat t w s
  | .seqTime t w => Sys2Proof.Machine.execSeqTime t w s
  | .turn t w => Sys2Proof.Machine.execTurn t w s
  | .cyc t w => Sys2Proof.Machine.execCyc t w s
  | .csrr t w => Sys2Proof.Machine.execCsrr t w s
  | .csrw t w => Sys2Proof.Machine.execCsrw t w s
  | .seqTrap t w => Sys2Proof.Machine.execSeqTrap t w s
  | .halt t w => Sys2Proof.Machine.execHalt t w s
  | .seqFence t w => Sys2Proof.Machine.execSeqFence t w s
  | .seqNop t w => Sys2Proof.Machine.execSeqNop t w s
  | .pmUncorrectable t => Sys2Proof.Machine.execPmUncorrectable t s
  | .seqLockstepMismatch t => Sys2Proof.Machine.execSeqLockstepMismatch t s
  | .start t => Sys2Proof.Machine.execStart t s
  | .programCopyDone t => Sys2Proof.Machine.execProgramCopyDone t s
  | .stop t => Sys2Proof.Machine.execStop t s
  | .sqSigWrite t n v adds => Sys2Proof.Machine.execSqSigWrite t n v adds s
  | .signalWordReceive l t v => Sys2Proof.Machine.execSignalWordReceive l t v s
  | .sluiceDescFetch t c => Sys2Proof.Machine.execSluiceDescFetch t c s
  | .sluiceCopy t c => Sys2Proof.Machine.execSluiceCopy t c s
  | .gather t c => Sys2Proof.Machine.execGather t c s
  | .scatter t c => Sys2Proof.Machine.execScatter t c s
  | .sluiceInline t c => Sys2Proof.Machine.execSluiceInline t c s
  | .wreduce t c => Sys2Proof.Machine.execWreduce t c s
  | .sluiceWait t c => Sys2Proof.Machine.execSluiceWait t c s
  | .sluiceWaitSatisfied t c => Sys2Proof.Machine.execSluiceWaitSatisfied t c s
  | .sluiceSignal t c => Sys2Proof.Machine.execSluiceSignal t c s
  | .jump t c => Sys2Proof.Machine.execJump t c s
  | .sluiceFlitIssue t c => Sys2Proof.Machine.execSluiceFlitIssue t c s
  | .sluiceLineArrive t c hostData ue => Sys2Proof.Machine.execSluiceLineArrive t c hostData ue s
  | .abort t c => Sys2Proof.Machine.execAbort t c s
  | .channelIdle t c => Sys2Proof.Machine.execChannelIdle t c s
  | .startArm => Sys2Proof.Machine.execStartArm s
  | .stopArm => Sys2Proof.Machine.execStopArm s
  | .epochArm => Sys2Proof.Machine.execEpochArm s
  | .epoch => Sys2Proof.Machine.execEpoch s
  | .timebaseMismatch => Sys2Proof.Machine.execTimebaseMismatch s
  | .pingGo l => Sys2Proof.Machine.execPingGo l s
  | .pingM1 l m => Sys2Proof.Machine.execPingM1 l m s
  | .pingM2 l m => Sys2Proof.Machine.execPingM2 l m s
  | .pingM3 l m => Sys2Proof.Machine.execPingM3 l m s
  | .pingM4 l m => Sys2Proof.Machine.execPingM4 l m s
  | .pingTimeout l => Sys2Proof.Machine.execPingTimeout l s
  | .slot l slot => Sys2Proof.Machine.execSlot l slot s
  | .idle l slot => Sys2Proof.Machine.execIdle l slot s
  | .dataParcel l p => Sys2Proof.Machine.execDataParcel l p s
  | .signalParcel l p => Sys2Proof.Machine.execSignalParcel l p s
  | .stretch l p => Sys2Proof.Machine.execStretch l p s
  | .ping l m => Sys2Proof.Machine.execPing l m s
  | .digest l d => Sys2Proof.Machine.execDigest l d s
  | .haltParcel l chip side source => Sys2Proof.Machine.execHaltParcel l chip side source s
  | .container l c => Sys2Proof.Machine.execContainer l c s
  | .erroredParcel l slot => Sys2Proof.Machine.execErroredParcel l slot s
  | .sParcelDeliver l => Sys2Proof.Machine.execSParcelDeliver l s
  | .localFlitArrive l f late => Sys2Proof.Machine.execLocalFlitArrive l f late s
  | .cReplayTimeout l => Sys2Proof.Machine.execCReplayTimeout l s
  | .linkDown l => Sys2Proof.Machine.execLinkDown l s
  | .linkUp l => Sys2Proof.Machine.execLinkUp l s
  | .cnEnable l v => Sys2Proof.Machine.execCnEnable l v s
  | .retrain l => Sys2Proof.Machine.execRetrain l s
  | .cnMapdataWrite l v => Sys2Proof.Machine.execCnMapdataWrite l v s
  | .remoteRequest m => Sys2Proof.Machine.execRemoteRequest m s
  | .rdShared n m => Sys2Proof.Machine.execRdShared n m s
  | .rdOwn n m => Sys2Proof.Machine.execRdOwn n m s
  | .claim n m => Sys2Proof.Machine.execClaim n m s
  | .rdPeek n m => Sys2Proof.Machine.execRdPeek n m s
  | .wrFull n m => Sys2Proof.Machine.execWrFull n m s
  | .wrPart n m => Sys2Proof.Machine.execWrPart n m s
  | .atomic n m => Sys2Proof.Machine.execAtomic n m s
  | .evictClean n m => Sys2Proof.Machine.execEvictClean n m s
  | .evictDirty n m => Sys2Proof.Machine.execEvictDirty n m s
  | .sigAdd m => Sys2Proof.Machine.execSigAdd m s
  | .snpInv m => Sys2Proof.Machine.execSnpInv m s
  | .snpFwdS m => Sys2Proof.Machine.execSnpFwdS m s
  | .snpFwdO m => Sys2Proof.Machine.execSnpFwdO m s
  | .snpPeek m => Sys2Proof.Machine.execSnpPeek m s
  | .data m => Sys2Proof.Machine.execData m s
  | .gnt m => Sys2Proof.Machine.execGnt m s
  | .cmp m => Sys2Proof.Machine.execCmp m s
  | .rspI n m => Sys2Proof.Machine.execRspI n m s
  | .rspS n m => Sys2Proof.Machine.execRspS n m s
  | .rspKeep n m => Sys2Proof.Machine.execRspKeep n m s
  | .rspFwd n m => Sys2Proof.Machine.execRspFwd n m s
  | .rspData n m => Sys2Proof.Machine.execRspData n m s
  | .evictAck m => Sys2Proof.Machine.execEvictAck m s
  | .ack n m => Sys2Proof.Machine.execAck n m s
  | .refuse m => Sys2Proof.Machine.execRefuse m s
  | .word m => Sys2Proof.Machine.execWord m s
  | .cohProtocolError slice m => Sys2Proof.Machine.execCohProtocolError slice m s
  | .retryQueueServe n => Sys2Proof.Machine.execRetryQueueServe n s
  | .refillHalf n line second ecc => Sys2Proof.Machine.execRefillHalf n line second ecc s
  | .agentDeath a => Sys2Proof.Machine.execAgentDeath a s
  | .snoopTimeout a => Sys2Proof.Machine.execSnoopTimeout a s
  | .reclaimDone => Sys2Proof.Machine.execReclaimDone s
  | .reclaimStart a => Sys2Proof.Machine.execReclaimStart a s
  | .setDevice => Sys2Proof.Machine.execSetDevice s
  | .lock => Sys2Proof.Machine.execLock s
  | .unlock => Sys2Proof.Machine.execUnlock s
  | .biasCmdDone => Sys2Proof.Machine.execBiasCmdDone s
  | .biasFlipDone granule => Sys2Proof.Machine.execBiasFlipDone granule s
  | .nextLost n set way => Sys2Proof.Machine.execNextLost n set way s
  | .dirProbeRead n set way => Sys2Proof.Machine.execDirProbeRead n set way s
  | .scratchWaysWrite v => Sys2Proof.Machine.execScratchWaysWrite v s
  | .scratchConvertDone n => Sys2Proof.Machine.execScratchConvertDone n s
  | .patrolScrub a ecc => Sys2Proof.Machine.execPatrolScrub a ecc s
  | .load k => Sys2Proof.Machine.execLoad k s
  | .slabOwnWrite t u v => Sys2Proof.Machine.execSlabOwnWrite t u v s
  | .slabFillDone t => Sys2Proof.Machine.execSlabFillDone t s
  | .t2Enable g v => Sys2Proof.Machine.execT2Enable g v s
  | .t2Loss g => Sys2Proof.Machine.execT2Loss g s
  | .t2Poison g addr => Sys2Proof.Machine.execT2Poison g addr s
  | .ctxCreate => Sys2Proof.Machine.execCtxCreate s
  | .ctxDestroy => Sys2Proof.Machine.execCtxDestroy s
  | .rebase => Sys2Proof.Machine.execRebase s
  | .tableCheckDone => Sys2Proof.Machine.execTableCheckDone s
  | .unmap => Sys2Proof.Machine.execUnmap s
  | .unmapDrainDone => Sys2Proof.Machine.execUnmapDrainDone s
  | .unmapTimeout => Sys2Proof.Machine.execUnmapTimeout s
  | .pin => Sys2Proof.Machine.execPin s
  | .unpin => Sys2Proof.Machine.execUnpin s
  | .own => Sys2Proof.Machine.execOwn s
  | .ownRegionDone => Sys2Proof.Machine.execOwnRegionDone s
  | .trCmdBusy op => Sys2Proof.Machine.execTrCmdBusy op s
  | .faultRetry id => Sys2Proof.Machine.execFaultRetry id s
  | .faultAbort id => Sys2Proof.Machine.execFaultAbort id s
  | .refusedFaultPost => Sys2Proof.Machine.execRefusedFaultPost s
  | .fqEnable hotList v => Sys2Proof.Machine.execFqEnable hotList v s
  | .hotListPost ctx page => Sys2Proof.Machine.execHotListPost ctx page s
  | .atsTranslationRequest e pasid va write => Sys2Proof.Machine.execAtsTranslationRequest e pasid va write s
  | .pageRequest e pasid va access => Sys2Proof.Machine.execPageRequest e pasid va access s
  | .invalidateCompletion e => Sys2Proof.Machine.execInvalidateCompletion e s
  | .hostMemRead p off metaValue => Sys2Proof.Machine.execHostMemRead p off metaValue s
  | .hostMemWrite p off mask data => Sys2Proof.Machine.execHostMemWrite p off mask data s
  | .culvertMove => Sys2Proof.Machine.execCulvertMove s
  | .culvertDisable => Sys2Proof.Machine.execCulvertDisable s
  | .culvertEnable by_ ctx => Sys2Proof.Machine.execCulvertEnable by_ ctx s
  | .culvertMoveDone => Sys2Proof.Machine.execCulvertMoveDone s
  | .h2dSnoop p addr kind => Sys2Proof.Machine.execH2dSnoop p addr kind s
  | .cacheWritebackInvalidate p => Sys2Proof.Machine.execCacheWritebackInvalidate p s
  | .hostGo p id => Sys2Proof.Machine.execHostGo p id s
  | .peerReadTimeout g idx => Sys2Proof.Machine.execPeerReadTimeout g idx s
  | .configWrite f a => Sys2Proof.Machine.execConfigWrite f a s
  | .msixUnmask f vector => Sys2Proof.Machine.execMsixUnmask f vector s
  | .msixRequest f vector => Sys2Proof.Machine.execMsixRequest f vector s
  | .d3hotEntry => Sys2Proof.Machine.execD3hotEntry s
  | .d0Return => Sys2Proof.Machine.execD0Return s
  | .req => Sys2Proof.Machine.execReq s
  | .pf0Flr => Sys2Proof.Machine.execPf0Flr s
  | .vfFlr k => Sys2Proof.Machine.execVfFlr k s
  | .flrComplete f => Sys2Proof.Machine.execFlrComplete f s
  | .hotResetDetach p => Sys2Proof.Machine.execHotResetDetach p s
  | .hostDetach p cause => Sys2Proof.Machine.execHostDetach p cause s
  | .linkRetrain g => Sys2Proof.Machine.execLinkRetrain g s
  | .viralRx p => Sys2Proof.Machine.execViralRx p s
  | .ideFailure g => Sys2Proof.Machine.execIdeFailure g s
  | .pgLinkDown g => Sys2Proof.Machine.execPgLinkDown g s
  | .doorbell h v => Sys2Proof.Machine.execDoorbell h v s
  | .resume h => Sys2Proof.Machine.execResume h s
  | .hgReset h => Sys2Proof.Machine.execHgReset h s
  | .slotFetchReturn h r => Sys2Proof.Machine.execSlotFetchReturn h r s
  | .refetch h => Sys2Proof.Machine.execRefetch h s
  | .commandStart h => Sys2Proof.Machine.execCommandStart h s
  | .hgNop h slot => Sys2Proof.Machine.execHgNop h slot s
  | .hgCopy h slot hostData fail => Sys2Proof.Machine.execHgCopy h slot hostData fail s
  | .hgInline h slot fail => Sys2Proof.Machine.execHgInline h slot fail s
  | .hgSignal h slot => Sys2Proof.Machine.execHgSignal h slot s
  | .hgWait h slot => Sys2Proof.Machine.execHgWait h slot s
  | .kernel h slot => Sys2Proof.Machine.execKernel h slot s
  | .completionRecord h slot => Sys2Proof.Machine.execCompletionRecord h slot s
  | .hgEnable h => Sys2Proof.Machine.execHgEnable h s
  | .hgDisable h => Sys2Proof.Machine.execHgDisable h s
  | .deliver v => Sys2Proof.Machine.execDeliver v s
  | .collect v => Sys2Proof.Machine.execCollect v s
  | .holdingEntryDelivered => Sys2Proof.Machine.execHoldingEntryDelivered s
  | .hrHeadWrite v => Sys2Proof.Machine.execHrHeadWrite v s
  | .toEnable e => Sys2Proof.Machine.execToEnable e s
  | .turnoutWrite off data => Sys2Proof.Machine.execTurnoutWrite off data s
  | .turnoutRead off len => Sys2Proof.Machine.execTurnoutRead off len s
  | .esEnable e v => Sys2Proof.Machine.execEsEnable e v s
  | .engineTrained e link => Sys2Proof.Machine.execEngineTrained e link s
  | .esAdmit e powerGranted rtt => Sys2Proof.Machine.execEsAdmit e powerGranted rtt s
  | .esReset e => Sys2Proof.Machine.execEsReset e s
  | .hold e v => Sys2Proof.Machine.execHold e v s
  | .irq e index => Sys2Proof.Machine.execIrq e index s
  | .echo e seq elapsed => Sys2Proof.Machine.execEcho e seq elapsed s
  | .heldAck e => Sys2Proof.Machine.execHeldAck e s
  | .echoTimeout e => Sys2Proof.Machine.execEchoTimeout e s
  | .engineSchedRequest e r => Sys2Proof.Machine.execEngineSchedRequest e r s
  | .engineD2hRequest e pasid r => Sys2Proof.Machine.execEngineD2hRequest e pasid r s
  | .engineLoss e => Sys2Proof.Machine.execEngineLoss e s
  | .engineViralRx e => Sys2Proof.Machine.execEngineViralRx e s
  | .pasidUnbind e ctx => Sys2Proof.Machine.execPasidUnbind e ctx s
  | .pasidBind e ctx => Sys2Proof.Machine.execPasidBind e ctx s
  | .mmioRead e => Sys2Proof.Machine.execMmioRead e s
  | .mmioWrite e => Sys2Proof.Machine.execMmioWrite e s
  | .mmioCompletion e unsupported data => Sys2Proof.Machine.execMmioCompletion e unsupported data s
  | .mmioTimeout e => Sys2Proof.Machine.execMmioTimeout e s
  | .esGrantWrite e k v => Sys2Proof.Machine.execEsGrantWrite e k v s
  | .imageAuthenticated image => Sys2Proof.Machine.execImageAuthenticated image s
  | .imageTimeout authFailed => Sys2Proof.Machine.execImageTimeout authFailed s
  | .leveeClose => Sys2Proof.Machine.execLeveeClose s
  | .keysLoaded => Sys2Proof.Machine.execKeysLoaded s
  | .scrubDone => Sys2Proof.Machine.execScrubDone s
  | .runRelease k => Sys2Proof.Machine.execRunRelease k s
  | .runReset k => Sys2Proof.Machine.execRunReset k s
  | .riderAccessFault k addr kind => Sys2Proof.Machine.execRiderAccessFault k addr kind s
  | .challenge => Sys2Proof.Machine.execChallenge s
  | .grantInstall grant => Sys2Proof.Machine.execGrantInstall grant s
  | .revoke => Sys2Proof.Machine.execRevoke s
  | .grantExpiry => Sys2Proof.Machine.execGrantExpiry s
  | .sourceEvent source ctxs map => Sys2Proof.Machine.execSourceEvent source ctxs map s
  | .safeDrainDone => Sys2Proof.Machine.execSafeDrainDone s
  | .wmStatusClear source together => Sys2Proof.Machine.execWmStatusClear source together s
  | .severityWrite source v => Sys2Proof.Machine.execSeverityWrite source v s
  | .forceWrite source v => Sys2Proof.Machine.execForceWrite source v s
  | .wmRaise by_ v => Sys2Proof.Machine.execWmRaise by_ v s
  | .wmSelfcheckFail => Sys2Proof.Machine.execWmSelfcheckFail s
  | .aliveToggle => Sys2Proof.Machine.execAliveToggle s
  | .digestMissing => Sys2Proof.Machine.execDigestMissing s
  | .twinItem idx => Sys2Proof.Machine.execTwinItem idx s
  | .powerOn rising lifecycle fuses => Sys2Proof.Machine.execPowerOn rising lifecycle fuses s
  | .fundamental => Sys2Proof.Machine.execFundamental s
  | .hot => Sys2Proof.Machine.execHot s
  | .watchdog => Sys2Proof.Machine.execWatchdog s
  | .parSeq t => Sys2Proof.Machine.execParSeq t s
  | .parDir n => Sys2Proof.Machine.execParDir n s
  | .parLevee => Sys2Proof.Machine.execParLevee s
  | .parRstc => Sys2Proof.Machine.execParRstc s
  | .warm => Sys2Proof.Machine.execWarm s
  | .twinRstIn => Sys2Proof.Machine.execTwinRstIn s
  | .clkloss root => Sys2Proof.Machine.execClkloss root s
  | .blockResetAssert => Sys2Proof.Machine.execBlockResetAssert s
  | .blockRelease => Sys2Proof.Machine.execBlockRelease s
  | .unitsRelease => Sys2Proof.Machine.execUnitsRelease s
  | .sliceInitDone => Sys2Proof.Machine.execSliceInitDone s
  | .mirrorReload => Sys2Proof.Machine.execMirrorReload s
  | .tileReset t => Sys2Proof.Machine.execTileReset t s
  | .linkReset l => Sys2Proof.Machine.execLinkReset l s
  | .slotReset e => Sys2Proof.Machine.execSlotReset e s
  | .t2Reset g => Sys2Proof.Machine.execT2Reset g s
  | .obsReset => Sys2Proof.Machine.execObsReset s
  | .riderReset c => Sys2Proof.Machine.execRiderReset c s
  | .unitRelease u => Sys2Proof.Machine.execUnitRelease u s
  | .wdEnable timeout => Sys2Proof.Machine.execWdEnable timeout s
  | .kick key => Sys2Proof.Machine.execKick key s
  | .retire ptile => Sys2Proof.Machine.execRetire ptile s
  | .otpPulseEnd checkOk => Sys2Proof.Machine.execOtpPulseEnd checkOk s
  | .activityEstimate energy => Sys2Proof.Machine.execActivityEstimate energy s
  | .powerReport power window boostLeft peakLeft => Sys2Proof.Machine.execPowerReport power window boostLeft peakLeft s
  | .powerBoost => Sys2Proof.Machine.execPowerBoost s
  | .powerPeak => Sys2Proof.Machine.execPowerPeak s
  | .thermal => Sys2Proof.Machine.execThermal s
  | .clear => Sys2Proof.Machine.execClear s
  | .sampleLatch => Sys2Proof.Machine.execSampleLatch s
  | .smpEnable v => Sys2Proof.Machine.execSmpEnable v s
  | .traceRecord r => Sys2Proof.Machine.execTraceRecord r s
  | .fire => Sys2Proof.Machine.execFire s
  | .trigger kind source => Sys2Proof.Machine.execTrigger kind source s
  | .rearm => Sys2Proof.Machine.execRearm s
  | .trEnable v => Sys2Proof.Machine.execTrEnable v s
  | .trHeadWrite v => Sys2Proof.Machine.execTrHeadWrite v s
  | .go t => Sys2Proof.Machine.execGo t s
  | .dumpFlitIssue t collision => Sys2Proof.Machine.execDumpFlitIssue t collision s
  | .dumpDone t => Sys2Proof.Machine.execDumpDone t s
  | .breakpointHit t => Sys2Proof.Machine.execBreakpointHit t s
  | .obsHaltGo => Sys2Proof.Machine.execObsHaltGo s
  | .haltWord l v => Sys2Proof.Machine.execHaltWord l v s
  | .resumeWord l v => Sys2Proof.Machine.execResumeWord l v s
  | .obsResume turn => Sys2Proof.Machine.execObsResume turn s
  | .snapGo => Sys2Proof.Machine.execSnapGo s
  | .snapCapture => Sys2Proof.Machine.execSnapCapture s
  | .snapDone => Sys2Proof.Machine.execSnapDone s
  | .raceMode mode => Sys2Proof.Machine.execRaceMode mode s
  | .tracePacketSend count => Sys2Proof.Machine.execTracePacketSend count s
  | .framePacket p => Sys2Proof.Machine.execFramePacket p s
  | .headraceDeliveryStart stream => Sys2Proof.Machine.execHeadraceDeliveryStart stream s
  | .headraceFlit stream => Sys2Proof.Machine.execHeadraceFlit stream s
  | .hrMapdataWrite v => Sys2Proof.Machine.execHrMapdataWrite v s
  | .pgLinkUp g speed width flit256 cxl => Sys2Proof.Machine.execPgLinkUp g speed width flit256 cxl s
  | .ideKmRequest g m => Sys2Proof.Machine.execIdeKmRequest g m s
  | .riderFence k io => Sys2Proof.Machine.execRiderFence k io s
  | .clockGoodRise root => Sys2Proof.Machine.execClockGoodRise root s
  | .clockGoodFallInReset root => Sys2Proof.Machine.execClockGoodFallInReset root s
  | .ownerCacheFill n entry => Sys2Proof.Machine.execOwnerCacheFill n entry s
  | .tierReadReturn n m ecc => Sys2Proof.Machine.execTierReadReturn n m ecc s
  | .hbmZeroFillDone k => Sys2Proof.Machine.execHbmZeroFillDone k s
  | .enginePowerExceeded e => Sys2Proof.Machine.execEnginePowerExceeded e s
  | .raceLanesAligned aligned => Sys2Proof.Machine.execRaceLanesAligned aligned s

end Sys2Proof.Machine
end

