-- ==== Sys2Proof/Safety.lean ====
section
/-! DEFINITION. What a safe run is: memory in its canonical form, no command half done, and no step that stops. -/

namespace Sys2Proof.Machine

/-- The form in which every step leaves the state: memory is canonical, and no store of a command is still on its way into
it. -/
def State.tidy (s : State) : Prop := s.mem.wf ∧ s.journal = []

/-- A step goes on: it is neither a fault nor a refusal. -/
def goesOn (o : Host.Outcome State Fault Refusal) : Prop := ∃ s, o = .next s

/-- The states that n steps lead through from s, when every one of them goes on. -/
def runs : Nat → State → Option State
  | 0, s => some s
  | n + 1, s =>
    match step s with
    | .next t => runs n t
    | _ => none

end Sys2Proof.Machine
end

