-- ==== Sys2Proof/Certificates/Slice0/Obligations.lean ====
section
/-! DEFINITION. The statements for the provers. Every statement about a command says that exec answers a next state, what
that state holds, and what it keeps. -/

open Sys2Proof Sys2Proof.Machine

namespace Sys2Proof.Claims

/-- No reset holds the units, and no store of an earlier command is on its way: every step leaves such a journal (the
invariant StepKeepsTidy). -/
def Runs (s : State) : Prop := s.inReset = false ∧ s.journal = []

/-- The command goes on to a next state that satisfies p. -/
def Gives (c : Instr) (s : State) (p : State → Prop) : Prop := ∃ t, Sys2Proof.Machine.exec c s = .next t ∧ p t

/-- A register access of PF0 comes through: no scrub of an entry runs, PF0's BAR0 is open, and IDE keeps nothing out. -/
def HostOpen (s : State) : Prop :=
  Runs s ∧ s.boot.scrub = false ∧ s.funcOpen .pf0 = true ∧ s.ideKeepsOut .pf0 = false

/-- Every register but those of a list reads as before. -/
def KeepsRegs (s t : State) (rs : List Reg) : Prop := ∀ r, r ∉ rs → t.rd r = s.rd r

/-- Every byte of memory reads as before. -/
def KeepsBytes (s t : State) : Prop := ∀ a, t.rdByte a = s.rdByte a

/-- Nothing but the registers of a list has changed: no other register, no memory, no unit. -/
def OnlyRegs (s t : State) (rs : List Reg) : Prop := KeepsRegs s t rs ∧ { t with regs := s.regs } = s

/-- Nothing but the registers of a list and events on their way to the watermaster has changed. -/
def OnlyRegsEvents (s t : State) (rs : List Reg) : Prop :=
  KeepsRegs s t rs ∧ { t with regs := s.regs, wmEvents := s.wmEvents } = s

/-- The events that a command sends to the watermaster. -/
def Sends (s t : State) (es : List WmEvent) : Prop := t.wmEvents = s.wmEvents ++ es

/-- The coherence message that leaves, where one does. -/
def cohOf : Output → Option CohMsg
  | .coh m => some m
  | _ => none

/-- One coherence message leaves, and it satisfies p. -/
def SendsCoh (s t : State) (p : CohMsg → Prop) : Prop :=
  t.out.dropLast = s.out ∧ ∃ m, t.out.getLast?.bind cohOf = some m ∧ p m

end Sys2Proof.Claims

open Sys2Proof.Claims

/-- A step runs the command at the front of the queue, and idles for one FCLK on an empty one. With command c at the front of
its queue, step is exec of c on the state with the rest of the queue. The model's choice (log entry 3): on an empty queue one
FCLK of a running block passes. Before cycle 1,799 the cycle count and the raw count are one higher; nothing else changes. -/
def Obligations.StepRunsTheQueue : Prop :=
  (∀ (c : Instr) (s : State) (rest : List Instr),
    Sys2Proof.Machine.step { s with pending := c :: rest } = Sys2Proof.Machine.exec c { s with pending := rest }) ∧
  (∀ s : State, Runs s → s.pending = [] → s.fld .TB_CYCLE F.TB_CYCLE_CYCLE < 1799 →
    ∃ t, Sys2Proof.Machine.step s = .next t ∧
      t.rd .TB_RAW = s.rd .TB_RAW + 1 ∧
      t.fld .TB_CYCLE F.TB_CYCLE_CYCLE = s.fld .TB_CYCLE F.TB_CYCLE_CYCLE + 1 ∧
      OnlyRegs s t [.TB_RAW, .TB_CYCLE])

/-- The state after reset is tidy. Memory is in its canonical form after reset, no store is on its way, and no command waits.
-/
def Obligations.ResetIsTidy : Prop :=
  Sys2Proof.Machine.State.reset.tidy ∧ Sys2Proof.Machine.State.reset.pending = []

/-- Every step keeps memory in its canonical form and leaves no store half done. From every state whose memory is in its
canonical form and whose journal of stores is empty, every step of every command leads to such a state. -/
def Obligations.StepKeepsTidy : Prop :=
  ∀ s t : State, s.tidy → Sys2Proof.Machine.step s = .next t → t.tidy

/-- No command stops the block or touches the commands that wait. Every command, on every state and all operands, answers a
next state: neither a fault nor a refusal. The commands that wait are the same ones. -/
def Obligations.EveryCommandGoesOn : Prop :=
  ∀ (c : Instr) (s : State), Gives c s (fun t => t.pending = s.pending)

/-- The commands of the reset controller's own sources, clocks and fuses, which act while every unit is held. -/
def Sys2Proof.Claims.ofResetController : Instr → Bool
  | .powerOn .. | .fundamental | .hot | .watchdog | .parDir _ | .parLevee | .parRstc | .warm | .twinRstIn | .clkloss _
  | .clockGoodRise _ | .clockGoodFallInReset _ | .blockResetAssert | .blockRelease | .unitsRelease | .otpPulseEnd _ => true
  | _ => false

/-- While block reset is asserted or the root clock is down, only the reset controller acts. Every other command, with all
operands, leaves the whole state as it is while a block reset is asserted or the units receive no clock. -/
def Obligations.HeldUnitsKeepTheirState : Prop :=
  ∀ (c : Instr) (s : State), ofResetController c = false → s.dark = true →
    Sys2Proof.Machine.exec c s = .next s

/-- A register write follows the type of each field, and a refused access changes nothing. An access that is not an aligned
one of 4 or 8 bytes completes as Unsupported Request and changes no register (R13), whether it comes as UNSUPPORTED_ACCESS or
as REGISTER_WRITE; UNSUPPORTED_ACCESS of an aligned one is no such access and does nothing. A write by a rider that may not
write there changes nothing. A write of a register of RW fields stores the value (OBS_TAGFILT). A write of 1 to a W1C bit
clears it and a write of 0 keeps it, and a bit that a hardware event sets in the same SCLK cycle stays set (R17: together
names such bits; SLAB_STATUS; the address register that it releases reads 0 once no bit is set). A write of an RO register
changes nothing (TB_TURN). Nothing else changes. -/
def Obligations.RegisterWritesFollowFieldTypes : Prop :=
  (∀ (s : State) (off size : Nat) (by_ : Requester), s.dark = false → s.journal = [] →
    Gives (.unsupportedAccess off size by_) s (fun t =>
      t = (if (size = 4 ∨ size = 8) ∧ off % size = 0 then s else { s with out := s.out ++ [.unsupported by_] }))) ∧
  (∀ (s : State) (off size : Nat) (v m : Word64) (by_ : Requester), Runs s → s.boot.scrub = false →
    s.ideKeepsOut by_ = false → ((size ≠ 4 ∧ size ≠ 8) ∨ off % size ≠ 0) →
    Gives (.registerWrite off size ⟨v, m⟩ by_) s (fun t => t = { s with out := s.out ++ [.unsupported by_] })) ∧
  (∀ (s : State) (off : Nat) (v m : Word64) (k : RiderId), Runs s → 2 ≤ k.val →
    (off % 4 = 0 → Gives (.registerWrite off 4 ⟨v, m⟩ (.rider k)) s (fun t => t = s)) ∧
    (off % 8 = 0 → Gives (.registerWrite off 8 ⟨v, m⟩ (.rider k)) s (fun t => t = s))) ∧
  (∀ (s : State) (v m : Word64), HostOpen s →
    Gives (.registerWrite 0x1D0018 8 ⟨v, m⟩ .pf0) s (fun t =>
      t.rd .OBS_TAGFILT = v ∧ OnlyRegs s t [.OBS_TAGFILT])) ∧
  (∀ (s : State) (k : TileId) (v m : Word64), HostOpen s → (s.tile k).inReset = false →
    Gives (.registerWrite (0x103260 + 0x4000 * k.val) 4 ⟨v, m⟩ .pf0) s (fun t =>
      t.rd (.SLAB_STATUS k.val) = s.rd (.SLAB_STATUS k.val) &&& ~~~ (v &&& ~~~ m &&& 7) ∧
      (t.rd (.SLAB_STATUS k.val) &&& 6 = 0 → t.rd (.SLAB_ERRADDR k.val) = 0) ∧
      (t.rd (.SLAB_STATUS k.val) &&& 6 ≠ 0 → t.rd (.SLAB_ERRADDR k.val) = s.rd (.SLAB_ERRADDR k.val)) ∧
      OnlyRegs s t [.SLAB_STATUS k.val, .SLAB_ERRADDR k.val])) ∧
  (∀ (s : State) (v m : Word64), HostOpen s →
    Gives (.registerWrite 0x90028 8 ⟨v, m⟩ .pf0) s (fun t => t = s))

/-- The turn, its appended cycles and the epoch set the timebase. TURN_START adds the rest of the turn to the raw count,
counts the turn, starts its cycles at 0, takes the stretch value that was due for it and samples the request: at most 40, and
40 with IF_ERR when its parity fails. The weirs count from 0 again, where no request waits for one. Where neither a halt nor
twin checking acts, memory keeps its bytes. APPENDED_CYCLES_START brings a stretched turn to cycle 1,800 and does nothing in
one without stretch. EPOCH, which comes as corrected time reaches the armed epoch, starts turn 0 there, with EPOCH_VALID set
and EPOCH_PEND clear, and the first eight turns take the full stretch of 40 (R243); otherwise it does nothing. -/
def Obligations.TurnsAdvanceTheTimebase : Prop :=
  (∀ (s : State) (request : BitVec 6) (parityOk : Bool), Runs s →
    Gives (.turnStart request parityOk) s (fun t =>
      t.rd .TB_RAW = s.rd .TB_RAW + BitVec.ofNat 64 (1800 + 45 * s.fld .ROT_STATUS F.ROT_STATUS_STRETCH - s.cycle) ∧
      t.rd .TB_TURN = s.rd .TB_TURN + 1 ∧ t.fld .TB_CYCLE F.TB_CYCLE_CYCLE = 0 ∧
      t.fld .PW_STRETCH F.PW_STRETCH_MGR = request.toNat ∧
      t.fld .ROT_STATUS F.ROT_STATUS_STRETCH = s.rot.m[1] % 64 ∧
      t.fld .ROT_STATUS F.ROT_STATUS_REQUEST =
        (if parityOk then max (min 40 request.toNat) (min 40 (s.fld .PW_STRETCH F.PW_STRETCH_FLOOR)) else 40) ∧
      (parityOk = false → t.fld .PW_STRETCH F.PW_STRETCH_IF_ERR = 1) ∧
      (s.home.held = [] → ∀ n, n < 32 → t.rd (.RSV_WEIR_COUNT n) = 0) ∧
      (s.obs.halt = none → s.twinActive = false → s.home.held = [] → KeepsBytes s t))) ∧
  (∀ s : State, Runs s → s.fld .ROT_STATUS F.ROT_STATUS_STRETCH ≠ 0 → s.cycle < 1800 →
    Gives .appendedCyclesStart s (fun t =>
      t.cycle = 1800 ∧ t.rd .TB_RAW = s.rd .TB_RAW + BitVec.ofNat 64 (1800 - s.cycle) ∧
      OnlyRegs s t [.TB_RAW, .TB_CYCLE])) ∧
  (∀ s : State, Runs s → s.fld .ROT_STATUS F.ROT_STATUS_STRETCH = 0 →
    Sys2Proof.Machine.exec .appendedCyclesStart s = .next s) ∧
  (∀ s : State, Runs s → s.fld .ROT_STATUS F.ROT_STATUS_EPOCH_PEND = 1 →
    (s.rd .TB_RAW + s.rd .TB_OFFSET).toNat ≤ (s.rd .TB_EPOCH).toNat →
    Gives .epoch s (fun t =>
      t.fld .ROT_STATUS F.ROT_STATUS_STRETCH = 40 ∧ t.rot.epoch = s.rd .TB_EPOCH ∧
      t.rd .TB_TURN = 0 ∧ t.fld .TB_CYCLE F.TB_CYCLE_CYCLE = 0 ∧ t.rd .TB_RAW = s.rd .TB_EPOCH - s.rd .TB_OFFSET ∧
      t.fld .ROT_STATUS F.ROT_STATUS_EPOCH_VALID = 1 ∧ t.fld .ROT_STATUS F.ROT_STATUS_EPOCH_PEND = 0)) ∧
  (∀ s : State, Runs s → s.fld .ROT_STATUS F.ROT_STATUS_EPOCH_PEND = 0 →
    Sys2Proof.Machine.exec .epoch s = .next s)

/-- Arming and stopping a rotation and arming the epoch. START_ARM arms an idle rotation whose epoch is valid, whose start
turn is at least two turns ahead and whose latency signature agrees, and latches the start turn; otherwise ARM_ERR takes the
cause and the state stays. STOP_ARM latches the end turn of a running rotation. EPOCH_ARM sets EPOCH_PEND when the epoch lies
at least 2^20 FCLK ahead and none is pending; its registers then take no write, and so hold what is latched.
TIMEBASE_MISMATCH raises source 132. Nothing else changes. -/
def Obligations.RotationArms : Prop :=
  (∀ s : State, Runs s →
    Gives .startArm s (fun t =>
      let e := if s.fld .ROT_STATUS F.ROT_STATUS_STATE ≠ 0 then 4
        else if s.fld .ROT_STATUS F.ROT_STATUS_EPOCH_VALID = 0 then 3
        else if (s.rd .ROT_START).toNat < (s.rd .TB_TURN).toNat + 2 then 1
        else if s.rd .ROT_LATSIG ≠ s.rd .TB_LATSIG then 2 else 0
      let w := F.ROT_STATUS_ARM_ERR.set (s.rd .ROT_STATUS) e
      (if e = 0 then t.rd .ROT_STATUS = F.ROT_STATUS_STATE.set w 1 ∧
          t.rot = { s.rot with start := s.rd .ROT_START, stop := none }
        else t.rd .ROT_STATUS = w ∧ t.rot = s.rot) ∧
      KeepsRegs s t [.ROT_STATUS] ∧ { t with regs := s.regs, rot := s.rot } = s)) ∧
  (∀ s : State, Runs s →
    Gives .stopArm s (fun t =>
      let e := if s.fld .ROT_STATUS F.ROT_STATUS_STATE ≠ 2 then 4
        else if (s.rd .ROT_STOP).toNat < (s.rd .TB_TURN).toNat + 2 then 1 else 0
      t.rd .ROT_STATUS = F.ROT_STATUS_ARM_ERR.set (s.rd .ROT_STATUS) e ∧
      t.rot = (if e = 0 then { s.rot with stop := some (s.rd .ROT_STOP) } else s.rot) ∧
      KeepsRegs s t [.ROT_STATUS] ∧ { t with regs := s.regs, rot := s.rot } = s)) ∧
  (∀ s : State, Runs s →
    Gives .epochArm s (fun t =>
      let e := if s.fld .ROT_STATUS F.ROT_STATUS_STATE ≠ 0 then 4
        else if s.fld .TB_CHIP F.TB_CHIP_IN_DOMAIN = 1 ∧ s.fld .TB_CHIP F.TB_CHIP_OFFSET_VALID = 0 then 5
        else if (s.rd .TB_EPOCH).toNat < (s.rd .TB_RAW + s.rd .TB_OFFSET).toNat + 2 ^ 20 then 1
        else if s.fld .ROT_STATUS F.ROT_STATUS_EPOCH_PEND = 1 then 4 else 0
      let w := F.ROT_STATUS_ARM_ERR.set (s.rd .ROT_STATUS) e
      t.rd .ROT_STATUS = (if e = 0 then F.ROT_STATUS_EPOCH_PEND.set w 1 else w) ∧ OnlyRegs s t [.ROT_STATUS])) ∧
  (∀ (s : State) (v m : Word64), HostOpen s → s.fld .ROT_STATUS F.ROT_STATUS_EPOCH_PEND = 1 →
    Gives (.registerWrite 0x90038 8 ⟨v, m⟩ .pf0) s (fun t => t = s) ∧
    Gives (.registerWrite 0x90040 8 ⟨v, m⟩ .pf0) s (fun t => t = s)) ∧
  (∀ s : State, Runs s →
    Sys2Proof.Machine.exec .timebaseMismatch s = .next { s with wmEvents := s.wmEvents ++ [⟨132, [], none⟩] })

/-- Nothing but a link, registers of a list and events on their way to the watermaster has changed. -/
def Sys2Proof.Claims.OnlyLink (s t : State) (l : LinkId) (rs : List Reg) : Prop :=
  KeepsRegs s t rs ∧ (∀ k, k ≠ l → t.link k = s.link k) ∧
    { t with regs := s.regs, links := s.links, wmEvents := s.wmEvents } = s

/-- The messages of a ping. PING_GO on a link that is UP and not busy starts a ping as initiator, and on one that is not UP
ends FAILED with cause 3. M1 makes this side the responder, unless it has itself started one and has the lower pair, and
records the far offset and the one-way difference. M2, M3 and M4 are taken only by the side that waits for them: M2 records
the difference and the round trip, M3 the round trip of both sides, and M4 the far round trip, after which the ping has
ended. A PING parcel does what its message does; one with another number does nothing. A message that does not come for 8
turns ends the ping FAILED with cause 0. -/
def Obligations.PingsMeasureALink : Prop :=
  (∀ (s : State) (l : LinkId), Runs s → s.fld (.LK_PING l.val) F.LK_PING_PSTATE ≠ 1 →
    Gives (.pingGo l) s (fun t =>
      (if s.fld (.CN_STATUS l.val) F.CN_STATUS_LSTATE = 2 then
        t.fld (.LK_PING l.val) F.LK_PING_PSTATE = 1 ∧ (t.link l).ping.busy = true ∧
          (t.link l).ping.initiator = true ∧ (t.link l).ping.due = some 1
      else t.fld (.LK_PING l.val) F.LK_PING_PSTATE = 3 ∧ t.fld (.LK_PING l.val) F.LK_PING_FAIL = 3 ∧
          (t.link l).ping.busy = false) ∧
      OnlyLink s t l [.LK_PING l.val])) ∧
  (∀ (s : State) (l : LinkId) (m : PingMsg), Runs s → s.linkUp l = true →
    ¬ ((s.link l).ping.busy = true ∧ (s.link l).ping.initiator = true ∧
      s.sidePair < (if m.side then 512 else 0) + m.chip.toNat) →
    Gives (.pingM1 l m) s (fun t =>
      t.fld (.LK_PING l.val) F.LK_PING_PSTATE = 1 ∧ t.fld (.LK_PING l.val) F.LK_PING_FAR_DEPTH = m.depth.toNat ∧
      t.rd (.LK_FAR l.val) = m.offset ∧
      t.rd (.LK_DELTA l.val) = (if s.epochValid && m.epochValid then s.timestamp else s.rd .TB_RAW) - m.t1 ∧
      (t.link l).ping.busy = true ∧ (t.link l).ping.initiator = false ∧ (t.link l).ping.due = some 2 ∧
      OnlyLink s t l [.LK_PING l.val, .LK_FAR l.val, .LK_DELTA l.val])) ∧
  (∀ (s : State) (l : LinkId) (m : PingMsg), Runs s → s.linkUp l = true → (s.link l).ping.busy = true →
    (s.link l).ping.initiator = true → (s.link l).ping.due = none →
    Gives (.pingM2 l m) s (fun t =>
      let both := (s.link l).ping.valid && m.epochValid
      let a1 := if both then (s.link l).ping.a1 else (s.link l).ping.a1Raw
      let a2 := if both then s.timestamp else s.rd .TB_RAW
      t.rd (.LK_DELTA l.val) = a2 - m.t2 ∧
      t.fld (.LK_RTT l.val) F.LK_RTT_RTT = ((a2 - a1) - (m.t2 - m.t1)).toNat % 2 ^ 16 ∧
      (t.link l).ping.due = some 3 ∧ OnlyLink s t l [.LK_PING l.val, .LK_DELTA l.val, .LK_RTT l.val]) ∧
    Gives (.pingM4 l m) s (fun t =>
      t.fld (.LK_RTT l.val) F.LK_RTT_FAR_RTT = m.rtt.toNat ∧ (t.link l).ping.busy = false ∧
      (t.fld (.LK_PING l.val) F.LK_PING_PSTATE = 2 ∨ t.fld (.LK_PING l.val) F.LK_PING_PSTATE = 3) ∧
      OnlyLink s t l [.LK_PING l.val, .LK_RTT l.val, .LK_LAT l.val, .TB_LATSIG, .CN_STATUS l.val])) ∧
  (∀ (s : State) (l : LinkId) (m : PingMsg), Runs s → s.linkUp l = true → (s.link l).ping.busy = true →
    (s.link l).ping.initiator = false → (s.link l).ping.due = none →
    Gives (.pingM3 l m) s (fun t =>
      t.fld (.LK_RTT l.val) F.LK_RTT_FAR_RTT = m.rtt.toNat ∧ (t.link l).ping.due = some 4 ∧
      OnlyLink s t l [.LK_PING l.val, .LK_RTT l.val])) ∧
  (∀ (s : State) (l : LinkId) (m : PingMsg), Runs s → m.num = 0 ∨ 4 < m.num →
    Sys2Proof.Machine.exec (.ping l m) s = .next s) ∧
  (∀ (s : State) (l : LinkId) (m : PingMsg),
    (m.num = 1 → Sys2Proof.Machine.exec (.ping l m) s = Sys2Proof.Machine.exec (.pingM1 l m) s) ∧
    (m.num = 2 → Sys2Proof.Machine.exec (.ping l m) s = Sys2Proof.Machine.exec (.pingM2 l m) s) ∧
    (m.num = 3 → Sys2Proof.Machine.exec (.ping l m) s = Sys2Proof.Machine.exec (.pingM3 l m) s) ∧
    (m.num = 4 → Sys2Proof.Machine.exec (.ping l m) s = Sys2Proof.Machine.exec (.pingM4 l m) s)) ∧
  (∀ (s : State) (l : LinkId), Runs s → (s.link l).ping.busy = true → (s.link l).ping.due = none →
    8 ≤ (s.link l).ping.waited →
    Gives (.pingTimeout l) s (fun t =>
      t.fld (.LK_PING l.val) F.LK_PING_PSTATE = 3 ∧ t.fld (.LK_PING l.val) F.LK_PING_FAIL = 0 ∧
      (t.link l).ping.busy = false ∧ OnlyLink s t l [.LK_PING l.val, .CN_STATUS l.val]))

/-- A source of a block reset has been detected: its bit stands in RST_CAUSE beside the earlier ones, and the assertion is due.
Registers of a list and the reset controller apart, nothing has changed. -/
def Sys2Proof.Claims.Detects (s t : State) (bit : Nat) (cold keep : Bool) (rs : List Reg) : Prop :=
  t.rd .RST_CAUSE = s.rd .RST_CAUSE ||| BitVec.ofNat 64 (2 ^ bit) ∧ t.rst.phase = .detected ∧ t.rst.cold = cold ∧
    t.rst.keep = keep ∧ KeepsRegs s t (.RST_CAUSE :: rs) ∧ { t with regs := s.regs, rst := s.rst } = s

/-- Assertion and release of a block reset. A detected reset is asserted when the reference runs and no fuse write is in
progress: every tile, link and slot is as at reset, no register of a cold reset keeps a value but RST_CAUSE, RST_RETIRED,
CLK_STATUS, RST_STATUS and LC_STATE, and what has left the block stays. A reset that waited for the reference is asserted
when it returns. With both clocks and the rails good the register bus, the watermaster and the controller are released, then
the units, and when the slices are initialized the reset is over, or the mirrors reload first. A clock that falls during the
count is recorded. The end of a fuse pulse whose check passes sets the fuse and ends the command. -/
def Obligations.BlockResetRunsItsPhases : Prop :=
  ∀ s : State, s.journal = [] →
    (s.rst.phase = .detected → s.rst.refDown = false → s.rst.fuse = none →
      Gives .blockResetAssert s (fun t =>
        t.rst.phase = .asserted ∧ t.tiles = State.reset.tiles ∧ t.links = State.reset.links ∧
        t.eslots = State.reset.eslots ∧ t.home = State.reset.home ∧ t.out = s.out ∧
        (s.rst.cold = true → ∀ r, r ∉ [Reg.RST_CAUSE, .RST_RETIRED, .CLK_STATUS, .RST_STATUS, .LC_STATE] →
          t.rd r = r.resetVal) ∧
        t.fld .RST_STATUS F.RST_STATUS_SCOPE = (if s.rst.cold then 0 else 1) ∧
        t.fld .RST_STATUS F.RST_STATUS_T1_KEPT = (if s.rst.cold = false ∧ s.rst.keep then 1 else 0))) ∧
    (s.rst.phase = .detected → s.rst.refDown = true → s.rst.fuse = none →
      Gives (.clockGoodRise false) s (fun t =>
        t.rst.phase = .asserted ∧ t.rst.refDown = false ∧ t.tiles = State.reset.tiles)) ∧
    (s.rst.phase = .asserted → s.rst.rootDown = true →
      Gives (.clockGoodRise true) s (fun t =>
        t.rst = { s.rst with rootDown := false } ∧ t.fld .CLK_STATUS F.CLK_STATUS_CG_ROOT = 1 ∧
        KeepsRegs s t [.CLK_STATUS] ∧ { t with regs := s.regs, rst := s.rst } = s)) ∧
    (s.rst.phase = .asserted →
      Gives (.clockGoodFallInReset true) s (fun t =>
        t.rst = { s.rst with rootDown := true } ∧ t.fld .CLK_STATUS F.CLK_STATUS_CG_ROOT = 0 ∧
        KeepsRegs s t [.CLK_STATUS] ∧ { t with regs := s.regs, rst := s.rst } = s)) ∧
    (s.rst.phase = .asserted → s.rst.refDown = false → s.rst.rootDown = false → s.rst.powerOn = true →
      s.rst.lifecycle ≤ 3 →
      Sys2Proof.Machine.exec .blockRelease s =
        .next { s with rst := { s.rst with phase := .released, twinOut := false } }) ∧
    (s.rst.phase = .released → s.rst.rootDown = false →
      Sys2Proof.Machine.exec .unitsRelease s =
        .next { s with rst := { s.rst with phase := .units, spared := s.fld .RST_RETIRED F.RST_RETIRED_FUSED } }) ∧
    (s.rst.phase = .units → s.rst.rootDown = false →
      Gives .sliceInitDone s (fun t =>
        t.rst.phase = (if s.rst.keep then .mirrors else .none) ∧
        (s.lifecycle = 3 → t.boot.scrub = true) ∧
        (s.lifecycle ≠ 3 → (t.rider 0).running = true ∧
          (t.rider 0).entry = (if s.rst.cold then 0xF1000000000000#64 else s.rd (.RC_ENTRY 0))))) ∧
    (s.rst.phase = .mirrors → s.rst.rootDown = false →
      Sys2Proof.Machine.exec .mirrorReload s = .next { s with rst := { s.rst with phase := .none } }) ∧
    (∀ p n, s.rst.phase = .none → s.rst.fuse = some (p, n) →
      Gives (.otpPulseEnd true) s (fun t =>
        t.rst.fuse = none ∧ t.fld .RST_RETIRE F.RST_RETIRE_BUSY = 0 ∧ t.fld .RST_RETIRE F.RST_RETIRE_RESULT = 0 ∧
        t.fld .RST_STATUS F.RST_STATUS_OTP_BUSY = 0 ∧
        t.rd .RST_RETIRED = s.rd .RST_RETIRED ||| BitVec.ofNat 64 (2 ^ p) ∧
        KeepsRegs s t [.RST_RETIRED, .RST_RETIRE, .RST_STATUS] ∧ { t with regs := s.regs, rst := s.rst } = s))

/-- A unit reset sets the unit's bit and cause 10 and leaves the unit as at reset. A unit that is not in reset goes into it
while no block reset is in progress: its bit reads 1, RST_CAUSE bit 10 is set (bit 6 with RST_PARTILE for PAR_SEQ), and the
tile's, link's or slot's own state is that of reset, but for a link's ping, whose registers are the rotation unit's, and the
answers that a slot still waits for. A tier-2 group is ABSENT, the observation port keeps only the dumps that tiles run, and
a rider core stops; a rider core 0 or 1 needs CLOSED. A unit that is in reset already stays as it is. The release clears the
bit, and a tile runs again; a rider core starts at its entry. -/
def Obligations.UnitResetsHoldTheirUnit : Prop :=
  ∀ s : State, Runs s → s.rst.phase = .none →
    (∀ k : TileId, ResetUnit.tile k ∉ s.rst.units →
      Gives (.tileReset k) s (fun t =>
        t.tile k = { Tile.reset with inReset := true } ∧ ResetUnit.tile k ∈ t.rst.units ∧
        (t.rd .RST_TILE).getLsbD k.val = true ∧ (t.rd .RST_CAUSE).getLsbD 10 = true) ∧
      Gives (.parSeq k) s (fun t =>
        t.tile k = { Tile.reset with inReset := true } ∧ ResetUnit.tile k ∈ t.rst.units ∧
        (t.rd .RST_TILE).getLsbD k.val = true ∧ (t.rd .RST_PARTILE).getLsbD k.val = true ∧
        (t.rd .RST_CAUSE).getLsbD 6 = true)) ∧
    (∀ k : TileId, ResetUnit.tile k ∈ s.rst.units →
      Sys2Proof.Machine.exec (.tileReset k) s = .next s ∧ Sys2Proof.Machine.exec (.parSeq k) s = .next s) ∧
    (∀ l : LinkId, ResetUnit.link l ∉ s.rst.units →
      Gives (.linkReset l) s (fun t =>
        t.link l = { Link.reset with ping := (t.link l).ping } ∧ ResetUnit.link l ∈ t.rst.units ∧
        (t.rd .RST_LINK).getLsbD l.val = true ∧ (t.rd .RST_CAUSE).getLsbD 10 = true)) ∧
    (∀ e : EngineId, ResetUnit.slot e ∉ s.rst.units →
      Gives (.slotReset e) s (fun t =>
        t.eslot e = { ESlot.reset with reqs := (t.eslot e).reqs } ∧ ResetUnit.slot e ∈ t.rst.units ∧
        (t.rd .RST_UNIT).getLsbD e.val = true ∧ (t.rd .RST_CAUSE).getLsbD 10 = true)) ∧
    (∀ g : Fin 4, ResetUnit.tier2 g ∉ s.rst.units →
      Gives (.t2Reset g) s (fun t =>
        t.fld (.T2_STATUS g.val) F.T2_STATUS_STATE = 0 ∧ ResetUnit.tier2 g ∈ t.rst.units ∧ (t.rd .RST_UNIT).getLsbD (16 + g.val) = true ∧
        (t.rd .RST_CAUSE).getLsbD 10 = true)) ∧
    (ResetUnit.observation ∉ s.rst.units →
      Gives .obsReset s (fun t =>
        t.obs = { Obs.reset with dumps := s.obs.dumps } ∧ ResetUnit.observation ∈ t.rst.units ∧
        (t.rd .RST_UNIT).getLsbD 20 = true ∧ (t.rd .RST_CAUSE).getLsbD 10 = true)) ∧
    (∀ c : Fin 2, s.fld .LV_CTRL F.LV_CTRL_CLOSED = 1 → ResetUnit.rider c ∉ s.rst.units →
      Gives (.riderReset c) s (fun t =>
        (t.rider (riderOfReset c)).running = false ∧ ResetUnit.rider c ∈ t.rst.units ∧ (t.rd .RST_UNIT).getLsbD (21 + c.val) = true ∧
        (t.rd .RST_CAUSE).getLsbD 10 = true)) ∧
    (∀ c : Fin 2, s.fld .LV_CTRL F.LV_CTRL_CLOSED = 0 → Sys2Proof.Machine.exec (.riderReset c) s = .next s) ∧
    (∀ k : TileId, s.rst.units = [.tile k] →
      Gives (.unitRelease (.tile k)) s (fun t =>
        t.rst.units = [] ∧ (t.tile k).inReset = false ∧ (t.rd .RST_TILE).getLsbD k.val = false ∧
        KeepsBytes s t ∧ KeepsRegs s t [.RST_TILE, .COH_DEAD (k.val / 32)])) ∧
    (∀ l : LinkId, s.rst.units = [.link l] →
      Gives (.unitRelease (.link l)) s (fun t =>
        t.rst.units = [] ∧ (t.rd .RST_LINK).getLsbD l.val = false ∧ KeepsRegs s t [.RST_LINK] ∧
        { t with regs := s.regs, rst := s.rst } = s)) ∧
    (∀ c : Fin 2, s.rst.units = [.rider c] →
      Gives (.unitRelease (.rider c)) s (fun t =>
        t.rst.units = [] ∧ (t.rd .RST_UNIT).getLsbD (21 + c.val) = false ∧
        (t.rider (riderOfReset c)).running = true ∧ (t.rider (riderOfReset c)).entry = s.rd (.RC_ENTRY c.val) ∧
        KeepsRegs s t [.RST_UNIT]))

/-- Sources of a block reset and their scope, the watchdog, the retirement of a tile, and the power interface. WD_ENABLE
starts the count while ENABLE is 0, and a write while it is 1 is ignored. Only the key 0xC35A restarts the count. RETIRE
begins a fuse write, unless two tiles are retired (result 1), the tile does not exist or is retired (result 2), or a write
runs. The estimate goes to the power manager, its reports enter PW_TELEM and PW_STATE, and boost, peak and thermal raise
sources 142, 141 and 144. Nothing else changes. While no reset is in progress each source sets its bit of RST_CAUSE, keeps
the other bits, and asks for a cold or a warm reset; tier 1 is kept by every warm source but CLKLOSS. A hot reset is a source
only while HF_CTRL.HR0 is 1, TWIN_RST_IN only while TB_CHIP.TWIN is 1, the watchdog only when it is enabled and its time is
over. A loss of a clock also shows in CLK_STATUS and RST_STATUS. The rails' rise leaves only bit 0 set. -/
def Obligations.WatchdogRetirementAndPower : Prop :=
  (
    ∀ s : State, Runs s →
      (∀ n, s.fld .RST_WD F.RST_WD_ENABLE = 0 →
        Gives (.wdEnable n) s (fun t =>
          t.fld .RST_WD F.RST_WD_ENABLE = 1 ∧ t.fld .RST_WD F.RST_WD_TIMEOUT = n.toNat ∧
          t.rst = { s.rst with wdStart := s.rd .TB_RAW } ∧
          KeepsRegs s t [.RST_WD] ∧ { t with regs := s.regs, rst := s.rst } = s)) ∧
      (∀ n, s.fld .RST_WD F.RST_WD_ENABLE = 1 → Sys2Proof.Machine.exec (.wdEnable n) s = .next s) ∧
      (s.fld .RST_WD F.RST_WD_ENABLE = 1 →
        Sys2Proof.Machine.exec (.kick 0xC35A) s = .next { s with rst := { s.rst with wdStart := s.rd .TB_RAW } }) ∧
      (∀ key, key ≠ 0xC35A → Sys2Proof.Machine.exec (.kick key) s = .next s) ∧
      (∀ p, s.fld .RST_RETIRE F.RST_RETIRE_BUSY = 0 →
        Gives (.retire p) s (fun t =>
          t.fld .RST_RETIRE F.RST_RETIRE_PTILE = p.toNat ∧
          (if 2 ≤ ((List.range 50).filter (fun i => (s.rd .RST_RETIRED).getLsbD i)).length then
            t.fld .RST_RETIRE F.RST_RETIRE_RESULT = 1 ∧ t.rst = s.rst
          else if 49 < p.toNat ∨ (s.rd .RST_RETIRED).getLsbD p.toNat = true then
            t.fld .RST_RETIRE F.RST_RETIRE_RESULT = 2 ∧ t.rst = s.rst
          else t.fld .RST_RETIRE F.RST_RETIRE_BUSY = 1 ∧ t.fld .RST_STATUS F.RST_STATUS_OTP_BUSY = 1 ∧
            t.rst = { s.rst with fuse := some (p.toNat, 0) }) ∧
          KeepsRegs s t [.RST_RETIRE, .RST_STATUS] ∧ { t with regs := s.regs, rst := s.rst } = s)) ∧
      (∀ energy, Gives (.activityEstimate energy) s (fun t =>
        t.fld .PW_TELEM F.PW_TELEM_ENERGY = energy.toNat ∧ t.out = s.out ++ [.activity energy] ∧
        KeepsRegs s t [.PW_TELEM] ∧ { t with regs := s.regs, out := s.out } = s)) ∧
      (∀ power window boostLeft peakLeft, Gives (.powerReport power window boostLeft peakLeft) s (fun t =>
        t.fld .PW_TELEM F.PW_TELEM_POWER = power.toNat ∧ t.fld .PW_STATE F.PW_STATE_WINDOW = window.toNat ∧
        t.fld .PW_STATE F.PW_STATE_BOOST_LEFT = boostLeft.toNat ∧
        t.fld .PW_STATE F.PW_STATE_PEAK_LEFT = peakLeft.toNat ∧ OnlyRegs s t [.PW_TELEM, .PW_STATE])) ∧
      Sys2Proof.Machine.exec .powerBoost s = .next { s with wmEvents := s.wmEvents ++ [⟨142, [], none⟩] } ∧
      Sys2Proof.Machine.exec .powerPeak s = .next { s with wmEvents := s.wmEvents ++ [⟨141, [], none⟩] } ∧
      Sys2Proof.Machine.exec .thermal s = .next { s with wmEvents := s.wmEvents ++ [⟨144, [], none⟩] }) ∧
  (
    ∀ s : State, s.journal = [] → s.rst.phase = .none →
      (s.rst.powerOn = true → ∀ lc fuses, Gives (.powerOn false lc fuses) s (fun t =>
        Detects s t 0 true false [] ∧ t.rst.powerOn = false)) ∧
      (s.rst.powerOn = false → ∀ lc fuses, Gives (.powerOn true lc fuses) s (fun t =>
        t.rd .RST_CAUSE = 1 ∧ t.rd .RST_RETIRED = fuses.setWidth 64 ∧ t.rst.lifecycle = lc.toNat ∧ t.rst.powerOn = true ∧
        t.rst.phase = .detected ∧ t.rst.cold = true ∧ t.fld .CLK_STATUS F.CLK_STATUS_LOSSES = 0 ∧
        KeepsRegs s t [.RST_CAUSE, .RST_RETIRED, .RST_STATUS, .CLK_STATUS] ∧
        { t with regs := s.regs, rst := s.rst } = s)) ∧
      Gives .fundamental s (fun t => Detects s t 1 true false []) ∧
      (s.fld .HF_CTRL F.HF_CTRL_HR0 = 1 → Gives .hot s (fun t => Detects s t 2 true false [])) ∧
      (s.fld .HF_CTRL F.HF_CTRL_HR0 = 0 → Sys2Proof.Machine.exec .hot s = .next s) ∧
      (s.fld .RST_WD F.RST_WD_ENABLE = 1 →
        max 1 (s.fld .RST_WD F.RST_WD_TIMEOUT) * 18000 ≤ (s.rd .TB_RAW - s.rst.wdStart).toNat →
        Gives .watchdog s (fun t => Detects s t 5 false true [])) ∧
      (∀ n, Gives (.parDir n) s (fun t => Detects s t 7 false true [])) ∧
      Gives .parLevee s (fun t => Detects s t 8 true false []) ∧
      Gives .parRstc s (fun t => Detects s t 9 true false []) ∧
      Gives .warm s (fun t => Detects s t 10 false true []) ∧
      (s.fld .TB_CHIP F.TB_CHIP_TWIN = 1 → Gives .twinRstIn s (fun t => Detects s t 11 false true [])) ∧
      (s.fld .TB_CHIP F.TB_CHIP_TWIN = 0 → Sys2Proof.Machine.exec .twinRstIn s = .next s) ∧
      (s.rst.rootDown = false → Gives (.clkloss true) s (fun t =>
        Detects s t 12 false false [.CLK_STATUS, .RST_STATUS] ∧ t.rst.rootDown = true ∧
        t.fld .CLK_STATUS F.CLK_STATUS_CG_ROOT = 0 ∧ t.fld .RST_STATUS F.RST_STATUS_ROOT_LOST = 1 ∧
        t.fld .CLK_STATUS F.CLK_STATUS_LOSSES = min 65535 (s.fld .CLK_STATUS F.CLK_STATUS_LOSSES + 1))) ∧
      (s.rst.refDown = false → Gives (.clkloss false) s (fun t =>
        Detects s t 12 false false [.CLK_STATUS, .RST_STATUS] ∧ t.rst.refDown = true ∧
        t.fld .CLK_STATUS F.CLK_STATUS_CG_REF = 0 ∧ t.fld .RST_STATUS F.RST_STATUS_REF_LOST = 1 ∧
        t.fld .CLK_STATUS F.CLK_STATUS_LOSSES = min 65535 (s.fld .CLK_STATUS F.CLK_STATUS_LOSSES + 1))))

/-- The sequencer of tile k begins the instruction w: it runs, does not wait, is not held, does not stand at its breakpoint,
and program memory holds w at its program counter, inside the program. -/
def Sys2Proof.Claims.SeqAt (s : State) (k : TileId) (w : Word32) : Prop :=
  Runs s ∧ s.seqReady k = true ∧ s.atBreak k = false ∧ (s.tile k).pc.toNat < (s.tile k).progSize * 256 ∧
    (s.tile k).pmWord (s.tile k).pc.toNat = w

/-- Nothing but tile k, registers of a list, events and counters has changed: no other tile, no memory, no other unit. -/
def Sys2Proof.Claims.OnlyTile (s t : State) (k : TileId) (rs : List Reg) : Prop :=
  KeepsRegs s t rs ∧ (∀ j, j ≠ k → t.tile j = s.tile j) ∧
    { t with regs := s.regs, tiles := s.tiles, obs := s.obs, wmEvents := s.wmEvents } = s ∧
    { t.obs with bpPass := s.obs.bpPass, counts := s.obs.counts } = s.obs

/-- Sequencer register d takes v (s0 takes nothing and reads 0), every other one stays; the program counter goes to pc; nothing
else of the tile has changed. -/
def Sys2Proof.Claims.SeqSets (s t : State) (k : TileId) (d : Nat) (v pc : Word64) : Prop :=
  (∀ n, t.rdS k n = if n = d ∧ n ≠ 0 then v else s.rdS k n) ∧ t.rdS k 0 = 0 ∧ (t.tile k).pc = pc ∧
    t.fld (.SQ_PC k.val) F.SQ_PC_PC = pc.toNat % 2 ^ 16 ∧
    { t.tile k with s := (s.tile k).s, pc := (s.tile k).pc } = s.tile k

/-- The command c gives register SD of its word the value v, goes on with the next instruction, and changes nothing else. -/
def Sys2Proof.Claims.SeqResult (c : TileId → Word32 → Instr) (s : State) (k : TileId) (w : Word32) (v : Word64) : Prop :=
  Gives (c k w) s (fun t => SeqSets s t k (bitsOf w 25 21) v ((s.tile k).pc + 4) ∧ OnlyTile s t k [.SQ_PC k.val] ∧
    t.wmEvents = s.wmEvents)

/-- The sequencer of tile k stops with an exception (R188): FAULTED, the code in SQ_EXC, the program counter at the
instruction, source 2 of the tile; registers and memory stay. -/
def Sys2Proof.Claims.SeqFaults (s t : State) (k : TileId) (code : Nat) : Prop :=
  t.fld (.SQ_STATUS k.val) F.SQ_STATUS_STATE = 3 ∧ t.fld (.SQ_EXC k.val) F.SQ_EXC_VALID = 1 ∧
    t.fld (.SQ_EXC k.val) F.SQ_EXC_CODE = code ∧ t.tile k = s.tile k ∧
    t.wmEvents = s.wmEvents ++ [⟨2, [], some k.val⟩] ∧ OnlyTile s t k [.SQ_STATUS k.val, .SQ_EXC k.val]

/-- The sequencer of tile k waits with the instruction w (R182). -/
def Sys2Proof.Claims.SeqWaits (s t : State) (k : TileId) (w : Word32) : Prop :=
  t.fld (.SQ_STATUS k.val) F.SQ_STATUS_WAITING = 1 ∧ (t.tile k).wait = some (.instr w) ∧
    { t.tile k with wait := none, draining := (s.tile k).draining } = s.tile k ∧ OnlyTile s t k [.SQ_STATUS k.val]

/-- Register-register and immediate instructions of the sequencer. For every register and value: ALU and its eleven
operations give SD the sum, difference, AND, OR, XOR, shifts by SB modulo 64, comparisons (1 or 0) and product of SA and SB
modulo 2^64; the program counter goes to the next word; nothing else changes. s0 takes no value and reads 0. ALU with another
FN, and any of these words with a bit set in its reserved field, stops with ILLEGAL. ADDI and SLTI take the sign-extended
immediate, ANDI, ORI and XORI the zero-extended one, LUI the sign-extended one 16 bits higher, and the shifts an amount below
64; SD takes the result, the program counter goes to the next word, and nothing else changes. A shift amount of 64 or more
stops with ILLEGAL. -/
def Obligations.SequencerArithmetic : Prop :=
  (∀ (s : State) (k : TileId) (w : Word32), SeqAt s k w → bitsOf w 31 26 = 0x01 → bitsOf w 10 4 = 0 →
    let a := s.rdS k (bitsOf w 20 16)
    let b := s.rdS k (bitsOf w 15 11)
    let both (fn : Nat) (c : TileId → Word32 → Instr) (v : Word64) : Prop :=
      bitsOf w 3 0 = fn → SeqResult c s k w v ∧ SeqResult .alu s k w v
    both 0 .aluAdd (a + b) ∧ both 1 .aluSub (a - b) ∧ both 2 .aluAnd (a &&& b) ∧ both 3 .aluOr (a ||| b) ∧
    both 4 .aluXor (a ^^^ b) ∧ both 5 .sll (a <<< (b.toNat % 64)) ∧ both 6 .srl (a >>> (b.toNat % 64)) ∧
    both 7 .sra (a.sshiftRight (b.toNat % 64)) ∧ both 8 .slt (if a.toInt < b.toInt then 1 else 0) ∧
    both 9 .sltu (if a.toNat < b.toNat then 1 else 0) ∧ both 10 .mul (a * b) ∧
    (10 < bitsOf w 3 0 → Gives (.alu k w) s (fun t => SeqFaults s t k 1))) ∧
  (∀ (s : State) (k : TileId) (w : Word32), SeqAt s k w → bitsOf w 31 26 = 0x01 → bitsOf w 10 4 ≠ 0 →
    Gives (.alu k w) s (fun t => SeqFaults s t k 1)) ∧
  (∀ (s : State) (k : TileId) (w : Word32), SeqAt s k w →
    let a := s.rdS k (bitsOf w 20 16)
    let i := (w.setWidth 16).signExtend 64
    let z := (w.setWidth 16).setWidth 64
    let n := bitsOf w 15 0
    (bitsOf w 31 26 = 0x02 → SeqResult .addi s k w (a + i)) ∧
    (bitsOf w 31 26 = 0x03 → SeqResult .andi s k w (a &&& z)) ∧
    (bitsOf w 31 26 = 0x04 → SeqResult .ori s k w (a ||| z)) ∧
    (bitsOf w 31 26 = 0x05 → SeqResult .xori s k w (a ^^^ z)) ∧
    (bitsOf w 31 26 = 0x06 → n < 64 → SeqResult .slli s k w (a <<< n)) ∧
    (bitsOf w 31 26 = 0x07 → n < 64 → SeqResult .srli s k w (a >>> n)) ∧
    (bitsOf w 31 26 = 0x08 → n < 64 → SeqResult .srai s k w (a.sshiftRight n)) ∧
    (bitsOf w 31 26 = 0x06 → 64 ≤ n → Gives (.slli k w) s (fun t => SeqFaults s t k 1)) ∧
    (bitsOf w 31 26 = 0x07 → 64 ≤ n → Gives (.srli k w) s (fun t => SeqFaults s t k 1)) ∧
    (bitsOf w 31 26 = 0x08 → 64 ≤ n → Gives (.srai k w) s (fun t => SeqFaults s t k 1)) ∧
    (bitsOf w 31 26 = 0x0A → bitsOf w 20 16 ≠ 0 → Gives (.lui k w) s (fun t => SeqFaults s t k 1)) ∧
    (bitsOf w 31 26 = 0x09 → SeqResult .slti s k w (if a.toInt < i.toInt then 1 else 0)) ∧
    (bitsOf w 31 26 = 0x0A → bitsOf w 20 16 = 0 → SeqResult .lui s k w (i <<< 16)))

/-- The sequencer's store of n bytes at slab offset a of tile k: exactly those bytes change, to the little-endian bytes of v. -/
def Sys2Proof.Claims.SeqStores (s t : State) (k : TileId) (a n : Nat) (v : Word64) : Prop :=
  (∀ i, i < n → t.rdByte (slabAddr k a + i) = BitVec.ofNat 8 (v.toNat / 256 ^ i)) ∧
    (∀ x, (x < slabAddr k a ∨ slabAddr k a + n ≤ x) → t.rdByte x = s.rdByte x) ∧
    SeqSets s t k 0 0 ((s.tile k).pc + 4) ∧ KeepsRegs s t [.SQ_PC k.val] ∧ (∀ j, j ≠ k → t.tile j = s.tile j)

/-- Branches, jumps, reads of time, TRAP, HALT, FENCE and NOP of the sequencer. A branch goes 4 times its sign-extended
immediate from its own address when its comparison of the two registers holds, and to the next word otherwise. JAL leaves the
return address in s31, JALR in SD, with a target whose low two bits are 0. TIME, TURN and CYC read the timestamp, the turn
and the cycle. TRAP stops with code 8, HALT leaves the state HALTED with the program counter at it, and FENCE and NOP only go
on. Nothing else changes. -/
def Obligations.SequencerControlFlow : Prop :=
  ∀ (s : State) (k : TileId) (w : Word32), SeqAt s k w →
    let pc := (s.tile k).pc
    let a := s.rdS k (bitsOf w 25 21)
    let b := s.rdS k (bitsOf w 20 16)
    let i := (w.setWidth 16).signExtend 64
    let goes (c : TileId → Word32 → Instr) (d : Nat) (v npc : Word64) : Prop :=
      Gives (c k w) s (fun t => SeqSets s t k d v npc ∧ OnlyTile s t k [.SQ_PC k.val] ∧ t.wmEvents = s.wmEvents)
    let branch (opc : Nat) (c : TileId → Word32 → Instr) (taken : Prop) : Prop :=
      bitsOf w 31 26 = opc → (taken → goes c 0 0 (pc + i * 4)) ∧ (¬ taken → goes c 0 0 (pc + 4))
    branch 0x18 .beq (a = b) ∧ branch 0x19 .bne (a ≠ b) ∧ branch 0x1A .blt (a.toInt < b.toInt) ∧
    branch 0x1B .bge (b.toInt ≤ a.toInt) ∧ branch 0x1C .bltu (a.toNat < b.toNat) ∧ branch 0x1D .bgeu (b.toNat ≤ a.toNat) ∧
    (bitsOf w 31 26 = 0x1E → goes .jal 31 (pc + 4) (pc + (w.setWidth 26).signExtend 64 * 4)) ∧
    (bitsOf w 31 26 = 0x1F → goes .jalr (bitsOf w 25 21) (pc + 4) ((b + i) &&& ~~~ 3#64)) ∧
    (bitsOf w 31 26 = 0x30 → bitsOf w 20 0 = 0 → SeqResult .seqTime s k w
      (if s.fld .ROT_STATUS F.ROT_STATUS_EPOCH_VALID = 1 then s.rd .TB_RAW + s.rd .TB_OFFSET - s.rd .TB_EPOCH
       else s.rd .TB_RAW)) ∧
    (bitsOf w 31 26 = 0x31 → bitsOf w 20 0 = 0 → SeqResult .turn s k w (s.rd .TB_TURN)) ∧
    (bitsOf w 31 26 = 0x32 → bitsOf w 20 0 = 0 →
      SeqResult .cyc s k w (BitVec.ofNat 64 (s.fld .TB_CYCLE F.TB_CYCLE_CYCLE))) ∧
    (bitsOf w 31 26 = 0x35 → bitsOf w 25 12 = 0 → Gives (.seqTrap k w) s (fun t => SeqFaults s t k 8)) ∧
    (bitsOf w 31 26 = 0x36 → bitsOf w 25 0 = 0 → Gives (.halt k w) s (fun t =>
      t.fld (.SQ_STATUS k.val) F.SQ_STATUS_STATE = 2 ∧ t.tile k = s.tile k ∧ OnlyTile s t k [.SQ_STATUS k.val])) ∧
    (bitsOf w 31 26 = 0x37 → bitsOf w 25 0 = 0 → goes .seqFence 0 0 (pc + 4)) ∧
    (bitsOf w 31 26 = 0x3E → bitsOf w 25 0 = 0 → goes .seqNop 0 0 (pc + 4))

/-- Loads and stores of the sequencer, CSRR and CSRW. An access of 8 or 4 bytes at SA plus the sign-extended immediate of the
tile's own slab: a misaligned one stops with ACC_ALIGN, one past the slab with ACC_DECODE. A load gives SD the little-endian
bytes, zero-extended. A store writes exactly its bytes, and no register changes but the program counter. CSRR gives SD the
zero-extended 32-bit word that the tile's register window shows at 4 times X12, 0 where no register stands. CSRW of one of
the first 64 bytes changes nothing but the program counter. CSRW of the low word of a tile signal stores the low 32 bits of
SA there and keeps the high ones. -/
def Obligations.SequencerAccesses : Prop :=
  (∀ (s : State) (k : TileId) (w : Word32), SeqAt s k w →
    let a := (s.rdS k (bitsOf w 20 16) + (w.setWidth 16).signExtend 64).toNat
    let clean (n : Nat) : Prop := a % n = 0 ∧ a < 0x600000 ∧ s.ueIn (slabAddr k a) n = none
    (bitsOf w 31 26 = 0x10 → clean 8 → SeqResult .seqLd s k w (BitVec.ofNat 64 (s.rdNat (slabAddr k a) 8))) ∧
    (bitsOf w 31 26 = 0x11 → clean 4 → SeqResult .ldw s k w (BitVec.ofNat 64 (s.rdNat (slabAddr k a) 4))) ∧
    (bitsOf w 31 26 = 0x12 → clean 8 → (∀ x, s.resLine (slabAddr k a + x) = none ∨ 8 ≤ x) →
      Gives (.seqSt k w) s (fun t => SeqStores s t k a 8 (s.rdS k (bitsOf w 25 21)))) ∧
    (bitsOf w 31 26 = 0x13 → clean 4 → (∀ x, s.resLine (slabAddr k a + x) = none ∨ 4 ≤ x) →
      Gives (.stw k w) s (fun t => SeqStores s t k a 4 (s.rdS k (bitsOf w 25 21)))) ∧
    (bitsOf w 31 26 = 0x10 → a % 8 ≠ 0 → Gives (.seqLd k w) s (fun t => SeqFaults s t k 0x10)) ∧
    (bitsOf w 31 26 = 0x11 → a % 4 ≠ 0 → Gives (.ldw k w) s (fun t => SeqFaults s t k 0x10)) ∧
    (bitsOf w 31 26 = 0x12 → a % 8 ≠ 0 → Gives (.seqSt k w) s (fun t => SeqFaults s t k 0x10)) ∧
    (bitsOf w 31 26 = 0x13 → a % 4 ≠ 0 → Gives (.stw k w) s (fun t => SeqFaults s t k 0x10)) ∧
    (bitsOf w 31 26 = 0x10 → a % 8 = 0 → 0x600000 ≤ a → Gives (.seqLd k w) s (fun t => SeqFaults s t k 0x15)) ∧
    (bitsOf w 31 26 = 0x11 → a % 4 = 0 → 0x600000 ≤ a → Gives (.ldw k w) s (fun t => SeqFaults s t k 0x15)) ∧
    (bitsOf w 31 26 = 0x13 → a % 4 = 0 → 0x600000 ≤ a → Gives (.stw k w) s (fun t => SeqFaults s t k 0x15)) ∧
    (bitsOf w 31 26 = 0x12 → a % 8 = 0 → 0x600000 ≤ a → Gives (.seqSt k w) s (fun t => SeqFaults s t k 0x15))) ∧
  (∀ (s : State) (k : TileId) (w : Word32), SeqAt s k w → bitsOf w 15 12 = 0 →
    let off := 0x100000 + 0x4000 * k.val + 4 * bitsOf w 11 0
    (bitsOf w 31 26 = 0x33 → bitsOf w 20 16 = 0 →
      (∀ r, Reg.atOffset off = some (r, 0) → SeqResult .csrr s k w (((s.view r).setWidth 32).setWidth 64)) ∧
      (Reg.atOffset off = none → SeqResult .csrr s k w 0)) ∧
    (bitsOf w 31 26 = 0x34 → bitsOf w 25 21 = 0 → 4 * bitsOf w 11 0 < 0x40 →
      Gives (.csrw k w) s (fun t => SeqSets s t k 0 0 ((s.tile k).pc + 4) ∧ OnlyTile s t k [.SQ_PC k.val])) ∧
    (∀ n : Fin 64, bitsOf w 31 26 = 0x34 → bitsOf w 25 21 = 0 → 4 * bitsOf w 11 0 = 0x800 + 8 * n.val →
      Gives (.csrw k w) s (fun t =>
        t.rd (.SQ_SIG k.val n.val) = (s.rd (.SQ_SIG k.val n.val) &&& 0xFFFFFFFF00000000#64) |||
          ((s.rdS k (bitsOf w 20 16)).setWidth 32).setWidth 64 ∧
        SeqSets s t k 0 0 ((s.tile k).pc + 4) ∧ OnlyTile s t k [.SQ_PC k.val, .SQ_SIG k.val n.val])))

/-- WAIT, DELAY and MARK. WAIT for a point that has not come waits for it, and one for a point that has come sets LATE_WAIT
and goes on. When the point comes the wait ends and the sequencer goes on in that cycle. DELAY waits for SA cycles, at least
1, of cycles 0 to 1,799, and its end goes on, in the first appended cycle where its last cycle was cycle 1,799 of a stretched
turn. A MARK clears the gap count and goes on; a late one sets OVERRUN and, if OVERRUN was clear, SQ_LATE. A gap as long as
MARK_GAP sets OVERRUN and raises source 0. -/
def Obligations.SequencerPointsAndMarks : Prop :=
  ∀ (s : State) (k : TileId),
    (∀ w : Word32, SeqAt s k w → bitsOf w 15 12 = 0 → bitsOf w 25 21 = 0 → bitsOf w 11 0 < 1800 →
      let turn := s.rdS k (bitsOf w 20 16)
      let cycle := bitsOf w 11 0
      let now := (s.rd .TB_TURN).toNat
      (bitsOf w 31 26 = 0x20 → (now < turn.toNat ∨ (now = turn.toNat ∧ s.cycle < cycle)) →
        Gives (.wait k w) s (fun t =>
          (t.tile k).wait = some (.point turn cycle) ∧ t.fld (.SQ_STATUS k.val) F.SQ_STATUS_WAITING = 1 ∧
          { t.tile k with wait := none } = s.tile k ∧ OnlyTile s t k [.SQ_STATUS k.val])) ∧
      (bitsOf w 31 26 = 0x20 → (turn.toNat < now ∨ (now = turn.toNat ∧ cycle ≤ s.cycle)) →
        Gives (.wait k w) s (fun t =>
          t.fld (.SQ_STATUS k.val) F.SQ_STATUS_LATE_WAIT = 1 ∧ SeqSets s t k 0 0 ((s.tile k).pc + 4) ∧
          OnlyTile s t k [.SQ_PC k.val, .SQ_STATUS k.val])) ∧
      (bitsOf w 31 26 = 0x22 →
        let late : Bool := turn.toNat < now || (now == turn.toNat && cycle < s.cycle)
        Gives (.mark k w) s (fun t =>
          (t.tile k).markGap = 0 ∧ (t.tile k).pc = (s.tile k).pc + 4 ∧ (t.tile k).lateMark = ((s.tile k).lateMark || late) ∧
          t.fld (.SQ_STATUS k.val) F.SQ_STATUS_OVERRUN =
            (if late then 1 else s.fld (.SQ_STATUS k.val) F.SQ_STATUS_OVERRUN) ∧
          (late = true → s.fld (.SQ_STATUS k.val) F.SQ_STATUS_OVERRUN = 0 →
            t.fld (.SQ_LATE k.val) F.SQ_LATE_TURN = turn.toNat % 2 ^ 32 ∧ t.fld (.SQ_LATE k.val) F.SQ_LATE_CYCLE = cycle) ∧
          ((late = false ∨ s.fld (.SQ_STATUS k.val) F.SQ_STATUS_OVERRUN = 1) →
            t.rd (.SQ_LATE k.val) = s.rd (.SQ_LATE k.val)) ∧
          OnlyTile s t k [.SQ_PC k.val, .SQ_STATUS k.val, .SQ_LATE k.val]))) ∧
    (∀ w : Word32, SeqAt s k w → bitsOf w 15 0 = 0 → bitsOf w 25 21 = 0 → bitsOf w 31 26 = 0x21 →
      Gives (.delay k w) s (fun t =>
        (t.tile k).wait = some .delay ∧
        (t.tile k).delayLeft = min s.cycle 1800 + max 1 (s.rdS k (bitsOf w 20 16)).toNat ∧
        t.fld (.SQ_STATUS k.val) F.SQ_STATUS_WAITING = 1 ∧ (t.tile k).pc = (s.tile k).pc ∧
        OnlyTile s t k [.SQ_STATUS k.val])) ∧
    (∀ turn cycle, Runs s → (s.tile k).wait = some (.point turn cycle) → s.rd .TB_TURN = turn → cycle < 1800 →
      s.cycle ≤ cycle →
      Gives (.waitPointReached k) s (fun t =>
        (t.tile k).wait = none ∧ t.fld (.SQ_STATUS k.val) F.SQ_STATUS_WAITING = 0 ∧ t.cycle = cycle ∧
        (t.tile k).pc = (s.tile k).pc + 4 ∧
        OnlyTile s t k [.SQ_PC k.val, .SQ_STATUS k.val, .TB_CYCLE, .TB_RAW])) ∧
    (Runs s → (s.tile k).wait = some .delay →
      ((s.tile k).delayLeft < 1800 ∨ ((s.tile k).delayLeft = 1800 ∧ s.fld .ROT_STATUS F.ROT_STATUS_STRETCH ≠ 0)) →
      Gives (.delayExpiry k) s (fun t =>
        (t.tile k).wait = none ∧ t.cycle = max s.cycle (s.tile k).delayLeft ∧ (t.tile k).pc = (s.tile k).pc + 4 ∧
        OnlyTile s t k [.SQ_PC k.val, .SQ_STATUS k.val, .TB_CYCLE, .TB_RAW])) ∧
    (Runs s → s.fld (.SQ_CTRL k.val) F.SQ_CTRL_MARK_GAP ≠ 0 →
      s.fld (.SQ_CTRL k.val) F.SQ_CTRL_MARK_GAP ≤ (s.tile k).markGap →
      Gives (.markGapExpiry k) s (fun t =>
        t.fld (.SQ_STATUS k.val) F.SQ_STATUS_OVERRUN = 1 ∧ (t.tile k).markGap = 0 ∧
        t.wmEvents = s.wmEvents ++ [⟨0, [], some k.val⟩] ∧ OnlyTile s t k [.SQ_STATUS k.val]))

/-- MODE, SLGO, SLWAIT, LAUNCH and KWAIT wait for their condition and then take effect. MODE to open mode, and to scheduled
mode of a tile that is scheduled, takes effect when no kernel runs and no channel of the other mode is busy; from open to
scheduled mode the slab drains first, and the drain's end, which comes once no access that the slab has accepted is
outstanding, completes it. SLGO starts an idle channel at slab offset SA, SLWAIT gives SD the status of an idle channel.
LAUNCH reads the kernel descriptor at slab offset SA when no kernel runs, and KWAIT gives SD the end status. With the
condition not met the sequencer waits with its instruction. -/
def Obligations.SequencerModeChannelsAndKernels : Prop :=
  ∀ (s : State) (k : TileId) (w : Word32),
    (SeqAt s k w →
      let pc' := (s.tile k).pc + 4
      let free (m : Nat) : Prop := (s.tile k).kernel = none ∧ (∀ c, c < 8 →
        s.fld (.SL_STATUS k.val c) F.SL_STATUS_STATE = 0 ∨ s.fld (.SL_STATUS k.val c) F.SL_STATUS_MODE = m)
      (w = 0x8C000000#32 → free 0 →
        Gives (.mode k w) s (fun t => t.fld (.SQ_STATUS k.val) F.SQ_STATUS_MODE = 0 ∧
          SeqSets s t k 0 0 pc' ∧ OnlyTile s t k [.SQ_PC k.val, .SQ_STATUS k.val])) ∧
      (w = 0x8C000001#32 → free 1 → s.schedMode k = true →
        Gives (.mode k w) s (fun t => t.fld (.SQ_STATUS k.val) F.SQ_STATUS_MODE = 1 ∧
          SeqSets s t k 0 0 pc' ∧ OnlyTile s t k [.SQ_PC k.val, .SQ_STATUS k.val])) ∧
      (w = 0x8C000001#32 → free 1 → s.schedMode k = false →
        Gives (.mode k w) s (fun t => SeqWaits s t k w ∧ (t.tile k).draining = true)) ∧
      ((w = 0x8C000000#32 ∨ w = 0x8C000001#32) → (s.tile k).kernel ≠ none →
        Gives (.mode k w) s (fun t => SeqWaits s t k w ∧ (t.tile k).draining = (s.tile k).draining)) ∧
      (bitsOf w 31 26 = 0x26 → bitsOf w 25 21 = 0 → bitsOf w 15 3 = 0 →
        let c := bitsOf w 2 0
        let off := (s.rdS k (bitsOf w 20 16)).toNat
        (s.fld (.SL_STATUS k.val c) F.SL_STATUS_STATE = 0 →
          Gives (.slgo k w) s (fun t =>
            t.fld (.SL_STATUS k.val c) F.SL_STATUS_STATE = 1 ∧
            t.fld (.SL_STATUS k.val c) F.SL_STATUS_MODE = s.fld (.SQ_STATUS k.val) F.SQ_STATUS_MODE ∧
            t.fld (.SL_STATUS k.val c) F.SL_STATUS_STATUS = 0 ∧
            t.chan k (chanId c) = { Chan.reset with next := off, nextId := (s.chan k (chanId c)).nextId } ∧ t.rd (.SL_COUNT k.val c) = 0 ∧
            (t.tile k).pc = pc' ∧ (∀ d, d ≠ chanId c → t.chan k d = s.chan k d) ∧
            OnlyTile s t k [.SQ_PC k.val, .SQ_STATUS k.val, .SL_STATUS k.val c, .SL_DESC k.val c, .SL_COUNT k.val c])) ∧
        (s.fld (.SL_STATUS k.val c) F.SL_STATUS_STATE ≠ 0 → Gives (.slgo k w) s (fun t => SeqWaits s t k w))) ∧
      (bitsOf w 31 26 = 0x27 → bitsOf w 20 3 = 0 →
        let c := bitsOf w 2 0
        (s.fld (.SL_STATUS k.val c) F.SL_STATUS_STATE = 0 →
          Gives (.slwait k w) s (fun t =>
            SeqSets s t k (bitsOf w 25 21) (BitVec.ofNat 64 (s.fld (.SL_STATUS k.val c) F.SL_STATUS_STATUS)) pc' ∧
            OnlyTile s t k [.SQ_PC k.val, .SQ_STATUS k.val])) ∧
        (s.fld (.SL_STATUS k.val c) F.SL_STATUS_STATE ≠ 0 → Gives (.slwait k w) s (fun t => SeqWaits s t k w))) ∧
      (bitsOf w 31 26 = 0x24 → bitsOf w 25 21 = 0 → bitsOf w 15 0 = 0 → (s.tile k).kernel = none →
        let off := (s.rdS k (bitsOf w 20 16)).toNat
        Gives (.launch k w) s (fun t =>
          t.fld (.SQ_STATUS k.val) F.SQ_STATUS_KERNEL = 1 ∧ (t.tile k).pc = pc' ∧
          (∃ q, (t.tile k).kernel = some q ∧ q.started = false ∧ q.desc = off ∧ q.entry = BitVec.ofNat 64 (s.rdNat (slabAddr k off) 8) ∧
             q.nblocks = s.rdNat (slabAddr k off + 24) 4 ∧ q.ctx = s.rdByte (slabAddr k off + 28) ∧
             q.vregs = (s.rdByte (slabAddr k off + 30)).toNat ∧ q.sched = s.schedMode k ∧
             (off % 64 ≠ 0 → q.status = 3) ∧ (q.nblocks = 0 → q.status = 3)) ∧
          KeepsBytes s t)) ∧
      (bitsOf w 31 26 = 0x24 → bitsOf w 25 21 = 0 → bitsOf w 15 0 = 0 → (s.tile k).kernel ≠ none →
        Gives (.launch k w) s (fun t => SeqWaits s t k w)) ∧
      (bitsOf w 31 26 = 0x25 → bitsOf w 20 0 = 0 →
        ((s.tile k).kernel = none →
          Gives (.kwait k w) s (fun t =>
            SeqSets s t k (bitsOf w 25 21) (BitVec.ofNat 64 (s.tile k).endStatus) pc' ∧
            OnlyTile s t k [.SQ_PC k.val, .SQ_STATUS k.val])) ∧
        ((s.tile k).kernel ≠ none → Gives (.kwait k w) s (fun t => SeqWaits s t k w)))) ∧
    (Runs s → (s.tile k).draining = true → (s.tile k).wait = some (.instr w) → bitsOf w 31 26 = 0x23 →
      s.fld (.SQ_STATUS k.val) F.SQ_STATUS_STATE = 1 → s.slabBusy k = false →
      Gives (.slabDrainDone k) s (fun t =>
        t.fld (.SQ_STATUS k.val) F.SQ_STATUS_MODE = 1 ∧ (t.tile k).wait = none ∧ (t.tile k).draining = false ∧
        (t.tile k).pc = (s.tile k).pc + 4 ∧ OnlyTile s t k [.SQ_PC k.val, .SQ_STATUS k.val])) ∧
    (Runs s → s.slabBusy k = true → Sys2Proof.Machine.exec (.slabDrainDone k) s = .next s)

/-- Tile signals and words of canal links. SGSET stores SA in a tile signal, a bus write stores its value with the adds of
the same cycle, SGWAIT goes on once the signal is at least SA unsigned and waits otherwise. CNSIG spends the tile's credit of
a link that is up and queues the word, and waits without link or credit; CNRCV takes the oldest word that came over a link,
and waits for one; CNSTAT reads the link's state. The oldest word that a link keeps for a tile enters its receive queue of
fewer than 32 words, though the link be down, and its credit goes back. -/
def Obligations.SequencerSignals : Prop :=
  ∀ (s : State) (k : TileId),
    (∀ w : Word32, SeqAt s k w →
      let pc' := (s.tile k).pc + 4
      let a := s.rdS k (bitsOf w 20 16)
      let n := bitsOf w 5 0
      (bitsOf w 31 26 = 0x29 → bitsOf w 25 21 = 0 → bitsOf w 15 6 = 0 →
        Gives (.sgset k w) s (fun t => t.rd (.SQ_SIG k.val n) = a ∧ SeqSets s t k 0 0 pc' ∧
          OnlyTile s t k [.SQ_PC k.val, .SQ_SIG k.val n])) ∧
      (bitsOf w 31 26 = 0x28 → bitsOf w 25 21 = 0 → bitsOf w 15 6 = 0 →
        (a.toNat ≤ (s.rd (.SQ_SIG k.val n)).toNat →
          Gives (.sgwait k w) s (fun t => SeqSets s t k 0 0 pc' ∧ OnlyTile s t k [.SQ_PC k.val, .SQ_STATUS k.val])) ∧
        ((s.rd (.SQ_SIG k.val n)).toNat < a.toNat → Gives (.sgwait k w) s (fun t => SeqWaits s t k w))) ∧
      (∀ l : LinkId, l.val = n → bitsOf w 25 21 = 0 → bitsOf w 15 6 = 0 → bitsOf w 31 26 = 0x2A →
        (s.linkUp l = true → (s.link l).sigCredit[k.val]'(k.isLt) = true →
          Gives (.cnsig k w) s (fun t =>
            t.link l = { s.link l with
              sigCredit := (s.link l).sigCredit.set k.val false k.isLt
              sigOut := (s.link l).sigOut ++ [(k.val, a)] } ∧
            (∀ j, j ≠ l → t.link j = s.link j) ∧ SeqSets s t k 0 0 pc' ∧
            KeepsRegs s t [.SQ_PC k.val, .SQ_STATUS k.val] ∧ KeepsBytes s t)) ∧
        ((s.linkUp l = false ∨ (s.link l).sigCredit[k.val]'(k.isLt) = false) →
          Gives (.cnsig k w) s (fun t => SeqWaits s t k w))) ∧
      (∀ l : LinkId, l.val = n → bitsOf w 20 16 = 0 → bitsOf w 15 6 = 0 →
        (bitsOf w 31 26 = 0x2B → ∀ v rest, (s.tile k).rx = ⟨l, v⟩ :: rest →
          Gives (.cnrcv k w) s (fun t =>
            t.rdS k (bitsOf w 25 21) = (if bitsOf w 25 21 = 0 then 0 else v) ∧ (t.tile k).rx = rest ∧
            (t.tile k).pc = pc' ∧ OnlyTile s t k [.SQ_PC k.val, .SQ_STATUS k.val])) ∧
        (bitsOf w 31 26 = 0x2B → (s.tile k).rx = [] → Gives (.cnrcv k w) s (fun t => SeqWaits s t k w)) ∧
        (bitsOf w 31 26 = 0x2C →
          SeqResult .cnstat s k w (BitVec.ofNat 64 ((if s.linkUp l then 1 else 0) +
            2 * s.fld (.LK_PING l.val) F.LK_PING_LAT_VALID +
            256 * (((s.tile k).rx.filter (fun x => x.link == l)).length % 256) +
            (if s.fld (.LK_PING l.val) F.LK_PING_LAT_VALID = 1 then 65536 * s.fld (.LK_LAT l.val) F.LK_LAT_OUT else 0)))))) ∧
    (Runs s → (s.tile k).wait = none → (s.tile k).inReset = false → ∀ (n : Fin 64) (v : Word64) (adds : List Word64),
      Gives (.sqSigWrite k n v adds) s (fun t =>
        t.rd (.SQ_SIG k.val n.val) = v + adds.sum ∧ OnlyRegs s t [.SQ_SIG k.val n.val])) ∧
    (Runs s → (s.tile k).wait = none → (s.tile k).inReset = false → (s.tile k).rx.length < 32 →
      ∀ (l : LinkId) (v : Word64) (rest : List (TileId × Word64)), (s.link l).sigHeld = (k, v) :: rest →
        Gives (.signalWordReceive l k v) s (fun t =>
          (t.tile k).rx = (s.tile k).rx ++ [⟨l, v⟩] ∧
          t.link l = { s.link l with sigHeld := rest, oweSig := (s.link l).oweSig ++ [k] } ∧
          (∀ j, j ≠ k → t.tile j = s.tile j) ∧ (∀ j, j ≠ l → t.link j = s.link j) ∧ KeepsRegs s t [] ∧ KeepsBytes s t))

/-- START, STOP, program errors, and the start and the end of a kernel. START of a sequencer that does not run begins the
copy of its program window, or stops with ACC_DECODE when the window is empty or leaves the slab. The copy's end puts the
window's words into program memory and starts at 0 with registers and SQ_EXC 0. STOP leaves it STOPPED, an uncorrectable word
of program memory FAULTED with PM_ERR, a shadow that disagrees FAULTED with source 13. A launch whose descriptor failed ends
with its status, and one that passed starts with empty caches, where the mode is scheduled in cycles 0 to 1,799; a kernel
whose groups and stores are done ends with its status, with source 3 if it failed. -/
def Obligations.SequencerStartsStopsAndKernelEnds : Prop :=
  ∀ (s : State) (k : TileId), Runs s →
    let size := s.fld (.SQ_PROG k.val) F.SQ_PROG_SIZE
    let base := s.fld (.SQ_PROG k.val) F.SQ_PROG_BASE
    let state := s.fld (.SQ_STATUS k.val) F.SQ_STATUS_STATE
    ((s.tile k).inReset = false → state ≠ 1 → size ≠ 0 → size ≤ 256 → (base + size) * 256 ≤ 0x600000 →
      Gives (.start k) s (fun t =>
        t.fld (.SQ_STATUS k.val) F.SQ_STATUS_STATE = 1 ∧
        t.tile k = { s.tile k with starting := true, progBase := base, progSize := size } ∧
        OnlyTile s t k [.SQ_STATUS k.val])) ∧
    ((s.tile k).inReset = false → state ≠ 1 → (size = 0 ∨ 256 < size ∨ 0x600000 < (base + size) * 256) →
      Gives (.start k) s (fun t =>
        t.fld (.SQ_STATUS k.val) F.SQ_STATUS_STATE = 3 ∧ t.fld (.SQ_EXC k.val) F.SQ_EXC_CODE = 0x15 ∧
        t.fld (.SQ_PC k.val) F.SQ_PC_PC = 0 ∧
        OnlyTile s t k [.SQ_STATUS k.val, .SQ_EXC k.val, .SQ_PC k.val])) ∧
    (state = 1 → Sys2Proof.Machine.exec (.start k) s = .next s) ∧
    ((s.tile k).starting = true → s.ueIn (slabAddr k ((s.tile k).progBase * 256)) ((s.tile k).progSize * 256) = none →
      Gives (.programCopyDone k) s (fun t =>
        (t.tile k).starting = false ∧ (t.tile k).pc = 0 ∧ (∀ n, t.rdS k n = 0) ∧ t.rd (.SQ_EXC k.val) = 0 ∧
        (∀ i, i < (s.tile k).progSize * 64 → (t.tile k).pmWord (4 * i) =
          BitVec.ofNat 32 (s.rdNat (slabAddr k ((s.tile k).progBase * 256 + 4 * i)) 4)) ∧
        (∀ i, (s.tile k).progSize * 64 ≤ i → (t.tile k).pmWord (4 * i) = (s.tile k).pmWord (4 * i)) ∧
        OnlyTile s t k [.SQ_PC k.val, .SQ_EXC k.val])) ∧
    (state = 1 → (s.tile k).starting = false →
      Gives (.stop k) s (fun t =>
        t.fld (.SQ_STATUS k.val) F.SQ_STATUS_STATE = 0 ∧ t.fld (.SQ_STATUS k.val) F.SQ_STATUS_WAITING = 0 ∧
        t.tile k = { s.tile k with wait := none, draining := false } ∧ OnlyTile s t k [.SQ_STATUS k.val])) ∧
    (s.seqReady k = true →
      Gives (.pmUncorrectable k) s (fun t =>
        t.fld (.SQ_STATUS k.val) F.SQ_STATUS_STATE = 3 ∧ t.fld (.SQ_STATUS k.val) F.SQ_STATUS_PM_ERR = 1 ∧
        t.rd (.SQ_EXC k.val) = 0 ∧ t.tile k = s.tile k ∧ t.wmEvents = s.wmEvents ++ [⟨2, [], some k.val⟩] ∧
        OnlyTile s t k [.SQ_STATUS k.val, .SQ_EXC k.val])) ∧
    (state = 1 →
      Gives (.seqLockstepMismatch k) s (fun t =>
        t.fld (.SQ_STATUS k.val) F.SQ_STATUS_STATE = 3 ∧ t.wmEvents = s.wmEvents ++ [⟨13, [], some k.val⟩] ∧
        OnlyTile s t k [.SQ_STATUS k.val])) ∧
    (∀ q : Kernel, (s.tile k).kernel = some q → (s.tile k).wait = none →
      (q.started = false → (q.sched = false ∨ s.cycle < 1800) → q.status ≠ 0 →
        Gives (.kernelStart k) s (fun t =>
          (t.tile k).kernel = none ∧ (t.tile k).endStatus = q.status ∧
          t.fld (.SQ_STATUS k.val) F.SQ_STATUS_KERNEL = 0 ∧ (∀ j, j ≠ k → t.tile j = s.tile j) ∧ KeepsBytes s t)) ∧
      (q.started = false → (q.sched = false ∨ s.cycle < 1800) → q.status = 0 →
        Gives (.kernelStart k) s (fun t =>
          (t.tile k).kernel = some { q with started := true, startTime := s.timestamp } ∧
          (t.tile k).prevCtx = some q.ctx ∧ (t.tile k).layer = q.layer ∧ (t.tile k).operator = q.operator ∧
          (∀ c : CoreId, (t.core k c).l1d = [] ∧ (t.core k c).l1i = []) ∧
          (∀ j, j ≠ k → t.tile j = s.tile j) ∧ KeepsBytes s t)) ∧
      (q.started = true → (s.tile k).ta.idle = true → (s.tile k).atoms = [] → (s.tile k).reqs = [] →
        (∀ c : CoreId, (s.core k c).groupsDone q = true ∧ (s.core k c).storesDone = true) →
        Gives (.kernelEnd k) s (fun t =>
          (t.tile k).kernel = none ∧ (t.tile k).endStatus = q.status ∧
          t.fld (.SQ_STATUS k.val) F.SQ_STATUS_KERNEL = 0 ∧
          t.wmEvents = s.wmEvents ++ (if q.failed then [⟨3, [q.ctx], some k.val⟩] else []) ∧
          (∀ (c : CoreId) (i : SlotId), (t.core k c).group i = none) ∧
          (∀ j, j ≠ k → t.tile j = s.tile j) ∧ KeepsBytes s t)))

/-- The core issues the word w for group g (R112, R143, R149): its kernel has started and not failed, the group is active, does not
wait, has no report to halt for, and a line of the instruction cache without a parity error holds w at its program counter. -/
def Sys2Proof.Claims.VecAt (s : State) (g : GroupId) (w : Word64) (gr : Group) (k : Kernel) : Prop :=
  Runs s ∧ s.mayIssue g = true ∧ s.group g = some gr ∧ (s.tile g.tile).kernel = some k ∧ gr.late = none ∧
    (match s.fetchAt g.tile k gr.pc with
     | .at_ tgt => ((s.core g.tile g.core).iline tgt).map (fun l => (l.parity, l.word tgt))
     | _ => none) = some (false, w)

/-- The group issues w, a well-formed word of a form of R160 or R171 whose registers exist and whose sources can be read. -/
def Sys2Proof.Claims.VecRuns (s : State) (g : GroupId) (w : Word64) (f : VForm) (gr : Group) (k : Kernel) : Prop :=
  VecAt s g w gr k ∧ f.hasOpc w = true ∧ f.legal w = true ∧
    (∀ r ∈ f.sources w ++ f.dests w, r < gr.v.length) ∧ gr.waitsFor (f.sources w) = false ∧
    gr.markedBy (f.sources w) = none ∧ (∀ e ∈ gr.rfUE, e.1 ∉ f.sources w)

/-- Nothing but group g and counters has changed: no register, no memory, no other group, core, tile or unit; the core's
instruction cache and the tile's range cache keep their entries, in another order of use. -/
def Sys2Proof.Claims.OnlyGroup (s t : State) (g : GroupId) : Prop :=
  { t with tiles := s.tiles, obs := s.obs } = s ∧ { t.obs with counts := s.obs.counts } = s.obs ∧
    (∀ j, j ≠ g.tile → t.tile j = s.tile j) ∧ { t.tile g.tile with cores := (s.tile g.tile).cores, rcV := (s.tile g.tile).rcV } = s.tile g.tile ∧
    (t.tile g.tile).rcV.Perm (s.tile g.tile).rcV ∧ (t.core g.tile g.core).l1i.Perm (s.core g.tile g.core).l1i ∧
    (∀ c, c ≠ g.core → t.core g.tile c = s.core g.tile c) ∧
    { t.core g.tile g.core with groups := (s.core g.tile g.core).groups, l1i := (s.core g.tile g.core).l1i } =
      s.core g.tile g.core ∧
    (∀ i, i ≠ g.slot → (t.core g.tile g.core).group i = (s.core g.tile g.core).group i)

/-- The group goes on with the next word: 8 bytes on, or where its reconvergence stack leads from there. -/
def Sys2Proof.Claims.GoesOn (gr u : Group) : Prop :=
  u.pc = gr.next.pc ∧ u.mask = gr.next.mask ∧ u.stack = gr.next.stack ∧ (gr.stack = [] → u.pc = gr.pc + 8 ∧ u.mask = gr.mask)

/-- The word of register n in thread i. -/
def Sys2Proof.Claims.lane (gr : Group) (n i : Nat) : Word32 := (gr.rdV n).getD i 0

/-- The words of a group's registers after an instruction: val gives the new ones of the threads that take part. -/
def Sys2Proof.Claims.Lanes (gr u : Group) (m : Word64) (val : Nat → Nat → Option Word32) : Prop :=
  ∀ n i, i < 64 → lane u n i = if n ≠ 255 ∧ m.getLsbD i = true then (val n i).getD (lane gr n i) else lane gr n i

/-- What of a group no arithmetic instruction changes. -/
def Sys2Proof.Claims.SameGroup (gr u : Group) : Prop :=
  u.block = gr.block ∧ u.num = gr.num ∧ u.blockSlot = gr.blockSlot ∧ u.tok = gr.tok ∧ u.exited = gr.exited ∧
    u.halted = gr.halted ∧ u.wait = gr.wait ∧ u.writes = gr.writes ∧ u.late = gr.late ∧ u.v.length = gr.v.length

/-- The second operand: the immediate of the V-I form, otherwise register VB. -/
def Sys2Proof.Claims.srcB (f : VForm) (gr : Group) (w : Word64) (i : Nat) : Word32 :=
  if f.isI w then w.setWidth 32 else lane gr (bitsOf w 31 24) i

/-- The MOD field, 0 in the V-I form. -/
def Sys2Proof.Claims.modF (f : VForm) (w : Word64) : Nat := if f.isI w then 0 else bitsOf w 15 13

/-- The flags of the threads that take part, together. -/
def Sys2Proof.Claims.flagsOf (m : Word64) (fl : Nat → FFlags) : FFlags := (threadsOf m).foldl (fun a i => a ||| fl i) 0

/-- The command c, for every well-formed word of the form: each thread that takes part gets op of its operands in VD (255
discards it), its flags are collected, every other word, u register and predicate stays, and the group goes on. -/
def Sys2Proof.Claims.LaneOp (c : GroupId → Word64 → Instr) (f : VForm)
    (op : Word64 → Group → Nat → Word32 → Word32 → Word32 → Word32 × FFlags) : Prop :=
  ∀ (s : State) (g : GroupId) (w : Word64) (gr : Group) (k : Kernel), VecRuns s g w f gr k →
    Gives (c g w) s (fun t => ∃ u, t.group g = some u ∧
      let res (i : Nat) : Word32 × FFlags :=
        op w gr i (lane gr (bitsOf w 39 32) i) (srcB f gr w i) (lane gr (bitsOf w 23 16) i)
      Lanes gr u (gr.taking w) (fun n i => if n = bitsOf w 47 40 then some (res i).1 else none) ∧
      u.fflags = gr.fflags ||| flagsOf (gr.taking w) (fun i => (res i).2) ∧ u.u = gr.u ∧ u.p = gr.p ∧
      GoesOn gr u ∧ SameGroup gr u ∧ OnlyGroup s t g)

/-- A result of the floating-point operations as a word and its flags. -/
def Sys2Proof.Claims.asWord (r : FRes) : Word32 × FFlags := (BitVec.ofNat 32 r.bits, r.flags)

/-- The rounding mode that MOD names; a V-I form rounds to nearest even (R159). -/
def Sys2Proof.Claims.rmF (f : VForm) (w : Word64) : RM := (RM.decode (modF f w)).getD .rne

/-- An operation on the two 16-bit halves of a word, with the flags of both. -/
def Sys2Proof.Claims.twoHalves (op : Nat → Nat → Nat → FRes) (a b c : Word32) : Word32 × FFlags :=
  let lo := op (a.toNat % 2 ^ 16) (b.toNat % 2 ^ 16) (c.toNat % 2 ^ 16)
  let hi := op (a.toNat / 2 ^ 16) (b.toNat / 2 ^ 16) (c.toNat / 2 ^ 16)
  (BitVec.ofNat 32 (lo.bits + 2 ^ 16 * hi.bits), lo.flags ||| hi.flags)

/-- Floating-point instructions of the vector cores, lane by lane. For all words of their forms and all operands: sum,
difference, product, fused multiply-add, minimum and maximum of binary32, the same of the two halves in binary16 and
bfloat16, conversions, reciprocal, square root, and the special functions, rounded as MOD says where the form has a rounding
mode. Each thread that takes part gets its rounded result in VD, the flags of all are collected in FFLAGS, and nothing else
changes. -/
def Obligations.VectorFloatLanes : Prop :=
  let d (x : Word32) : FVal := Fmt.f32.decode x.toNat
  let f10 := VForm.bin 0x10 true .rm
  let f11 := VForm.bin 0x11 true .rm
  let f12 := VForm.bin 0x12 true .rm
  let f13 := VForm.tri 0x13 .rm
  LaneOp .fadd f10 (fun w _ _ a b _ => asWord (Fmt.f32.add (rmF f10 w) (d a) (d b))) ∧
  LaneOp .fsub f11 (fun w _ _ a b _ => asWord (Fmt.f32.add (rmF f11 w) (d a) (d b).negate)) ∧
  LaneOp .fmul f12 (fun w _ _ a b _ => asWord (Fmt.f32.mul (rmF f12 w) (d a) (d b))) ∧
  LaneOp .ffma f13 (fun w _ _ a b c => asWord (Fmt.f32.fma (rmF f13 w) (d a) (d b) (d c))) ∧
  LaneOp .fmin (.bin 0x14 true .res0) (fun _ _ _ a b _ => asWord (Fmt.f32.minMax false a.toNat b.toNat)) ∧
  LaneOp .fmax (.bin 0x15 true .res0) (fun _ _ _ a b _ => asWord (Fmt.f32.minMax true a.toNat b.toNat)) ∧
  LaneOp .hadd2 (.bin 0x17 false .rm) (fun w _ _ a b c => twoHalves (fun x y _ =>
    Fmt.f16.add (rmF (.bin 0x17 false .rm) w) (Fmt.f16.decode x) (Fmt.f16.decode y)) a b c) ∧
  LaneOp .hmul2 (.bin 0x18 false .rm) (fun w _ _ a b c => twoHalves (fun x y _ =>
    Fmt.f16.mul (rmF (.bin 0x18 false .rm) w) (Fmt.f16.decode x) (Fmt.f16.decode y)) a b c) ∧
  LaneOp .hfma2 (.tri 0x19 .rm) (fun w _ _ a b c => twoHalves (fun x y z =>
    Fmt.f16.fma (rmF (.tri 0x19 .rm) w) (Fmt.f16.decode x) (Fmt.f16.decode y) (Fmt.f16.decode z)) a b c) ∧
  LaneOp .badd2 (.bin 0x1A false .rm) (fun w _ _ a b c => twoHalves (fun x y _ =>
    Fmt.bf16.add (rmF (.bin 0x1A false .rm) w) (Fmt.bf16.decode x) (Fmt.bf16.decode y)) a b c) ∧
  LaneOp .bmul2 (.bin 0x1B false .rm) (fun w _ _ a b c => twoHalves (fun x y _ =>
    Fmt.bf16.mul (rmF (.bin 0x1B false .rm) w) (Fmt.bf16.decode x) (Fmt.bf16.decode y)) a b c) ∧
  LaneOp .bfma2 (.tri 0x1C .rm) (fun w _ _ a b c => twoHalves (fun x y z =>
    Fmt.bf16.fma (rmF (.tri 0x1C .rm) w) (Fmt.bf16.decode x) (Fmt.bf16.decode y) (Fmt.bf16.decode z)) a b c) ∧
  LaneOp .cvt ⟨0x20, none, true, .v 1, .v 1, .none, .none, .rm, cvtSub⟩ (fun w _ _ a _ _ =>
    asWord (cvtLane (bitsOf w 12 9) (bitsOf w 8 5) (bitOf w 4) ((RM.decode (bitsOf w 15 13)).getD .rne) a)) ∧
  LaneOp .rcp (.un 0x30 .rm) (fun w _ _ a _ _ => asWord (Fmt.f32.rcp (rmF (.un 0x30 .rm) w) (d a))) ∧
  LaneOp .sqrt (.un 0x31 .rm) (fun w _ _ a _ _ => asWord (Fmt.f32.sqrt (rmF (.un 0x31 .rm) w) (d a))) ∧
  LaneOp .rsq (.un 0x32 .res0) (fun _ _ _ a _ _ => asWord (rsq32 a)) ∧
  LaneOp .ex2 (.un 0x33 .res0) (fun _ _ _ a _ _ => asWord (ex2_32 a)) ∧
  LaneOp .lg2 (.un 0x34 .res0) (fun _ _ _ a _ _ => asWord (lg2_32 a)) ∧
  LaneOp .sinpi (.un 0x35 .res0) (fun _ _ _ a _ _ => asWord (sinpi32 a)) ∧
  LaneOp .cospi (.un 0x36 .res0) (fun _ _ _ a _ _ => asWord (cospi32 a))

/-- The command c, for every well-formed word of the form, leads to a group that satisfies p; it goes on, and nothing but the
group has changed. -/
def Sys2Proof.Claims.GroupOp (c : GroupId → Word64 → Instr) (f : VForm) (p : State → GroupId → Word64 → Group → Kernel → Group → Prop) :
    Prop :=
  ∀ (s : State) (g : GroupId) (w : Word64) (gr : Group) (k : Kernel), VecRuns s g w f gr k →
    Gives (c g w) s (fun t => ∃ u, t.group g = some u ∧ p s g w gr k u ∧ GoesOn gr u ∧ SameGroup gr u ∧ OnlyGroup s t g)

/-- Every word of the v registers stays. -/
def Sys2Proof.Claims.SameLanes (gr u : Group) : Prop := ∀ n i, i < 64 → lane u n i = lane gr n i

/-- Predicate VD takes a bit in the threads of m; the other bits and predicates stay. -/
def Sys2Proof.Claims.SetsP (gr u : Group) (w m : Word64) (bit : Nat → Bool) : Prop :=
  ∀ n i, n < 8 → i < 64 →
    (u.rdP n).getLsbD i = if n = bitsOf w 47 40 ∧ m.getLsbD i = true then bit i else (gr.rdP n).getLsbD i

/-- Register uD takes a value (255 discards it); the others stay. -/
def Sys2Proof.Claims.SetsU (gr u : Group) (w : Word64) (v : Word64) : Prop :=
  ∀ n, u.rdU n = if n = bitsOf w 47 40 ∧ n < 64 then v else gr.rdU n

/-- The wide partial at registers VD to VD + 7 of the threads that take part, word by word. -/
def Sys2Proof.Claims.WideLanes (gr u : Group) (w : Word64) (x : Nat → BitVec 256) : Prop :=
  Lanes gr u (gr.taking w) (fun n i =>
    if bitsOf w 47 40 ≤ n ∧ n < bitsOf w 47 40 + 8 ∧ bitsOf w 47 40 ≠ 255 then
      some ((x i).extractLsb' (32 * (n - bitsOf w 47 40)) 32) else none)

/-- A group takes an exception (R148, R149, R178): it halts and leaves the active set, its kernel fails with status 1, VC_EXC holds
the first exception of its core, and the exception record begins with the code and ends with the word. -/
def Sys2Proof.Claims.VecFaults (s t : State) (g : GroupId) (gr : Group) (k : Kernel) (code : Nat) (w : Word64) : Prop :=
  t.group g = some { gr with halted := true, wait := none, readyAt := none, cache := [] } ∧
    (t.core g.tile g.core).isActive g.slot = false ∧
    (t.tile g.tile).kernel = some { k with failed := true, status := 1 } ∧
    t.fld (.VC_EXC g.tile.val g.core.val) F.VC_EXC_VALID = 1 ∧
    (s.fld (.VC_EXC g.tile.val g.core.val) F.VC_EXC_VALID = 0 →
      t.fld (.VC_EXC g.tile.val g.core.val) F.VC_EXC_CODE = code ∧
      t.fld (.VC_EXC g.tile.val g.core.val) F.VC_EXC_SLOT = g.slot.val) ∧
    (s.fld (.VC_EXC g.tile.val g.core.val) F.VC_EXC_VALID = 1 →
      t.rd (.VC_EXC g.tile.val g.core.val) = s.rd (.VC_EXC g.tile.val g.core.val)) ∧
    t.rdByte (excRecordAt g k) = BitVec.ofNat 8 code ∧
    t.rdNat (excRecordAt g k + 8) 8 = gr.pc.toNat ∧ t.rdNat (excRecordAt g k + 56) 8 = w.toNat ∧
    (∀ a, (a < excRecordAt g k ∨ excRecordAt g k + 64 ≤ a) → t.rdByte a = s.rdByte a) ∧
    KeepsRegs s t [.VC_EXC g.tile.val g.core.val, .FQ_STATUS, .TA_FLAGS g.tile.val] ∧ (∀ j, j ≠ g.tile → t.tile j = s.tile j)

/-- Compares, wide partials, and values across lanes. ISETP, FSETP and USETP write their predicate by the condition that MOD
names, the first two in the threads that take part and USETP in every active thread; FSETP raises NV for a signaling NaN.
SHFL reads another thread's word, BALLOT and MOVU write a u register, BCAST half of one, SREG the special value that SUB
selects, and FFLAG reads the flags and clears them when MOD is 1. WADD adds wide partials, and takes the exception
ANCHOR_MISMATCH in place of that where the anchors of a thread that takes part disagree; WCVT rounds one, WRND makes one. -/
def Obligations.VectorComparesAndGroupValues : Prop :=
  let cond (c : Nat) (lt ltu eq : Bool) : Bool :=
    if c = 0 then eq else if c = 1 then !eq else if c = 2 then lt else if c = 3 then lt || eq else if c = 4 then !(lt || eq)
    else if c = 5 then !lt else if c = 6 then ltu else !ltu
  let fF := VForm.cmp 0x0F
  let fC := VForm.uni 0xCB .p .u .cond
  GroupOp .isetp fF (fun _ _ w gr _ u =>
    SetsP gr u w (gr.taking w) (fun i =>
      let a := lane gr (bitsOf w 39 32) i
      let b := srcB fF gr w i
      cond (modF fF w) (decide (a.toInt < b.toInt)) (decide (a.toNat < b.toNat)) (a == b)) ∧
    SameLanes gr u ∧ u.u = gr.u ∧ u.fflags = gr.fflags) ∧
  GroupOp .fsetp (.cmp 0x16) (fun _ _ w gr _ u =>
    let x (i : Nat) : FVal := Fmt.f32.decode (lane gr (bitsOf w 39 32) i).toNat
    let y (i : Nat) : FVal := Fmt.f32.decode (srcB (.cmp 0x16) gr w i).toNat
    SetsP gr u w (gr.taking w) (fun i => floatCond (modF (.cmp 0x16) w) (x i) (y i)) ∧
    u.fflags = gr.fflags ||| flagsOf (gr.taking w) (fun i => if (x i).isSNaN || (y i).isSNaN then FFlags.NV else 0) ∧
    SameLanes gr u ∧ u.u = gr.u) ∧
  GroupOp .usetp fC (fun _ _ w gr _ u =>
    let a := gr.rdU (bitsOf w 39 32)
    let b := if fC.isI w then (w.setWidth 32).signExtend 64 else gr.rdU (bitsOf w 31 24)
    SetsP gr u w gr.mask (fun _ =>
      cond (modF fC w) (decide (a.toInt < b.toInt)) (decide (a.toNat < b.toNat)) (a == b)) ∧
    SameLanes gr u ∧ u.u = gr.u ∧ u.fflags = gr.fflags) ∧
  GroupOp .shfl (.bin 0x3A false .res0) (fun _ _ w gr _ u =>
    Lanes gr u (gr.taking w) (fun n i => if n = bitsOf w 47 40 then
      some (lane gr (bitsOf w 39 32) ((lane gr (bitsOf w 31 24) i).toNat % 64)) else none) ∧
    u.u = gr.u ∧ u.p = gr.p ∧ u.fflags = gr.fflags) ∧
  GroupOp .ballot ⟨0x3B, none, true, .u, .p, .none, .none, .res0, (· == 0)⟩ (fun _ _ w gr _ u =>
    SetsU gr u w (gr.rdP (bitsOf w 39 32) &&& gr.taking w) ∧ SameLanes gr u ∧ u.p = gr.p ∧ u.fflags = gr.fflags) ∧
  GroupOp .movu ⟨0x3C, none, true, .u, .v 1, .none, .none, .res0, (· == 0)⟩ (fun _ _ w gr _ u =>
    (∀ i, i < 64 → (gr.taking w).getLsbD i = true → (∀ j, j < i → (gr.taking w).getLsbD j = false) →
      SetsU gr u w ((lane gr (bitsOf w 39 32) i).setWidth 64)) ∧
    (gr.taking w = 0 → SetsU gr u w 0) ∧ SameLanes gr u ∧ u.p = gr.p ∧ u.fflags = gr.fflags) ∧
  GroupOp .bcast ⟨0x3D, none, true, .v 1, .u, .none, .none, .bit0, (· == 0)⟩ (fun _ _ w gr _ u =>
    Lanes gr u (gr.taking w) (fun n _ => if n = bitsOf w 47 40 then
      some ((gr.rdU (bitsOf w 39 32)).extractLsb' (if bitsOf w 15 13 = 1 then 32 else 0) 32) else none) ∧
    u.u = gr.u ∧ u.p = gr.p ∧ u.fflags = gr.fflags) ∧
  GroupOp .sreg ⟨0x3E, none, true, .v 1, .none, .none, .none, .res0, fun x => x / 32 ≤ 8 && x % 32 == 0⟩
    (fun s g w gr k u =>
      let sel := bitsOf w 12 5
      let x (i : Nat) : Nat := if sel = 0 then i else if sel = 1 then gr.num else if sel = 2 then gr.block
        else if sel = 3 then g.core.val else if sel = 4 then g.tile.val else if sel = 5 then s.fld .TB_CHIP F.TB_CHIP_CHIP_ID
        else if sel = 6 then k.ctx.toNat else if sel = 7 then gr.blockSlot else s.timestamp.toNat
      Lanes gr u (gr.taking w) (fun n i => if n = bitsOf w 47 40 then some (BitVec.ofNat 32 (x i)) else none) ∧
      u.u = gr.u ∧ u.p = gr.p ∧ u.fflags = gr.fflags) ∧
  GroupOp .fflag ⟨0x3F, none, false, .u, .none, .none, .none, .bit0, (· == 0)⟩ (fun _ _ w gr _ u =>
    SetsU gr u w (gr.fflags.setWidth 64) ∧ u.fflags = (if bitsOf w 15 13 = 1 then 0 else gr.fflags) ∧
    SameLanes gr u ∧ u.p = gr.p) ∧
  (∀ (s : State) (g : GroupId) (w : Word64) (gr : Group) (k : Kernel),
    VecRuns s g w ⟨0x21, none, true, .v 8, .v 8, .v 8, .none, .res0, (· == 0)⟩ gr k →
    (∀ i, i < 64 → (gr.taking w).getLsbD i = true →
      (gr.rdWide (bitsOf w 39 32) i).mismatch (gr.rdWide (bitsOf w 31 24) i) = false) →
    Gives (.wadd g w) s (fun t => ∃ u, t.group g = some u ∧
      WideLanes gr u w (fun i => ((gr.rdWide (bitsOf w 39 32) i).combine (gr.rdWide (bitsOf w 31 24) i)).toBits) ∧
      u.u = gr.u ∧ u.p = gr.p ∧ u.fflags = gr.fflags ∧ GoesOn gr u ∧ SameGroup gr u ∧ OnlyGroup s t g)) ∧
  (∀ (s : State) (g : GroupId) (w : Word64) (gr : Group) (k : Kernel),
    VecRuns s g w ⟨0x21, none, true, .v 8, .v 8, .v 8, .none, .res0, (· == 0)⟩ gr k →
    (∃ i, i < 64 ∧ (gr.taking w).getLsbD i = true ∧
      (gr.rdWide (bitsOf w 39 32) i).mismatch (gr.rdWide (bitsOf w 31 24) i) = true) →
    (∀ i, i < 64 → s.resLine (excRecordAt g k + i) = none) →
    Gives (.wadd g w) s (fun t => VecFaults s t g gr k 5 w)) ∧
  GroupOp .wcvt ⟨0x22, none, true, .v 1, .v 8, .none, .none, .rm, wcvtSub⟩ (fun _ _ w gr _ u =>
    let res (i : Nat) : FRes := (gr.rdWide (bitsOf w 39 32) i).convert ((wcvtFmt (bitsOf w 12 9)).getD .f32)
      ((RM.decode (bitsOf w 15 13)).getD .rne) (bitOf w 8)
    Lanes gr u (gr.taking w) (fun n i => if n = bitsOf w 47 40 then some (BitVec.ofNat 32 (res i).bits) else none) ∧
    u.fflags = gr.fflags ||| flagsOf (gr.taking w) (fun i => (res i).flags) ∧ u.u = gr.u ∧ u.p = gr.p) ∧
  GroupOp .wrnd ⟨0x23, none, true, .v 8, .v 1, .v 1, .none, .res0, (· == 0)⟩ (fun _ _ w gr _ u =>
    WideLanes gr u w (fun i => (Wide.ofF32 (lane gr (bitsOf w 39 32) i)
      ((lane gr (bitsOf w 31 24) i).setWidth 16)).toBits) ∧
    u.u = gr.u ∧ u.p = gr.p ∧ u.fflags = gr.fflags)

/-- Integer and uniform instructions of the vector cores, lane by lane and once per group. For all words of their forms and
all operands: sums, differences, products modulo 2^32, the high word of the product signed or unsigned, multiply-add, minimum
and maximum signed or unsigned, bitwise operations, shifts by the low 5 bits, selection by a predicate, copy, and division
with its corner results (a division by 0 gives all ones and the dividend as remainder). The threads that take part get the
result in VD, no flag is raised, and nothing else changes. For all words of their forms and all operands, once per group:
sums, differences and products modulo 2^64, bitwise operations, shifts by the low 6 bits, minimum and maximum signed or
unsigned, and copy, with the sign-extended immediate in the V-I form. Register uD takes the result, and nothing else changes.
-/
def Obligations.VectorIntegerLanes : Prop :=
  (
    let I (x : Word32) : Word32 × FFlags := (x, 0)
    let f06 := VForm.bin 0x06 true .bit0
    let f07 := VForm.bin 0x07 true .bit0
    let f0C := VForm.bin 0x0C true .bit0
    LaneOp .iadd (.bin 0x01 true .res0) (fun _ _ _ a b _ => I (a + b)) ∧
    LaneOp .isub (.bin 0x02 true .res0) (fun _ _ _ a b _ => I (a - b)) ∧
    LaneOp .imul (.bin 0x03 true .res0) (fun _ _ _ a b _ => I (a * b)) ∧
    LaneOp .imulh (.bin 0x04 false .bit0) (fun w _ _ a b _ => I (if bitsOf w 15 13 = 1
      then BitVec.ofNat 32 (a.toNat * b.toNat / 2 ^ 32) else BitVec.ofInt 32 (a.toInt * b.toInt / 2 ^ 32))) ∧
    LaneOp .imad (.tri 0x05 .res0) (fun _ _ _ a b c => I (a * b + c)) ∧
    LaneOp .imin f06 (fun w _ _ a b _ => I (if modF f06 w = 1
      then BitVec.ofNat 32 (min a.toNat b.toNat) else BitVec.ofInt 32 (min a.toInt b.toInt))) ∧
    LaneOp .imax f07 (fun w _ _ a b _ => I (if modF f07 w = 1
      then BitVec.ofNat 32 (max a.toNat b.toNat) else BitVec.ofInt 32 (max a.toInt b.toInt))) ∧
    LaneOp .and (.bin 0x08 true .res0) (fun _ _ _ a b _ => I (a &&& b)) ∧
    LaneOp .or (.bin 0x09 true .res0) (fun _ _ _ a b _ => I (a ||| b)) ∧
    LaneOp .xor (.bin 0x0A true .res0) (fun _ _ _ a b _ => I (a ^^^ b)) ∧
    LaneOp .shl (.bin 0x0B true .res0) (fun _ _ _ a b _ => I (a <<< (b.toNat % 32))) ∧
    LaneOp .shr f0C (fun w _ _ a b _ => I (if modF f0C w = 1
      then a.sshiftRight (b.toNat % 32) else a >>> (b.toNat % 32))) ∧
    LaneOp .sel ⟨0x0D, none, true, .v 1, .v 1, .v 1, .p, .res0, (· == 0)⟩ (fun w gr i a b _ =>
      I (if (gr.rdP (bitsOf w 23 16)).getLsbD i then a else b)) ∧
    LaneOp .mov (.un 0x0E .res0) (fun _ _ _ a _ _ => I a) ∧
    LaneOp .mov ⟨0x8E, some 0x8E, true, .v 1, .none, .none, .none, .res0, (· == 0)⟩ (fun _ _ _ _ b _ => I b) ∧
    LaneOp .idiv (.bin 0x37 false .bit0) (fun w _ _ a b _ => I (if b = 0 then 0xFFFFFFFF#32
      else if bitsOf w 15 13 = 1 then BitVec.ofNat 32 (a.toNat / b.toNat) else BitVec.ofInt 32 (a.toInt.tdiv b.toInt))) ∧
    LaneOp .irem (.bin 0x38 false .bit0) (fun w _ _ a b _ => I (if b = 0 then a
      else if bitsOf w 15 13 = 1 then BitVec.ofNat 32 (a.toNat % b.toNat) else BitVec.ofInt 32 (a.toInt.tmod b.toInt)))) ∧
  (
    let op (c : GroupId → Word64 → Instr) (f : VForm) (r : Word64 → Word64 → Word64 → Word64) : Prop :=
      GroupOp c f (fun _ _ w gr _ u =>
        SetsU gr u w (r w (gr.rdU (bitsOf w 39 32))
          (if f.isI w then (w.setWidth 32).signExtend 64 else gr.rdU (bitsOf w 31 24))) ∧
        SameLanes gr u ∧ u.p = gr.p ∧ u.fflags = gr.fflags)
    let m (opc : Nat) : VForm := .uni opc .u .u .bit0
    op .uadd (.uni 0xC0 .u .u .res0) (fun _ a b => a + b) ∧ op .usub (.uni 0xC1 .u .u .res0) (fun _ a b => a - b) ∧
    op .umul (.uni 0xC2 .u .u .res0) (fun _ a b => a * b) ∧ op .uand (.uni 0xC3 .u .u .res0) (fun _ a b => a &&& b) ∧
    op .uor (.uni 0xC4 .u .u .res0) (fun _ a b => a ||| b) ∧ op .uxor (.uni 0xC5 .u .u .res0) (fun _ a b => a ^^^ b) ∧
    op .ushl (.uni 0xC6 .u .u .res0) (fun _ a b => a <<< (b.toNat % 64)) ∧
    op .ushr (m 0xC7) (fun w a b => if modF (m 0xC7) w = 1 then a.sshiftRight (b.toNat % 64) else a >>> (b.toNat % 64)) ∧
    op .umin (m 0xC8) (fun w a b => if modF (m 0xC8) w = 1 then BitVec.ofNat 64 (min a.toNat b.toNat)
      else BitVec.ofInt 64 (min a.toInt b.toInt)) ∧
    op .umax (m 0xC9) (fun w a b => if modF (m 0xC9) w = 1 then BitVec.ofNat 64 (max a.toNat b.toNat)
      else BitVec.ofInt 64 (max a.toInt b.toInt)) ∧
    op .umov ⟨0xCA, none, false, .u, .u, .none, .none, .res0, (· == 0)⟩ (fun _ a _ => a) ∧
    op .umov ⟨0xDA, some 0xDA, false, .u, .none, .none, .none, .res0, (· == 0)⟩ (fun _ _ b => b))

/-- The group issues w, a well-formed word of an opcode without v operands. -/
def Sys2Proof.Claims.CtlRuns (s : State) (g : GroupId) (w : Word64) (opc : Nat) (guard : Bool) (gr : Group) (k : Kernel) : Prop :=
  VecAt s g w gr k ∧ bitsOf w 63 56 = opc ∧ guardOk w guard = true ∧ bitsOf w 50 48 = 0

/-- The group is u after the command, and nothing else has changed. -/
def Sys2Proof.Claims.GroupIs (c : Instr) (s : State) (g : GroupId) (u : Group) : Prop :=
  Gives c s (fun t => t.group g = some u ∧ OnlyGroup s t g)

/-- Branches and jumps of a group, NOP and TRAP; words that are not defined, and registers that are not allocated. A branch
goes to its own address plus 8 times its sign-extended offset. BRA splits a group whose threads disagree: the threads that do
not branch run on, the others are pending on a new entry of the reconvergence stack; where the next word is the reconvergence
point already, the threads that do not branch park there and the others run. BRA.U compares a u register with 0. JAL.U keeps
the return address, JR.U goes to a u register. NOP only goes on. TRAP takes the exception with its code as address, and only
goes on when no thread takes part. Nothing but the group changes. A group that issues a word that Maelette-V does not define
takes the exception ILLEGAL: it halts, its kernel fails, and the record is written. An IADD with a source or destination
register past the allocated ones takes REG_RANGE. A sequencer stops with ILLEGAL on a word that Maelette-S does not define.
-/
def Obligations.GroupControlFlow : Prop :=
  (
    ∀ (s : State) (g : GroupId) (w : Word64) (gr : Group) (k : Kernel),
      let off := (w.setWidth 24).signExtend 64 * 8
      let rpc := gr.pc + ((w >>> 24).setWidth 20).signExtend 64 * 8
      let u := gr.rdU (bitsOf w 47 42)
      (CtlRuns s g w 0x72 false gr k →
        let p := gr.rdP (bitsOf w 46 44)
        let t := (if bitOf w 47 then ~~~ p else p) &&& gr.mask
        (t = 0 → GroupIs (.bra g w) s g gr.next) ∧
        (t ≠ 0 → gr.mask &&& ~~~ t = 0 → GroupIs (.bra g w) s g (gr.branch (gr.pc + off))) ∧
        (t ≠ 0 → gr.mask &&& ~~~ t ≠ 0 → rpc ≠ gr.pc + 8 →
          GroupIs (.bra g w) s g { gr with
            pc := gr.pc + 8
            mask := gr.mask &&& ~~~ t
            stack := { rpc := rpc, mask := gr.mask, parked := 0, pending := [⟨gr.pc + off, t⟩] } :: gr.stack
            back := false }) ∧
        (t ≠ 0 → gr.mask &&& ~~~ t ≠ 0 → rpc = gr.pc + 8 → gr.pc + off ≠ rpc →
          GroupIs (.bra g w) s g { gr with
            pc := gr.pc + off
            mask := t
            stack := { rpc := rpc, mask := gr.mask, parked := gr.mask &&& ~~~ t, pending := [] } :: gr.stack
            back := false }) ∧
        (t ≠ 0 → gr.mask &&& ~~~ t ≠ 0 → rpc = gr.pc + 8 → gr.pc + off = rpc → gr.stack = [] →
          GroupIs (.bra g w) s g { gr with pc := gr.pc + 8, mask := gr.mask &&& ~~~ gr.exited, back := false })) ∧
      (CtlRuns s g w 0x73 false gr k → bitsOf w 38 24 = 0 →
        let c := bitsOf w 41 39
        let taken : Prop := (c = 0 ∧ u = 0) ∨ (c = 1 ∧ u ≠ 0) ∨ (c = 2 ∧ u.toInt < 0) ∨ (c = 3 ∧ u.toInt ≤ 0) ∨
          (c = 4 ∧ 0 < u.toInt) ∨ (c = 5 ∧ 0 ≤ u.toInt) ∨ c = 7
        (taken → GroupIs (.braU g w) s g (gr.branch (gr.pc + off))) ∧ (¬ taken → GroupIs (.braU g w) s g gr.next)) ∧
      (CtlRuns s g w 0x74 false gr k → bitsOf w 47 24 = 0 → GroupIs (.jmp g w) s g (gr.branch (gr.pc + off)) ∧
        (gr.stack = [] → GroupIs (.jmp g w) s g { gr with
          pc := gr.pc + off, back := decide ((gr.pc + off).toNat ≤ gr.pc.toNat) })) ∧
      (CtlRuns s g w 0x75 false gr k → bitsOf w 41 24 = 0 →
        GroupIs (.jalU g w) s g ((gr.wrU (bitsOf w 47 42) (gr.pc + 8)).branch (gr.pc + off))) ∧
      (CtlRuns s g w 0x76 false gr k → bitsOf w 41 0 = 0 → GroupIs (.jrU g w) s g (gr.branch u)) ∧
      (CtlRuns s g w 0x7E false gr k → bitsOf w 47 0 = 0 → GroupIs (.nop g w) s g gr.next) ∧
      (CtlRuns s g w 0x77 true gr k → bitsOf w 47 16 = 0 → gr.taking w = 0 → GroupIs (.trap g w) s g gr.next) ∧
      (CtlRuns s g w 0x77 true gr k → bitsOf w 47 16 = 0 → gr.taking w ≠ 0 →
        (∀ i, i < 64 → s.resLine (excRecordAt g k + i) = none) →
        Gives (.trap g w) s (fun t => VecFaults s t g gr k 8 w ∧ t.rdNat (excRecordAt g k + 16) 8 = bitsOf w 15 0))) ∧
  (
    (∀ (s : State) (g : GroupId) (w : Word64) (gr : Group) (k : Kernel), VecAt s g w gr k → vecDefined w = false →
      (∀ i, i < 64 → s.resLine (excRecordAt g k + i) = none) →
      Gives (.illegal (.vector g w)) s (fun t => VecFaults s t g gr k 1 w)) ∧
    (∀ (s : State) (g : GroupId) (w : Word64) (gr : Group) (k : Kernel), VecAt s g w gr k →
      (VForm.bin 0x01 true .res0).hasOpc w = true → (VForm.bin 0x01 true .res0).legal w = true →
      (∃ r ∈ (VForm.bin 0x01 true .res0).sources w ++ (VForm.bin 0x01 true .res0).dests w, gr.v.length ≤ r) →
      (∀ i, i < 64 → s.resLine (excRecordAt g k + i) = none) →
      Gives (.iadd g w) s (fun t => VecFaults s t g gr k 2 w)) ∧
    (∀ (s : State) (k : TileId) (w : Word32), SeqAt s k w → seqDefined w = false →
      Gives (.illegal (.sequencer k w)) s (fun t => SeqFaults s t k 1)))

/-- Nothing but the core of a group, registers of a list, and counters has changed; the tile's range cache keeps its entries, in
another order of use. -/
def Sys2Proof.Claims.OnlyCore (s t : State) (k : TileId) (c : CoreId) (rs : List Reg) : Prop :=
  KeepsRegs s t rs ∧ { t with tiles := s.tiles, obs := s.obs, regs := s.regs } = s ∧
    { t.obs with counts := s.obs.counts } = s.obs ∧ (∀ j, j ≠ k → t.tile j = s.tile j) ∧
    { t.tile k with cores := (s.tile k).cores, rcV := (s.tile k).rcV } = s.tile k ∧
    (t.tile k).rcV.Perm (s.tile k).rcV ∧ (∀ d, d ≠ c → t.core k d = s.core k d)

/-- EXIT, the block barrier, the caches, the active slots and the start of a block. EXIT removes the threads that take part;
the last one ends the group, whose flags go to VC_FLAGS. A group at the barrier waits until every group of its block has
arrived, and a divergent one takes DIVERGENT_BARRIER. L1INV empties the data cache, a fill brings the line of the program
counter into the instruction cache, or halts the group when the fetch meets an error. A timeslice makes a group that has just
taken a backward branch ready behind the ones that are, a free active slot takes the group that is ready longest, whose
register cache is empty, and a block starts with its groups as at their start, unless the tile's cores hold (R111). -/
def Obligations.GroupsEndMeetAndStart : Prop :=
  ∀ (s : State) (g : GroupId) (w : Word64) (gr : Group) (k : Kernel),
    (CtlRuns s g w 0x71 true gr k → bitsOf w 47 0 = 0 →
      (gr.mask &&& ~~~ gr.taking w ≠ 0 → gr.stack = [] →
        GroupIs (.exit g w) s g { gr with
          pc := gr.pc + 8, mask := gr.mask &&& ~~~ gr.taking w, exited := gr.exited ||| gr.taking w, back := false }) ∧
      (gr.mask &&& ~~~ gr.taking w ≠ 0 → GroupIs (.exit g w) s g (gr.exitThreads (gr.taking w)).next) ∧
      (gr.mask &&& ~~~ gr.taking w = 0 → (gr.exitThreads (gr.taking w)).settle.mask ≠ 0 →
        GroupIs (.exit g w) s g (gr.exitThreads (gr.taking w)).settle) ∧
      (gr.mask &&& ~~~ gr.taking w = 0 → gr.stack = [] →
        Gives (.exit g w) s (fun t => t.group g = none ∧
          t.rd (.VC_FLAGS g.tile.val g.core.val) = s.rd (.VC_FLAGS g.tile.val g.core.val) ||| gr.fflags.setWidth 64 ∧
          (t.core g.tile g.core).isActive g.slot = false ∧
          OnlyCore s t g.tile g.core [.VC_FLAGS g.tile.val g.core.val]))) ∧
    (CtlRuns s g w 0x70 false gr k → bitsOf w 47 0 = 0 →
      let others : Prop := ∀ i, i ≠ g.slot → ∀ x, (s.core g.tile g.core).group i = some x → x.blockSlot = gr.blockSlot →
        x.wait = some .barrier
      ((gr.stack ≠ [] ∨ gr.mask ≠ ~~~ gr.exited) → (∀ i, i < 64 → s.resLine (excRecordAt g k + i) = none) →
        Gives (.barBlk g w) s (fun t => VecFaults s t g gr k 4 w)) ∧
      (gr.stack = [] → gr.mask = ~~~ gr.exited → others →
        Gives (.barBlk g w) s (fun t =>
          (∃ x, t.group g = some x ∧ { x with writes := gr.writes } = gr.next ∧
            ((∀ i y, (s.core g.tile g.core).group i = some y → y.blockSlot = gr.blockSlot → y.block = gr.block) →
              x.writes = gr.writes.map (fun w => { w with barrier := some gr.block }))) ∧
          (∀ i x, (t.core g.tile g.core).group i = some x → x.blockSlot = gr.blockSlot → x.wait ≠ some .barrier) ∧
          OnlyCore s t g.tile g.core [])) ∧
      (gr.stack = [] → gr.mask = ~~~ gr.exited → ¬ others →
        Gives (.barBlk g w) s (fun t => t.group g = some { gr.next with wait := some .barrier, readyAt := none, cache := [] } ∧
          (t.core g.tile g.core).isActive g.slot = false ∧
          (∀ i, i ≠ g.slot → (t.core g.tile g.core).group i = (s.core g.tile g.core).group i) ∧
          OnlyCore s t g.tile g.core []))) ∧
    (CtlRuns s g w 0x4B false gr k → bitsOf w 47 0 = 0 →
      Gives (.l1inv g w) s (fun t => (t.core g.tile g.core).l1d = [] ∧ t.group g = some gr.next ∧
        { t.core g.tile g.core with
          l1d := (s.core g.tile g.core).l1d, l1i := (s.core g.tile g.core).l1i, groups := (s.core g.tile g.core).groups } =
          s.core g.tile g.core ∧
        OnlyCore s t g.tile g.core [])) ∧
    (Runs s → s.mayIssue g = true → s.group g = some gr → (s.tile g.tile).kernel = some k →
      ∀ tgt hostData, s.fetchAt g.tile k gr.pc = .at_ tgt →
        (tgt.cls = .localMem → chipOf tgt.addr = s.chipId → s.ueIn (localOf tgt.addr / 256 * 256) 256 = none →
          Gives (.icacheFill g false hostData) s (fun t =>
            (t.core g.tile g.core).l1i.head? =
              some ⟨tgt.addr / 256 * 256, s.rdBytes (localOf tgt.addr / 256 * 256) 256, false⟩ ∧
            { t.core g.tile g.core with l1i := (s.core g.tile g.core).l1i } = s.core g.tile g.core ∧
            OnlyCore s t g.tile g.core [])) ∧
        (tgt.cls ≠ .localMem → hostData.length = 256 →
          Gives (.icacheFill g false hostData) s (fun t =>
            (t.core g.tile g.core).l1i.head? = some ⟨lineKey tgt / 256 * 256, hostData, false⟩ ∧
            { t.core g.tile g.core with l1i := (s.core g.tile g.core).l1i } = s.core g.tile g.core ∧
            OnlyCore s t g.tile g.core [])) ∧
        Gives (.icacheFill g true hostData) s (fun t =>
          t.group g = some { gr with halted := true, wait := none, readyAt := none, cache := [] } ∧
          (t.tile g.tile).kernel = some { k with failed := true, status := 1 } ∧
          (s.fld (.VC_EXC g.tile.val g.core.val) F.VC_EXC_VALID = 0 →
            t.fld (.VC_EXC g.tile.val g.core.val) F.VC_EXC_CODE = 7))) ∧
    (Runs s → s.group g = some gr → gr.wait = none → (s.core g.tile g.core).isActive g.slot = true →
      gr.back = true → s.tileHolds g.tile = false → (s.core g.tile g.core).earliestReady ≠ none →
      Gives (.groupTimeslice g) s (fun t =>
        t.group g = some { gr with readyAt := some (s.core g.tile g.core).clock, cache := [] } ∧
        (t.core g.tile g.core).isActive g.slot = false ∧
        (∀ i, i ≠ g.slot → (t.core g.tile g.core).group i = (s.core g.tile g.core).group i) ∧
        OnlyCore s t g.tile g.core [])) ∧
    (∀ i j, Runs s → s.tileHolds g.tile = false → (s.core g.tile g.core).freeActive = some i → (s.core g.tile g.core).earliestReady = some j →
      Gives (.activeSlotFill g.tile g.core) s (fun t =>
        (t.core g.tile g.core).active[i.val]'(i.isLt) = some j ∧
        (∀ x, (t.core g.tile g.core).group j = some x → x.readyAt = none ∧ x.cache = []) ∧
        (∀ n, n ≠ j → (t.core g.tile g.core).group n = (s.core g.tile g.core).group n) ∧
        OnlyCore s t g.tile g.core [])) ∧
    (∀ j, Runs s → s.tileHolds g.tile = false → (s.tile g.tile).kernel = some k → k.started = true → k.failed = false →
      (s.core g.tile g.core).canStart k g.core = true →
      (s.core g.tile g.core).freeBlockSlot (k.blockLimit g.core) = some j →
      Gives (.blockStart g.tile g.core) s (fun t =>
        let b := (s.core g.tile g.core).nextBlock
        (t.core g.tile g.core).nextBlock = b + 4 ∧ (t.core g.tile g.core).blocks[j.val]'(j.isLt) = some b ∧
        (∀ x ∈ ((s.core g.tile g.core).freeSlots.take k.g).zipIdx, ∃ q, (t.core g.tile g.core).group x.1 = some q ∧
          q.block = b ∧ q.num = x.2 ∧ q.blockSlot = j.val ∧ q.pc = k.entry ∧ q.mask = BitVec.allOnes 64 ∧
          q.rdU 0 = k.arg0 ∧ q.rdU 1 = k.arg1 ∧ q.rdU 2 = BitVec.ofNat 64 b ∧ q.rdU 3 = BitVec.ofNat 64 k.desc ∧
          q.v.length = 8 * ((k.vregs + 7) / 8) ∧ q.readyAt = some (s.core g.tile g.core).clock) ∧
        OnlyCore s t g.tile g.core []))

/-- The group issues w, a well-formed word of a memory opcode whose registers exist and whose sources can be read; no access
of the group is in flight, and the reservoir holds no line of a slab. -/
def Sys2Proof.Claims.MemRuns (s : State) (g : GroupId) (w : Word64) (opc : Nat) (sp : MSpace) (kind : MKind) (gr : Group)
    (k : Kernel) : Prop :=
  bitsOf w 63 56 = opc ∧ mLegal w sp kind = true ∧ VecAt s g w gr k ∧
    (∀ r ∈ mSources w kind ++ mDests w kind, r < gr.v.length) ∧ gr.loads = [] ∧ gr.writes = [] ∧
    gr.markedBy (mSources w kind) = none ∧ (∀ e ∈ gr.rfUE, e.1 ∉ mSources w kind) ∧
    (∀ a, slabBase ≤ a → a < 0x40018000000 → s.resLine a = none)

/-- The bytes that a size code moves: 1, 1, 2, 2, 4, 8, 16. -/
def Sys2Proof.Claims.szN (sz : Nat) : Nat := [1, 1, 2, 2, 4, 8, 16, 16].getD sz 16

/-- The slab offset that thread i of a LDS, STS, LDL or STL reaches: the low 32 bits of its VA register plus an immediate,
in the block's part of the pool for a local access. -/
def Sys2Proof.Claims.slabOff (g : GroupId) (gr : Group) (k : Kernel) (w : Word64) (loc : Bool) (imm : Word32) (i : Nat) : Nat :=
  (if loc then k.poolBase[g.core] * 4096 + gr.blockSlot * (k.localUnits * 4096) else 0) +
    (lane gr (bitsOf w 39 32) i + imm).toNat

/-- Every thread that takes part reaches n bytes of the own slab that its context owns, aligned, without an error, and
within the block's local memory where loc says so. -/
def Sys2Proof.Claims.Reaches (s : State) (g : GroupId) (gr : Group) (k : Kernel) (w : Word64) (loc : Bool) (imm : Word32)
    (n : Nat) : Prop :=
  s.revoked k.ctx = false ∧ (∀ i ∈ threadsOf (gr.taking w),
    (lane gr (bitsOf w 39 32) i + imm).toNat % n = 0 ∧
    (loc = true → (lane gr (bitsOf w 39 32) i + imm).toNat + n ≤ k.localUnits * 4096) ∧
    slabOff g gr k w loc imm i < 0x600000 ∧ s.slabOwned g.tile k.ctx (slabOff g gr k w loc imm i) = true ∧
    s.ueIn (slabAddr g.tile (slabOff g gr k w loc imm i)) n = none)

/-- The register words that hold a number of a size code, sign-extended for codes 1 and 3. -/
def Sys2Proof.Claims.szLane (sz : Nat) (v j : Nat) : Word32 :=
  if sz = 1 then (BitVec.ofNat 8 v).signExtend 32 else if sz = 3 then (BitVec.ofNat 16 v).signExtend 32
  else BitVec.ofNat 32 (v / 2 ^ (32 * j))

/-- VD and, for 8 and 16 bytes, the registers after it take a number in each thread that takes part. -/
def Sys2Proof.Claims.TakesValues (gr u : Group) (w : Word64) (val : Nat → Nat) : Prop :=
  Lanes gr u (gr.taking w) (fun n i =>
    if bitsOf w 47 40 ≤ n ∧ n < bitsOf w 47 40 + max 1 (szN (bitsOf w 17 15) / 4) ∧ bitsOf w 47 40 ≠ 255 then
      some (szLane (bitsOf w 17 15) (val i) (n - bitsOf w 47 40)) else none)

/-- The value that thread i stores: the words of VD and the registers after it. -/
def Sys2Proof.Claims.storedBy (gr : Group) (w : Word64) (i : Nat) : Nat :=
  if bitsOf w 47 40 = 255 then 0
  else (List.range (max 1 (szN (bitsOf w 17 15) / 4))).foldl
    (fun v j => v + 2 ^ (32 * j) * (lane gr (bitsOf w 47 40 + j) i).toNat) 0

/-- Every byte is that of the highest-numbered thread that takes part and stores to it, and otherwise as before. -/
def Sys2Proof.Claims.StoresBytes (s t : State) (gr : Group) (w : Word64) (addr : Nat → Nat) : Prop :=
  ∀ a, t.rdByte a = (((threadsOf (gr.taking w)).reverse.find?
      (fun i => addr i ≤ a && a < addr i + szN (bitsOf w 17 15))).map
    (fun i => BitVec.ofNat 8 (storedBy gr w i / 256 ^ (a - addr i)))).getD (s.rdByte a)

/-- Nothing but memory, group g, the names of accesses of its core and counters has changed; the core's instruction cache and
the tile's range cache keep their entries, in another order of use. -/
def Sys2Proof.Claims.OnlyMemory (s t : State) (g : GroupId) : Prop :=
  { t with mem := s.mem, tiles := s.tiles, obs := s.obs } = s ∧ { t.obs with counts := s.obs.counts } = s.obs ∧
    (∀ j, j ≠ g.tile → t.tile j = s.tile j) ∧
    { t.tile g.tile with cores := (s.tile g.tile).cores, rcV := (s.tile g.tile).rcV } = s.tile g.tile ∧
    (t.tile g.tile).rcV.Perm (s.tile g.tile).rcV ∧ (t.core g.tile g.core).l1i.Perm (s.core g.tile g.core).l1i ∧
    (∀ c, c ≠ g.core → t.core g.tile c = s.core g.tile c) ∧
    { t.core g.tile g.core with groups := (s.core g.tile g.core).groups, nextId := (s.core g.tile g.core).nextId,
                                l1i := (s.core g.tile g.core).l1i
                                clock := (s.core g.tile g.core).clock } = s.core g.tile g.core

/-- The group goes on: with the next word, and with everything but the v registers and what is in flight as before. -/
def Sys2Proof.Claims.MemGoesOn (gr u : Group) : Prop :=
  GoesOn gr u ∧ SameGroup gr u ∧ u.u = gr.u ∧ u.p = gr.p ∧ u.fflags = gr.fflags ∧ u.loads = []

/-- A load of the own slab. -/
def Sys2Proof.Claims.SlabLoads (c : GroupId → Word64 → Instr) (opc : Nat) (loc : Bool) : Prop :=
  ∀ (s : State) (g : GroupId) (w : Word64) (gr : Group) (k : Kernel),
    MemRuns s g w opc (if loc then .blockLocal else .ownSlab) .load gr k →
    Reaches s g gr k w loc ((w.setWidth 14).signExtend 32) (szN (bitsOf w 17 15)) →
    Gives (c g w) s (fun t => ∃ u, t.group g = some u ∧
      TakesValues gr u w (fun i =>
        s.rdNat (slabAddr g.tile (slabOff g gr k w loc ((w.setWidth 14).signExtend 32) i)) (szN (bitsOf w 17 15))) ∧
      MemGoesOn gr u ∧ KeepsBytes s t ∧ OnlyGroup s t g)

/-- A store to the own slab. -/
def Sys2Proof.Claims.SlabStores (c : GroupId → Word64 → Instr) (opc : Nat) (loc : Bool) : Prop :=
  ∀ (s : State) (g : GroupId) (w : Word64) (gr : Group) (k : Kernel),
    MemRuns s g w opc (if loc then .blockLocal else .ownSlab) .store gr k →
    Reaches s g gr k w loc ((w.setWidth 14).signExtend 32) (szN (bitsOf w 17 15)) →
    Gives (c g w) s (fun t => ∃ u, t.group g = some u ∧ u.v = gr.v ∧ MemGoesOn gr u ∧ OnlyMemory s t g ∧
      StoresBytes s t gr w (fun i => slabAddr g.tile (slabOff g gr k w loc ((w.setWidth 14).signExtend 32) i)))

/-- A thread's access does not pass a check: the exception of the first failing thread, by the code of its check. -/
def Sys2Proof.Claims.SlabTraps (c : GroupId → Word64 → Instr) (opc : Nat) (loc : Bool) (kind : MKind) : Prop :=
  ∀ (s : State) (g : GroupId) (w : Word64) (gr : Group) (k : Kernel) (i : Nat) (code : Nat),
    MemRuns s g w opc (if loc then .blockLocal else .ownSlab) kind gr k →
    (∀ j, j < 64 → s.resLine (excRecordAt g k + j) = none) →
    (threadsOf (gr.taking w)).head? = some i →
    let a := (lane gr (bitsOf w 39 32) i + (w.setWidth 14).signExtend 32).toNat
    let n := szN (bitsOf w 17 15)
    (a % n ≠ 0 ∧ code = 0x10) ∨
      (a % n = 0 ∧ loc = true ∧ k.localUnits * 4096 < a + n ∧ code = 0x11) ∨
      (a % n = 0 ∧ loc = false ∧ (s.revoked k.ctx = true ∨ (a < 0x600000 ∧ s.slabOwned g.tile k.ctx a = false)) ∧
        code = 0x13) ∨
      (a % n = 0 ∧ loc = false ∧ s.revoked k.ctx = false ∧ 0x600000 ≤ a ∧ code = 0x15) →
    Gives (c g w) s (fun t => VecFaults s t g gr k code w)

/-- The signed number of the low b bits. -/
def Sys2Proof.Claims.signed (b x : Nat) : Int := if x < 2 ^ (b - 1) then (x : Int) else (x : Int) - (2 : Int) ^ b

/-- The operand of thread i of an atomic, of 32 or 64 bits: VB and the register after it, or, second, the registers after those. -/
def Sys2Proof.Claims.atomArg (gr : Group) (w : Word64) (second : Bool) (i : Nat) : Nat :=
  let n := if bitsOf w 17 15 = 4 then 1 else 2
  let r := bitsOf w 31 24 + (if second then n else 0)
  if bitsOf w 31 24 = 255 then 0
  else (lane gr r i).toNat + (if n = 2 then 2 ^ 32 * (lane gr (r + 1) i).toNat else 0)

/-- An atomic on the own slab, thread i at offset off i: in thread order, each thread that takes part fetches the value at its
location into VD and leaves op of that value and its operands there; no other byte changes. -/
def Sys2Proof.Claims.AtomicAt (c : GroupId → Word64 → Instr) (op : Nat → Nat → Nat → Nat → Nat) (s : State) (g : GroupId)
    (w : Word64) (gr : Group) (off : Nat → Nat) : Prop :=
    let n := szN (bitsOf w 17 15)
    let run (i : Nat) (p : Nat → Bool) : Nat :=
      ((threadsOf (gr.taking w)).filter (fun j => off j == off i && p j)).foldl
        (fun v j => op (8 * n) v (atomArg gr w false j) (atomArg gr w true j)) (s.rdNat (slabAddr g.tile (off i)) n)
    Gives (c g w) s (fun t => ∃ u, t.group g = some u ∧
      TakesValues gr u w (fun i => run i (fun j => decide (j < i))) ∧
      (∀ i ∈ threadsOf (gr.taking w), t.rdNat (slabAddr g.tile (off i)) n = run i (fun _ => true)) ∧
      (∀ a, (∀ i ∈ threadsOf (gr.taking w), a < slabAddr g.tile (off i) ∨ slabAddr g.tile (off i) + n ≤ a) →
        t.rdByte a = s.rdByte a) ∧
      MemGoesOn gr u ∧ OnlyMemory s t g)

/-- The virtual address of thread i: u register UB plus the extended VA register plus an immediate. -/
def Sys2Proof.Claims.virtOf (gr : Group) (w : Word64) (imm : Word64) (i : Nat) : Word64 :=
  gr.rdU (bitsOf w 23 18) +
    (if bitOf w 14 then (lane gr (bitsOf w 39 32) i).signExtend 64 else (lane gr (bitsOf w 39 32) i).setWidth 64) + imm

/-- Every thread that takes part has an aligned address that its ranges map, with the access allowed, to n bytes of the own slab
at off, which its context owns, without an error. -/
def Sys2Proof.Claims.VirtReaches (s : State) (g : GroupId) (gr : Group) (k : Kernel) (w : Word64) (acc : BitVec 4)
    (imm : Word64) (n : Nat) (off : Nat → Nat) : Prop :=
  k.sched = false ∧ s.revoked k.ctx = false ∧ (∀ i ∈ threadsOf (gr.taking w),
    let va := virtOf gr w imm i
    s.translate (s.tile g.tile).rcV false k.ctx va acc =
        .ok ⟨.localMem, s.chipId * 2 ^ 43 + slabAddr g.tile (off i), .normal⟩ false ∧
      va.toNat % n = 0 ∧ off i % n = 0 ∧ off i < 0x600000 ∧ s.slabOwned g.tile k.ctx (off i) = true ∧
      s.ueIn (slabAddr g.tile (off i)) n = none)

/-- An atomic on the own slab, through its three opcodes: at a slab offset, in the block's memory, or at a virtual address. With
no thread taking part the group only goes on. -/
def Sys2Proof.Claims.AtomicOp (c : GroupId → Word64 → Instr) (aop : Nat) (op : Nat → Nat → Nat → Nat → Nat) : Prop :=
  ∀ (s : State) (g : GroupId) (w : Word64) (gr : Group) (k : Kernel), bitsOf w 13 10 = aop →
    (s.core g.tile g.core).findLoad (s.core g.tile g.core).nextId = none →
    (∀ loc : Bool, MemRuns s g w (if loc then 0x47 else 0x46) (if loc then .blockLocal else .ownSlab) .atomic gr k →
      (gr.taking w = 0 → GroupIs (c g w) s g gr.next) ∧
      (gr.taking w ≠ 0 → Reaches s g gr k w loc ((w.setWidth 10).signExtend 32) (szN (bitsOf w 17 15)) →
        AtomicAt c op s g w gr (slabOff g gr k w loc ((w.setWidth 10).signExtend 32)))) ∧
    (∀ off : Nat → Nat, MemRuns s g w 0x48 .virt .atomic gr k → gr.taking w ≠ 0 →
      VirtReaches s g gr k w accA ((w.setWidth 10).signExtend 64) (szN (bitsOf w 17 15)) off →
        AtomicAt c op s g w gr off)

/-- Loads, stores and atomics of the own slab and of block memory. Each thread that takes part reaches the 32-bit sum of its
VA register and the immediate, in the slab or in its block's part of the pool. A load gives VD and the registers after it the
bytes, sub-word values zero- or sign-extended; a store writes VD's bytes, where threads meet those of the highest-numbered
one; no other byte changes. ULDS and USTS move one u register. A misaligned access of a load or store of a group traps with
ACC_ALIGN, one past the block's memory with ACC_LOCAL_RANGE, one that its context may not make with ACC_PERMISSION, one past
the slab with ACC_DECODE. The eleven atomic operations on 32- or 64-bit values, at a slab offset, in block memory or at a
virtual address of the own slab: add, signed and unsigned minimum and maximum, and, or, xor, exchange, compare and swap, and
FP32 add rounded at every step. Threads that share a location follow one another in thread order, each fetching what the one
before it left; VD gets the fetched value, and nothing but the locations and VD changes. -/
def Obligations.SlabAccesses : Prop :=
  (SlabLoads .lds 0x40 false ∧ SlabLoads .ldl 0x42 true ∧ SlabStores .sts 0x41 false ∧ SlabStores .stl 0x43 true ∧
  SlabTraps .lds 0x40 false .load ∧ SlabTraps .ldl 0x42 true .load ∧
  SlabTraps .sts 0x41 false .store ∧ SlabTraps .stl 0x43 true .store ∧
  (∀ (s : State) (g : GroupId) (w : Word64) (gr : Group) (k : Kernel),
    VecAt s g w gr k → guardOk w false = true → bitsOf w 50 48 = 0 → bitsOf w 39 32 ≤ 255 →
    DstKind.u.ok (bitsOf w 47 40) = true → SrcKind.u.ok (bitsOf w 39 32) = true →
    gr.waitsFor [] = false → gr.markedBy [] = none →
    let a := (gr.rdU (bitsOf w 39 32) + (w.setWidth 32).signExtend 64).toNat
    a % 8 = 0 → a < 0x600000 → s.revoked k.ctx = false → s.slabOwned g.tile k.ctx a = true →
    (bitsOf w 63 56 = 0x49 → s.ueIn (slabAddr g.tile a) 8 = none →
      GroupIs (.ulds g w) s g (gr.wrU (bitsOf w 47 40) (BitVec.ofNat 64 (s.rdNat (slabAddr g.tile a) 8))).next) ∧
    (bitsOf w 63 56 = 0x4A → (∀ i, i < 8 → s.resLine (slabAddr g.tile a + i) = none) →
      Gives (.usts g w) s (fun t => t.group g = some gr.next ∧ KeepsRegs s t [] ∧
        (∀ i, i < 8 → t.rdByte (slabAddr g.tile a + i) = BitVec.ofNat 8 ((gr.rdU (bitsOf w 47 40)).toNat / 256 ^ i)) ∧
        (∀ x, (x < slabAddr g.tile a ∨ slabAddr g.tile a + 8 ≤ x) → t.rdByte x = s.rdByte x))))) ∧
  (AtomicOp .aopAdd 0 (fun b v x _ => (v + x) % 2 ^ b) ∧
  AtomicOp .aopSmin 1 (fun b v x _ => if signed b x < signed b v then x else v) ∧
  AtomicOp .aopUmin 2 (fun _ v x _ => min v x) ∧
  AtomicOp .aopSmax 3 (fun b v x _ => if signed b v < signed b x then x else v) ∧
  AtomicOp .aopUmax 4 (fun _ v x _ => max v x) ∧
  AtomicOp .aopAnd 5 (fun _ v x _ => v &&& x) ∧ AtomicOp .aopOr 6 (fun _ v x _ => v ||| x) ∧
  AtomicOp .aopXor 7 (fun _ v x _ => v ^^^ x) ∧ AtomicOp .exch 8 (fun _ _ x _ => x) ∧
  AtomicOp .cas 9 (fun _ v x y => if v = x then y else v) ∧
  AtomicOp .aopFadd 10 (fun _ v x _ => (Fmt.f32.add .rne (Fmt.f32.decode v) (Fmt.f32.decode x)).bits % 2 ^ 32))

/-- The target of thread i of a LD or ST, where its ranges map its address and count nothing. -/
def Sys2Proof.Claims.targetOf (s : State) (g : GroupId) (gr : Group) (k : Kernel) (w : Word64) (acc : BitVec 4) (i : Nat) :
    Option Target :=
  match s.translate (s.tile g.tile).rcV false k.ctx (virtOf gr w ((w.setWidth 14).signExtend 64) i) acc with
  | .ok tgt false => some tgt
  | _ => none

/-- The address in tier 1 of thread i of a LD or ST. -/
def Sys2Proof.Claims.tier1Of (s : State) (g : GroupId) (gr : Group) (k : Kernel) (w : Word64) (acc : BitVec 4) (i : Nat) : Nat :=
  ((targetOf s g gr k w acc i).map (fun x => x.addr)).getD 0

/-- Every thread that takes part, and there is one, has an aligned address of n bytes that its ranges map, with the access
allowed, to NORMAL memory of tier 1 of this chip. -/
def Sys2Proof.Claims.Tier1Reaches (s : State) (g : GroupId) (gr : Group) (k : Kernel) (w : Word64) (acc : BitVec 4) (n : Nat) : Prop :=
  gr.taking w ≠ 0 ∧ k.sched = false ∧ s.revoked k.ctx = false ∧ (∀ i ∈ threadsOf (gr.taking w),
    (virtOf gr w ((w.setWidth 14).signExtend 64) i).toNat % n = 0 ∧
    targetOf s g gr k w acc i = some ⟨.localMem, tier1Of s g gr k w acc i, .normal⟩ ∧
    tier1Of s g gr k w acc i % n = 0 ∧ chipOf (tier1Of s g gr k w acc i) = s.chipId ∧
    placeOf (localOf (tier1Of s g gr k w acc i)) = .tier1 ∧ s.backed (localOf (tier1Of s g gr k w acc i)) = true)

/-- The line of the L1 data cache of group g's core that holds an address. -/
def Sys2Proof.Claims.l1Line (s : State) (g : GroupId) (a : Nat) : Option DLine :=
  (s.core g.tile g.core).dline ⟨.localMem, a, .normal⟩

/-- LD and ST, fences, late reports and returns of accesses. LD and ST reach u register UB plus the extended VA register plus
the immediate; where that is the own slab they move the same bytes as LDS and STS. A LD of NORMAL lines of tier 1 that the L1
data cache holds without a parity error takes its bytes from there; one of lines that it does not hold is outstanding, and
the group goes on. A ST to NORMAL tier 1 is outstanding with the bytes that it writes, those of the highest-numbered thread.
A fence with nothing outstanding empties the data cache and the group goes on; otherwise it waits, and goes on with
FENCE_COMPLETE once nothing is. A late report marks a load's registers; that of a store, or of a load whose VD is 255, waits
to halt the group before its next instruction; a report of lost data at an address of this chip raises source 20. A returned
load writes its words. A flushed merge entry leaves the buffer, whole. -/
def Obligations.VirtualAccessesFencesAndReports : Prop :=
  (∀ (s : State) (g : GroupId) (w : Word64) (gr : Group) (k : Kernel),
    let n := szN (bitsOf w 17 15)
    ∀ off : Nat → Nat,
      (MemRuns s g w 0x44 .virt .load gr k → VirtReaches s g gr k w accR ((w.setWidth 14).signExtend 64) n off →
        Gives (.ld g w) s (fun t => ∃ u, t.group g = some u ∧
          TakesValues gr u w (fun i => s.rdNat (slabAddr g.tile (off i)) n) ∧ MemGoesOn gr u ∧ KeepsBytes s t ∧
          OnlyMemory s t g)) ∧
      (MemRuns s g w 0x45 .virt .store gr k → VirtReaches s g gr k w accW ((w.setWidth 14).signExtend 64) n off →
        Gives (.st g w) s (fun t => ∃ u, t.group g = some u ∧ u.v = gr.v ∧ MemGoesOn gr u ∧ OnlyMemory s t g ∧
          StoresBytes s t gr w (fun i => slabAddr g.tile (off i))))) ∧
  (∀ (s : State) (g : GroupId) (w : Word64) (gr : Group) (k : Kernel),
    let n := szN (bitsOf w 17 15)
    (MemRuns s g w 0x44 .virt .load gr k → Tier1Reaches s g gr k w accR n →
      let at_ (i : Nat) : Nat := tier1Of s g gr k w accR i
      ((∀ i ∈ threadsOf (gr.taking w), (l1Line s g (at_ i)).any (fun d => !d.parity) = true) →
        Gives (.ld g w) s (fun t => ∃ u, t.group g = some u ∧
          TakesValues gr u w (fun i =>
            leNat (((((l1Line s g (at_ i)).map (fun d => d.bytes)).getD []).drop (at_ i % 64)).take n)) ∧
          MemGoesOn gr u ∧ KeepsBytes s t ∧ (t.core g.tile g.core).l1d.Perm (s.core g.tile g.core).l1d)) ∧
      ((∀ i ∈ threadsOf (gr.taking w), l1Line s g (at_ i) = none) →
        Gives (.ld g w) s (fun t => ∃ u, t.group g = some u ∧ u.v = gr.v ∧ GoesOn gr u ∧ KeepsBytes s t ∧
          u.loads.map (fun l => l.lanes.map (fun x => (x.thread, x.tgt.addr))) =
            [(threadsOf (gr.taking w)).map (fun i => (i, at_ i))] ∧ s.out.length < t.out.length))) ∧
    (MemRuns s g w 0x45 .virt .store gr k → Tier1Reaches s g gr k w accW n →
      let at_ (i : Nat) : Nat := tier1Of s g gr k w accW i
      Gives (.st g w) s (fun t => ∃ u, t.group g = some u ∧ u.v = gr.v ∧ GoesOn gr u ∧ KeepsBytes s t ∧
        (∀ i ∈ threadsOf (gr.taking w), ∀ j, j < n → ∃ x ∈ u.writes, at_ i + j ∈ x.bytes.map (fun b => b.1)) ∧
        (∀ x ∈ u.writes, ∀ b ∈ x.bytes,
          (((threadsOf (gr.taking w)).reverse.find? (fun i => at_ i ≤ b.1 && b.1 < at_ i + n)).map
            (fun i => BitVec.ofNat 8 (storedBy gr w i / 256 ^ (b.1 - at_ i)))) = some b.2)))) ∧
  (∀ (s : State) (g : GroupId) (w : Word64) (gr : Group) (k : Kernel),
    let fence (c : GroupId → Word64 → Instr) (opc : Nat) (b : Bool) : Prop :=
      CtlRuns s g w opc false gr k → bitsOf w 47 0 = 0 →
      (∀ e ∈ (s.core g.tile g.core).merge, g.slot ∉ e.slots) →
      (gr.loads = [] → gr.writes = [] → Gives (c g w) s (fun t => ∃ u, t.group g = some u ∧ GoesOn gr u ∧ SameGroup gr u ∧
        u.v = gr.v ∧ (t.core g.tile g.core).l1d = [] ∧ KeepsBytes s t ∧ KeepsRegs s t [])) ∧
      (gr.loads ≠ [] → (∀ x ∈ gr.writes, x.performed = false) → Gives (c g w) s (fun t => ∃ u, t.group g = some u ∧
        GoesOn gr u ∧ u.wait = some (.fence b) ∧ u.v = gr.v ∧ u.loads = gr.loads ∧ u.writes = gr.writes ∧
        OnlyGroup s t g))
    fence .fenceOrd 0x4C false ∧ fence .fenceEnd 0x4D true) ∧
  (∀ (s : State) (g : GroupId), Runs s → ∀ gr, s.group g = some gr → gr.wait = some (.fence true) ∨ gr.wait = some (.fence false) →
    (∀ e ∈ (s.core g.tile g.core).merge, g.slot ∉ e.slots) →
    (gr.loads = [] → gr.writes = [] → Gives (.fenceComplete g) s (fun t => ∃ u, t.group g = some u ∧ u.wait = none ∧
      u.pc = gr.pc ∧ u.v = gr.v ∧ (t.core g.tile g.core).l1d = [] ∧ KeepsBytes s t ∧ KeepsRegs s t [])) ∧
    (gr.loads ≠ [] → Gives (.fenceComplete g) s (fun t => t = s))) ∧
  (∀ (s : State) (g : GroupId) (i : Nat) (cause : LateCause), Runs s → s.tileHolds g.tile = false → ∀ gr, s.group g = some gr →
    let n : Nat := match cause with
      | .owner => 1
      | .data => 2
      | .port => 3
      | .lost => 4
      | .plane => 5
      | .decode => 6
    (∀ q, (s.core g.tile g.core).findLoad i = some q → q.1 = some g.slot →
      let l := q.2
      let open_ := l.lanes.find? (fun x => x.val.isNone)
      let r : LateRec := { l.late with cause := BitVec.ofNat 8 n, addr := (open_.map (fun x => x.va)).getD l.late.addr }
      Gives (.lateAccess g i cause) s (fun t => ∃ u, t.group g = some u ∧ u.loads = gr.loads.filter (fun x => x.id ≠ i) ∧
        (if q.2.vd = 255 then u.marks = gr.marks ∧ u.late = (gr.late.or (some r))
         else u.late = gr.late ∧ u.marks = gr.marks ++ (l.live.filter (fun x => x.2 ≠ 0)).map (fun x => ⟨x.1, x.2, r⟩)) ∧
        u.v = gr.v ∧ u.pc = gr.pc ∧ KeepsBytes s t ∧
        (∀ x, open_ = some x → x.tgt.cls ≠ .localMem → KeepsRegs s t [] ∧ t.wmEvents = s.wmEvents) ∧
        (∀ x, open_ = some x → x.tgt.cls = .localMem → chipOf x.tgt.addr = s.chipId → n = 4 →
          t.wmEvents = s.wmEvents ++ [⟨20, [l.ctx], some (homeSlice (localOf x.tgt.addr)).val⟩]))) ∧
    ((s.core g.tile g.core).findLoad i = none → ∀ q, (s.core g.tile g.core).findWrite i = some q → q.1 = some g.slot →
      gr.late = none →
      Gives (.lateAccess g i cause) s (fun t => ∃ u, t.group g = some u ∧ u.writes = gr.writes.filter (fun x => x.id ≠ i) ∧
        u.late = some { q.2.late with cause := BitVec.ofNat 8 n } ∧ u.v = gr.v ∧ u.pc = gr.pc ∧ KeepsBytes s t ∧
        (q.2.tgt.cls ≠ .localMem → KeepsRegs s t [] ∧ t.wmEvents = s.wmEvents)))) ∧
  (∀ (s : State) (g : GroupId) (i : Nat) (bs : List Byte), Runs s → s.tileHolds g.tile = false → ∀ gr, s.group g = some gr →
    (s.tile g.tile).kernel ≠ none → ∀ q, (s.core g.tile g.core).findLoad i = some q → q.1 = some g.slot →
    let l := q.2
    l.atomic = none → ∀ x, l.lanes.head? = some x → l.lanes.length = 1 →
    l.live = liveRegs l.vd l.sz (1#64 <<< x.thread) → l.vd ≠ 255 → l.vd + 4 ≤ gr.v.length → x.thread < 64 →
    let v : Nat := x.val.getD (leNat (bs.take (szBytes l.sz)))
    (x.val ≠ none ∨ (x.tgt.cls = .host0 ∧ x.tgt.typ = .stream ∧ l.forward = [] ∧ szBytes l.sz ≤ bs.length)) →
    (∀ y ∈ gr.loads, y.id = i) → gr.writes = [] →
    Gives (.loadReturn g i bs) s (fun t => ∃ u, t.group g = some u ∧ u.loads = [] ∧
      (∀ n j, j < 64 → lane u n j = if j = x.thread ∧ l.vd ≤ n ∧ n < l.vd + max 1 (szN l.sz.toNat / 4)
        then szLane l.sz.toNat v (n - l.vd) else lane gr n j) ∧
      u.pc = gr.pc ∧ u.u = gr.u ∧ u.p = gr.p ∧ KeepsBytes s t ∧ KeepsRegs s t [])) ∧
  (∀ (s : State) (tile : TileId) (c : CoreId) (line : Nat), Runs s →
    ((∀ e ∈ (s.core tile c).merge, e.tgt.addr ≠ line) → Gives (.mergeFlush tile c line) s (fun t => t = s)) ∧
    (∀ e, (s.core tile c).merge.head? = some e → (s.core tile c).merge.length = 1 → e.tgt.addr = line → e.tgt.cls = .localMem → line % 64 = 0 →
      placeOf (localOf line) = .tier1 → chipOf line = s.chipId → ((s.tile tile).kernel.map (fun k => k.sched)) ≠ some true →
      Gives (.mergeFlush tile c line) s (fun t => (t.core tile c).merge = [] ∧ KeepsBytes s t ∧
        SendsCoh s t (fun m => m.addr = BitVec.ofNat 64 line ∧ m.ctx = e.ctx ∧
          m.byteMask = BitVec.ofNat 64 (lineMask e.bytes) ∧ m.data = lineData e.bytes ∧
          m.opc = (if lineMask e.bytes = 2 ^ 64 - 1 then 0x05 else 0x06)))))

/-- The token number of a matrix word. -/
def Sys2Proof.Claims.tokOf (w : Word64) : Fin 16 := ⟨bitsOf w 47 44 % 16, Nat.mod_lt _ (by decide)⟩

/-- Nothing but group g, the tensor array of its tile and counters has changed; the core's instruction cache and the tile's range
cache keep their entries, in another order of use. -/
def Sys2Proof.Claims.OnlyGroupAndArray (s t : State) (g : GroupId) : Prop :=
  { t with tiles := s.tiles, obs := s.obs } = s ∧ { t.obs with counts := s.obs.counts } = s.obs ∧
    (∀ j, j ≠ g.tile → t.tile j = s.tile j) ∧
    { t.tile g.tile with cores := (s.tile g.tile).cores, ta := (s.tile g.tile).ta, rcV := (s.tile g.tile).rcV } =
      s.tile g.tile ∧
    (t.tile g.tile).rcV.Perm (s.tile g.tile).rcV ∧ (t.core g.tile g.core).l1i.Perm (s.core g.tile g.core).l1i ∧
    (∀ c, c ≠ g.core → t.core g.tile c = s.core g.tile c) ∧
    { t.core g.tile g.core with groups := (s.core g.tile g.core).groups, l1i := (s.core g.tile g.core).l1i } =
      s.core g.tile g.core ∧
    (∀ i, i ≠ g.slot → (t.core g.tile g.core).group i = (s.core g.tile g.core).group i)

/-- The group leaves the active set with the wait x, before its instruction. -/
def Sys2Proof.Claims.Leaves (s t : State) (g : GroupId) (gr : Group) (x : GWait) : Prop :=
  t.group g = some { gr with wait := some x, readyAt := none, cache := [] } ∧ (t.core g.tile g.core).isActive g.slot = false ∧
    KeepsRegs s t [] ∧ KeepsBytes s t ∧ (t.tile g.tile).ta = (s.tile g.tile).ta

/-- Issue of a matrix instruction: with all threads, no guard, its token DONE and room in the queue of its unit it is issued with the
three u registers, its token is no longer DONE, and the group goes on; nothing else changes. -/
def Sys2Proof.Claims.MatrixIssue (c : GroupId → Word64 → Instr) (opc : Nat) (op : MxOp) : Prop :=
  ∀ (s : State) (g : GroupId) (w : Word64) (gr : Group) (k : Kernel), CtlRuns s g w opc true gr k →
    bitsOf w 25 17 = 0 → bitsOf w 16 0 = 0 → (op = .mxma ∨ bitsOf w 37 32 = 0) →
    let ta := (s.tile g.tile).ta
    let ahead := (ta.issued.filter (fun m => (m.op == .mxma) == (op == .mxma))).length +
      (if op = .mxma then ta.mq.length else ta.tq.length)
    (vG w = false → gr.mask = BitVec.allOnes 64 → (gr.tok[tokOf w]).done = true → ahead < 8 →
      Gives (c g w) s (fun t =>
        t.group g = some { gr.next with tok := gr.tok.set (tokOf w).val ⟨false, 0⟩ } ∧
        (∃ m, (t.tile g.tile).ta.issued.getLast? = some m ∧ m.op = op ∧ m.group = g ∧ m.ctx = k.ctx ∧ m.tok = tokOf w ∧
          m.block = gr.block ∧ m.num = gr.num ∧ m.a = gr.rdU (bitsOf w 43 38) ∧ m.b = gr.rdU (bitsOf w 37 32) ∧
          m.c = gr.rdU (bitsOf w 31 26)) ∧
        (t.tile g.tile).ta.issued.dropLast = ta.issued ∧
        { (t.tile g.tile).ta with issued := ta.issued } = ta ∧ OnlyGroupAndArray s t g)) ∧
    (vG w = false → gr.mask = BitVec.allOnes 64 → (gr.tok[tokOf w]).done = false →
      Gives (c g w) s (fun t => Leaves s t g gr (.token (tokOf w)))) ∧
    (vG w = false → gr.mask = BitVec.allOnes 64 → (gr.tok[tokOf w]).done = true → 8 ≤ ahead →
      Gives (c g w) s (fun t => Leaves s t g gr (.queue (if op = .mxma then .multiply else .transfer)))) ∧
    (vG w = true ∨ gr.mask ≠ BitVec.allOnes 64 → (∀ i, i < 64 → s.resLine (excRecordAt g k + i) = none) →
      Gives (c g w) s (fun t => VecFaults s t g gr k 3 w))

/-- Issue of matrix instructions and the token instructions. MXMA, MXLD and MXST are issued with three u registers and take
their token; a token that is not DONE or a full queue of 8 makes the group wait, and a guard or an inactive thread is
DIVERGENT_ASYNC. TWAIT and TSTAT wait for a token, TSTAT then reads its status word; TTEST writes a predicate by whether it
is DONE. An ended instruction makes its token DONE with its word and its waiting group ready. A clear empties the accumulator
memory. -/
def Obligations.MatrixIssueAndTokens : Prop :=
  MatrixIssue .mxma 0x60 .mxma ∧ MatrixIssue .mxld 0x61 .mxld ∧ MatrixIssue .mxst 0x62 .mxst ∧
  (∀ (s : State) (g : GroupId) (w : Word64) (gr : Group) (k : Kernel), bitsOf w 16 0 = 0 →
    let x := gr.tok[tokOf w]
    (CtlRuns s g w 0x63 false gr k → bitsOf w 43 17 = 0 →
      (x.done = true → GroupIs (.twait g w) s g gr.next) ∧
      (x.done = false → Gives (.twait g w) s (fun t => Leaves s t g gr (.token (tokOf w))))) ∧
    (CtlRuns s g w 0x64 true gr k → bitsOf w 43 20 = 0 →
      Gives (.ttest g w) s (fun t => ∃ u, t.group g = some u ∧
        (∀ n i, n < 8 → i < 64 → (u.rdP n).getLsbD i =
          if n = bitsOf w 19 17 ∧ (gr.taking w).getLsbD i = true then x.done else (gr.rdP n).getLsbD i) ∧
        GoesOn gr u ∧ SameGroup gr u ∧ u.v = gr.v ∧ u.u = gr.u ∧ OnlyGroup s t g)) ∧
    (CtlRuns s g w 0x65 false gr k → bitsOf w 43 26 = 0 → bitsOf w 19 17 = 0 →
      (x.done = true → GroupIs (.tstat g w) s g (gr.wrU (bitsOf w 25 20) x.word).next) ∧
      (x.done = false → Gives (.tstat g w) s (fun t => Leaves s t g gr (.token (tokOf w)))))) ∧
  (∀ (s : State) (g : GroupId) (tok : Fin 16), Runs s → s.tileHolds g.tile = false →
    let ta := (s.tile g.tile).ta
    let sel (m : MxInstr) : Bool := m.group == g && m.tok == tok
    (ta.ended.find? sel = none → Gives (.tokenDone g tok) s (fun t => t = s)) ∧
    (∀ m, ta.ended.find? sel = some m → ∀ gr, s.group g = some gr → gr.block = m.block → gr.num = m.num →
      Gives (.tokenDone g tok) s (fun t => ∃ u, t.group g = some u ∧ u.tok = gr.tok.set tok.val ⟨true, m.word⟩ ∧
        u.wait = (if gr.wait = some (.token tok) then none else gr.wait) ∧ u.pc = gr.pc ∧ u.v = gr.v ∧ u.u = gr.u ∧
        { (t.tile g.tile).ta with ended := ta.ended } = ta ∧ (t.tile g.tile).ta.ended = ta.ended.erase m ∧
        KeepsRegs s t [] ∧ KeepsBytes s t))) ∧
  (∀ (s : State) (k : TileId), Runs s →
    ((s.tile k).ta.clearing = true → Gives (.accumClear k) s (fun t => ∀ i, (t.tile k).ta.entry i = Wide.zero)) ∧
    Gives (.accumClear k) s (fun t => (t.tile k).ta.clearing = false ∧ KeepsRegs s t [] ∧ KeepsBytes s t ∧
      (∀ j, j ≠ k → t.tile j = s.tile j) ∧ { t.tile k with ta := (s.tile k).ta } = s.tile k))

/-- The accumulator entry of row r and column c of a region. -/
def Sys2Proof.Claims.accAt (x : Tile) (region r c : Nat) : Wide := x.ta.entry (region * 8192 + r * 128 + c)

/-- The rows and columns of a matrix instruction's rectangle take new values; the other entries stay. -/
def Sys2Proof.Claims.EntriesTake (s t : State) (k : TileId) (region rows cols : Nat) (val : Nat → Nat → Wide) : Prop :=
  (∀ r c, r < 64 → c < 128 → accAt (t.tile k) region r c =
    if r < rows ∧ c < cols then val r c else accAt (s.tile k) region r c) ∧
  (∀ i, i / 8192 ≠ region → (t.tile k).ta.entry i = (s.tile k).ta.entry i)

/-- The instruction m, first in its unit's queue, may end without an error: no earlier one of the other unit names its region, no word
or entry that it reads has an error, and its rows and columns fit. -/
def Sys2Proof.Claims.MayEnd (s : State) (k : TileId) (u : MxUnit) (m : MxInstr) : Prop :=
  let ta := (s.tile k).ta
  let q : List MxInstr := if u = .multiply then ta.mq else ta.tq
  let other : List MxInstr := if u = .multiply then ta.tq else ta.mq
  q.head? = some m ∧ (∀ o ∈ other, o.seq < m.seq → o.dc.region ≠ m.dc.region) ∧
  s.schedMode k = false ∧ s.memUE = [] ∧ ta.accUE = [] ∧ m.da.rows ≤ 64 ∧
  (if m.op = .mxma then m.db.cols else m.da.cols) ≤ 128

/-- The residue of the entry of row r and column c of a region. -/
def Sys2Proof.Claims.resAt (x : Tile) (region r c : Nat) : Nat := x.ta.residueAt (region * 8192 + r * 128 + c)

/-- Every new value of a rectangle without OVERFLOW agrees with its new residue (R69, R72). -/
def Sys2Proof.Claims.RectAgrees (rows cols : Nat) (new : Nat → Nat → Wide × Nat) : Bool :=
  (List.range rows).all (fun r => (List.range cols).all (fun c =>
    (new r c).1.flags &&& WFlags.OVERFLOW != 0 || residueOf (new r c).1.int == (new r c).2))

/-- It has ended with the status RESIDUE, source 1 of the tile and ERR_SEEN (R69), and no entry of another region has changed. -/
def Sys2Proof.Claims.EndsResidue (s t : State) (k : TileId) (u : MxUnit) (m : MxInstr) : Prop :=
  (t.tile k).ta.ended.map (fun x => (x.group, x.tok, bitsOf x.word 3 0)) =
    (s.tile k).ta.ended.map (fun x => (x.group, x.tok, bitsOf x.word 3 0)) ++ [(m.group, m.tok, 3)] ∧
  (t.tile k).ta.mq = (if u = .multiply then (s.tile k).ta.mq.drop 1 else (s.tile k).ta.mq) ∧
  (t.tile k).ta.tq = (if u = .multiply then (s.tile k).ta.tq else (s.tile k).ta.tq.drop 1) ∧
  t.wmEvents = s.wmEvents ++ [⟨1, [m.ctx], some k.val⟩] ∧ t.fld (.TA_FLAGS k.val) F.TA_FLAGS_ERR_SEEN = 1 ∧
  KeepsRegs s t [.TA_FLAGS k.val] ∧ (∀ i, i / 8192 ≠ m.dc.region → (t.tile k).ta.entry i = (s.tile k).ta.entry i) ∧
  (∀ j, j ≠ k → t.tile j = s.tile j)

/-- It has ended with the word x: it has left its queue, waits for its token, and only counters, events and the array have changed. -/
def Sys2Proof.Claims.EndsWith (s t : State) (k : TileId) (u : MxUnit) (m : MxInstr) (x : Word64) : Prop :=
  let ta := (s.tile k).ta
  let tb := (t.tile k).ta
  tb.ended = ta.ended ++ [{ m with word := x }] ∧ tb.issued = ta.issued ∧
    tb.mq = (if u = .multiply then ta.mq.drop 1 else ta.mq) ∧ tb.tq = (if u = .multiply then ta.tq else ta.tq.drop 1) ∧
    (∀ j, j ≠ k → t.tile j = s.tile j)

/-- What matrix instructions do when they are accepted and when they end. Neither happens while the tile's cores hold (R219).
An accepted instruction takes its descriptors from the slab at its u registers' values; a bad descriptor address or field, or
a run of bytes that its context may not reach, ends it with DESCRIPTOR and ERR_SEEN. MXMA gives each entry of its rectangle
the sum of its K products, one rounded term at a time, from 0 at the anchor or the entry's value. MXLD gives them wide
partials of the slab, or adds these, which an anchor that differs prevents. MXST writes the entries, converted, row by row,
and no other byte. The status word holds the flags. The residue channel adds the residue of each term, or of each partial;
where an entry without OVERFLOW does not agree with its residue, MXMA and MXLD end with RESIDUE, source 1 is raised, and no
entry of another region changes. -/
def Obligations.MatrixInstructionsAcceptAndEnd : Prop :=
  (∀ (s : State) (k : TileId) (u : MxUnit), Runs s → s.safe = false → s.tileHolds k = false → (s.tile k).ta.clearing = false →
    let ta := (s.tile k).ta
    let unit (m : MxInstr) : MxUnit := if m.op = .mxma then .multiply else .transfer
    (ta.issued.all (fun m => unit m != u) = true → Gives (.matrixAccept k u false) s (fun t => t = s)) ∧
    (∀ m, ta.issued.find? (fun m => unit m == u) = some m →
      let x (a : Word64) : Nat := s.rdNat (slabAddr k a.toNat) 32
      let m' : MxInstr := { m with
        da := DataDesc.ofNat (x m.a), db := DataDesc.ofNat (x m.b), dc := AccDesc.ofNat (x m.c), seq := ta.seq }
      let addrs := if m.op = .mxma then [m.a, m.b, m.c] else [m.a, m.c]
      ((∃ a ∈ addrs, a.toNat % 32 ≠ 0 ∨ 0x600000 ≤ a.toNat) →
        Gives (.matrixAccept k u false) s (fun t => (t.tile k).ta.ended = ta.ended ++ [{ m' with word := 7 }] ∧
          (t.tile k).ta.issued = ta.issued.erase m ∧ (t.tile k).ta.mq = ta.mq ∧ (t.tile k).ta.tq = ta.tq ∧
          t.fld (.TA_FLAGS k.val) F.TA_FLAGS_ERR_SEEN = 1 ∧ KeepsRegs s t [.TA_FLAGS k.val] ∧ KeepsBytes s t)) ∧
      ((∀ a ∈ addrs, a.toNat % 32 = 0 ∧ a.toNat < 0x600000 ∧ s.slabOwned k m.ctx a.toNat = true) → s.memUE = [] →
        (descFieldsOk m.op (x m.a) (x m.b) (x m.c) = false ∨ s.runsOk k m.ctx m'.runs = false) →
        Gives (.matrixAccept k u false) s (fun t => (t.tile k).ta.ended = ta.ended ++ [{ m' with word := 7 }] ∧
          (t.tile k).ta.issued = ta.issued.erase m ∧ (t.tile k).ta.mq = ta.mq ∧ (t.tile k).ta.tq = ta.tq ∧
          t.fld (.TA_FLAGS k.val) F.TA_FLAGS_ERR_SEEN = 1 ∧ KeepsRegs s t [.TA_FLAGS k.val] ∧ KeepsBytes s t)) ∧
      ((∀ a ∈ addrs, a.toNat % 32 = 0 ∧ a.toNat < 0x600000 ∧ s.slabOwned k m.ctx a.toNat = true) → s.memUE = [] →
        descFieldsOk m.op (x m.a) (x m.b) (x m.c) = true → s.runsOk k m.ctx m'.runs = true →
        Gives (.matrixAccept k u false) s (fun t => (t.tile k).ta = { ta with
            issued := ta.issued.erase m, seq := ta.seq + 1
            mq := if u = .multiply then ta.mq ++ [m'] else ta.mq
            tq := if u = .transfer then ta.tq ++ [m'] else ta.tq } ∧
          KeepsRegs s t [] ∧ KeepsBytes s t ∧ (∀ j, j ≠ k → t.tile j = s.tile j) ∧
          { t.tile k with ta := ta } = s.tile k)))) ∧
  (∀ (s : State) (k : TileId), Runs s →
    let ok : MxCheck := ⟨false, false, false⟩
    let fl (t : State) (m : MxInstr) (cols : Nat) : WFlags :=
      (List.range m.da.rows).foldl (fun f r => (List.range cols).foldl
        (fun f c => f ||| (accAt (t.tile k) m.dc.region r c).flags) f) 0
    (∀ m, (s.tile k).ta.mq.head? = some m → m.op = .mxma → MayEnd s k .multiply m →
      let sum (r c : Nat) : Wide × Nat := (List.range m.dc.k).foldl (fun a i =>
        let p := scaledProduct
          (s.operand k m.da.fmt (m.da.base + r * m.da.stride) i) (s.operand k m.db.fmt (m.db.base + c * m.db.stride) i)
          (s.scaleByte k m.da r i m.dc.k) (s.scaleByte k m.db c i m.dc.k)
        (a.1.addTerm p, (a.2 + p.termResidue a.1.anchor) % 127))
        (if m.dc.init then (Wide.init m.dc.anchor, 0)
         else (accAt (s.tile k) m.dc.region r c, resAt (s.tile k) m.dc.region r c))
      (RectAgrees m.da.rows m.db.cols sum = true →
        Gives (.matrixEnd k .multiply ok) s (fun t => KeepsRegs s t [] ∧ KeepsBytes s t ∧
          EndsWith s t k .multiply m (BitVec.ofNat 64 ((fl t m m.db.cols).toNat * 256 + 1)) ∧
          EntriesTake s t k m.dc.region m.da.rows m.db.cols (fun r c => (sum r c).1))) ∧
      (RectAgrees m.da.rows m.db.cols sum = false →
        Gives (.matrixEnd k .multiply ok) s (fun t => EndsResidue s t k .multiply m ∧ KeepsBytes s t))) ∧
    (∀ m, (s.tile k).ta.tq.head? = some m → MayEnd s k .transfer m →
      let a := m.da.base
      let part (r c : Nat) : Wide := Wide.ofBits (BitVec.ofNat 256 (s.rdNat (slabAddr k (a + r * m.da.stride + c * 32)) 32))
      let differs := (List.range m.da.rows).any (fun r => (List.range m.da.cols).any (fun c =>
        (accAt (s.tile k) m.dc.region r c).mismatch (part r c)))
      (m.op = .mxld → m.dc.add = true → differs = true →
        Gives (.matrixEnd k .transfer ok) s (fun t => EndsWith s t k .transfer m 5 ∧
          (∀ i, (t.tile k).ta.entry i = (s.tile k).ta.entry i) ∧ KeepsBytes s t ∧
          t.fld (.TA_FLAGS k.val) F.TA_FLAGS_ERR_SEEN = 1 ∧ KeepsRegs s t [.TA_FLAGS k.val])) ∧
      (m.op = .mxld → m.dc.add = true → differs = false →
        let sum (r c : Nat) : Wide × Nat := ((accAt (s.tile k) m.dc.region r c).combine (part r c),
          (resAt (s.tile k) m.dc.region r c + residueOf (part r c).int) % 127)
        RectAgrees m.da.rows m.da.cols sum = false →
        Gives (.matrixEnd k .transfer ok) s (fun t => EndsResidue s t k .transfer m ∧ KeepsBytes s t)) ∧
      (m.op = .mxld → m.dc.add = false ∨ (differs = false ∧ RectAgrees m.da.rows m.da.cols (fun r c =>
          ((accAt (s.tile k) m.dc.region r c).combine (part r c),
            (resAt (s.tile k) m.dc.region r c + residueOf (part r c).int) % 127)) = true) →
        Gives (.matrixEnd k .transfer ok) s (fun t => KeepsRegs s t [] ∧ KeepsBytes s t ∧
          EndsWith s t k .transfer m (BitVec.ofNat 64 ((fl t m m.da.cols).toNat * 256 + 1)) ∧
          EntriesTake s t k m.dc.region m.da.rows m.da.cols (fun r c =>
            if m.dc.add then (accAt (s.tile k) m.dc.region r c).combine (part r c) else part r c))) ∧
      (m.op = .mxst → (∀ x, slabBase ≤ x → x < 0x40018000000 → s.resLine x = none) →
        let n := fmtSize m.da.fmt
        let elem (r c : Nat) : Nat :=
          if m.da.fmt = 10 then (accAt (s.tile k) m.dc.region r c).toBits.toNat
          else ((accAt (s.tile k) m.dc.region r c).convert (mxstFmt m.da.fmt) ((RM.decode m.da.rm).getD .rne) m.da.sat).bits
        m.da.cols * n ≤ m.da.stride → a + m.da.rows * m.da.stride ≤ 0x600000 →
        Gives (.matrixEnd k .transfer ok) s (fun t =>
          (∀ r c, r < m.da.rows → c < m.da.cols →
            t.rdNat (slabAddr k (a + r * m.da.stride + c * n)) n = elem r c % 256 ^ n) ∧
          (∀ x, (∀ r, r < m.da.rows → x < slabAddr k (a + r * m.da.stride) ∨
            slabAddr k (a + r * m.da.stride) + m.da.cols * n ≤ x) → t.rdByte x = s.rdByte x) ∧
          (∀ i, (t.tile k).ta.entry i = (s.tile k).ta.entry i) ∧ KeepsRegs s t [.TA_FLAGS k.val] ∧
          (t.tile k).ta.tq = (s.tile k).ta.tq.drop 1))))

/-- The bytes from an address on are those of a list; every other byte reads as before. -/
def Sys2Proof.Claims.WritesAt (s t : State) (a : Nat) (bs : List Byte) : Prop :=
  (∀ i, i < bs.length → t.rdByte (a + i) = bs.getD i 0) ∧
    (∀ x, (x < a ∨ a + bs.length ≤ x) → t.rdByte x = s.rdByte x)

/-- Nothing but registers of a list, memory, the words with errors, events and counters has changed. -/
def Sys2Proof.Claims.OnlyRegsMemory (s t : State) (rs : List Reg) : Prop :=
  KeepsRegs s t rs ∧
    { t with regs := s.regs, mem := s.mem, memUE := s.memUE, keyTags := s.keyTags, wmEvents := s.wmEvents,
                obs := s.obs } = s ∧
    { t.obs with counts := s.obs.counts } = s.obs

/-- A record of an uncorrectable error in a status register: its bit, its event, and the word, which has an error from now on. -/
def Sys2Proof.Claims.RecordsUE (s t : State) (r : Reg) (f : Fld) (others : List Reg) (e : WmEvent) (a : Nat) : Prop :=
  t.fld r f = 1 ∧ Sends s t [e] ∧ (∀ w, w ∈ t.memUE ↔ w ∈ s.memUE ∨ w = a / 8 * 8) ∧ KeepsBytes s t ∧
    OnlyRegsMemory s t (r :: others)

/-- Position i / 3, i % 3 of the SCHEDULED windows of a pseudo-channel is free for a request that arrived at FCLK a (R297): the
window is one, the position's command cycle lies at least 4 MCLK after the arrival, and no request has taken it. -/
def Sys2Proof.Claims.FreePosition (s : State) (k : StackId) (pc : Nat) (a : Int) (i : Nat) : Prop :=
  i < 150 ∧ s.window k pc (i / 3) = 1 ∧ 2 * a + 12 ≤ 3 * (24 * (i / 3) + 8 * (i % 3) : Nat) ∧
    ∀ x ∈ s.home.taken, ¬ (x.stack = k ∧ x.pc = pc ∧ x.window = i / 3 ∧ x.position = i % 3)

/-- A scheduled request is next at its position: the rotation runs, the line is locked to it and of this stack, the position is the
first free one after its arrival, no request that comes after it in the order has a position, and the cycle is not past it. -/
def Sys2Proof.Claims.MayCommand (s : State) (k : StackId) (q : HbmRequest) : Prop :=
  s.fld .ROT_STATUS F.ROT_STATUS_STATE = 2 ∧ s.rotLocked q.addr = true ∧ q.addr / 256 % 8 = k.val ∧ q.position < 3 ∧
    q.data.length ≤ 256 - q.addr % 256 ∧ s.cycle ≤ 36 * q.window + 12 * q.position ∧
    FreePosition s k (q.addr / 2048 % 64) q.arrival (3 * q.window + q.position) ∧
    (∀ i, i < 3 * q.window + q.position → ¬ FreePosition s k (q.addr / 2048 % 64) q.arrival i) ∧
    (∀ x ∈ s.home.taken, x.stack = k → x.pc = q.addr / 2048 % 64 →
      x.arrival < q.arrival ∨ (x.arrival = q.arrival ∧ x.rank ≤ hbmRank q.source))

/-- Scheduled flits and HBM commands at their ends, refresh and patrol scrub. In cycles 0 to 1,799 a scheduled write that
arrives whole at a slab of a scheduled-mode tile, or at scratch that its context owns, stores its bytes, and its write in
flight ends; a signal is added. A collided flit sets COLLISION, one with a bad CRC or toward a tile in open mode is dropped
and reported; no byte changes. In appended cycles a flit waits. A scheduled HBM request takes the first free position of a
SCHEDULED window after its arrival, in the order of R297: a write stores its bytes there, or raises source 21 where the owner
check refuses it; a read's line is at the controller's stop 90 FCLK after it, checked: a corrected error counts, an
uncorrectable one is recorded with its event and its word. A coherent read or write of a home is issued in a COHERENT window
or in appended cycles. Refresh changes nothing; a zero fill makes its stack zero. Scrub of a clean word changes nothing; an
uncorrectable word is recorded in its unit. -/
def Obligations.ScheduledAccessesAtTheirEnds : Prop :=
  (∀ (s : State) (f : SchedFlit), Runs s → 1800 ≤ s.cycle → Gives (.schedFlitArrive f) s (fun t => t = s)) ∧
  (∀ (s : State) (f : SchedFlit), Runs s → s.cycle < 1800 → s.home.resv = [] → s.memUE = [] →
    let alone : Prop := s.schedWriter f.ctx f.addr f.data = none
    let to_ : Nat := match f.stop with
      | .tile n => n.val
      | _ => 48
    (f.collided = true → alone → Gives (.schedFlitArrive f) s (fun t => t.fld .ROT_STATUS F.ROT_STATUS_COLLISION = 1 ∧
      Sends s t [⟨129, [], none⟩] ∧ OnlyRegsEvents s t [.ROT_STATUS])) ∧
    (f.collided = false → f.crcOk = false → to_ < 48 → alone → Gives (.schedFlitArrive f) s (fun t =>
      Sends s t [⟨11, [f.ctx], some to_⟩] ∧ OnlyRegsEvents s t [])) ∧
    (f.collided = false → f.crcOk = true → to_ < 48 → s.fld (.SQ_STATUS to_) F.SQ_STATUS_MODE = 0 → alone →
      Gives (.schedFlitArrive f) s (fun t => Sends s t [⟨9, [f.ctx], some to_⟩] ∧ OnlyRegsEvents s t [])) ∧
    (f.collided = false → f.crcOk = true → s.fld (.SQ_STATUS to_) F.SQ_STATUS_MODE = 1 → ∀ x, f.signal = some x →
      x.1 = to_ → to_ < 48 → x.2.1 < 64 → (∀ n : TileId, n.val = to_ → (s.tile n).wait = none) →
      Gives (.schedFlitArrive f) s (fun t => t.rd (.SQ_SIG to_ x.2.1) = s.rd (.SQ_SIG to_ x.2.1) + x.2.2 ∧
        OnlyRegs s t [.SQ_SIG to_ x.2.1])) ∧
    (f.collided = false → f.crcOk = true → s.fld (.SQ_STATUS to_) F.SQ_STATUS_MODE = 1 → f.signal = none → to_ < 48 →
      slabBase + to_ * 0x800000 ≤ f.addr → f.addr < slabBase + to_ * 0x800000 + 0x600000 →
      s.ownerOk f.ctx f.addr true = true →
      (alone → Gives (.schedFlitArrive f) s (fun t => WritesAt s t f.addr f.data ∧ OnlyRegsMemory s t [])) ∧
      (∀ q, (s.schedWriter f.ctx f.addr f.data).bind (fun x => x.getLeft?) = some q →
        Gives (.schedFlitArrive f) s (fun t => (t.core q.1 q.2.1).findWrite q.2.2 = none ∧
          ∀ i, i < f.data.length → t.rdByte (f.addr + i) = f.data.getD i 0))) ∧
    (∀ n : SliceId, f.stop = .slice n → f.collided = false → f.crcOk = true → alone → 0x40200000000 ≤ f.addr →
      f.addr < 0x4020A000000 → s.backed f.addr = true → s.ownerOk f.ctx f.addr true = true →
      Gives (.schedFlitArrive f) s (fun t => WritesAt s t f.addr f.data ∧ OnlyRegsMemory s t []))) ∧
  (∀ (s : State) (k : StackId) (q : HbmRequest), Runs s → s.home.resv = [] → s.memUE = [] →
    s.schedWriter q.ctx q.addr q.data = none →
    let at_ := 36 * q.window + 12 * q.position
    let took (t : State) : Prop := t.cycle = at_ ∧ t.home.taken = s.home.taken ++
      [⟨k, q.addr / 2048 % 64, q.window, q.position, q.arrival, hbmRank q.source⟩]
    (MayCommand s k q → q.write = true → s.ownerOk q.ctx q.addr true = true → Gives (.schedHbmCommand k q) s (fun t =>
      took t ∧ WritesAt s t q.addr q.data ∧ t.home = { s.home with taken := t.home.taken } ∧
      OnlyRegsMemory s { t with home := s.home } [.TB_CYCLE, .TB_RAW])) ∧
    (MayCommand s k q → q.write = true → s.ownerOk q.ctx q.addr true = false → Gives (.schedHbmCommand k q) s (fun t =>
      took t ∧ Sends s t [⟨21, [q.ctx], some (homeSlice q.addr).val⟩] ∧ KeepsBytes s t ∧
      OnlyRegsMemory s { t with home := s.home } [.TB_CYCLE, .TB_RAW, .OT_REFUSALS, .OT_FIRST])) ∧
    (MayCommand s k q → q.write = false → Gives (.schedHbmCommand k q) s (fun t =>
      took t ∧ KeepsBytes s t ∧ t.home = { s.home with
        taken := t.home.taken
        hbmReads := s.home.hbmReads ++ [⟨q.source, q.ctx, q.addr / 256 * 256, s.rdBytes (q.addr / 256 * 256) 256,
          !s.ownerOk q.ctx q.addr false, 1800 * (s.rd .TB_TURN).toNat + at_ + 90, false⟩] } ∧
      KeepsRegs s t [.TB_CYCLE, .TB_RAW, .OT_REFUSALS, .OT_FIRST])) ∧
    (¬ MayCommand s k q → Gives (.schedHbmCommand k q) s (fun t => t = s))) ∧
  (∀ (s : State) (k : StackId) (q : HbmRequest), Runs s → q.addr / 256 % 8 = k.val →
    let sel (r : HbmRead) : Bool :=
      !r.arrived && r.source == q.source && r.ctx == q.ctx && r.line == q.addr / 256 * 256
    let now := 1800 * (s.rd .TB_TURN).toNat + s.cycle
    (s.home.hbmReads.find? sel = none → ∀ e, Gives (.schedHbmData k q e) s (fun t => t = s)) ∧
    (∀ r, s.home.hbmReads.find? sel = some r → s.cycle + (r.due - now) < 1800 → s.ueIn r.line 256 = none →
      let came (t : State) : Prop := t.cycle = s.cycle + (r.due - now) ∧
        t.home = { s.home with hbmReads := s.home.hbmReads.erase r ++ [{ r with arrived := true }] } ∧ KeepsBytes s t
      Gives (.schedHbmData k q .clean) s (fun t => came t ∧ KeepsRegs s t [.TB_CYCLE, .TB_RAW]) ∧
      (r.refused = false → Gives (.schedHbmData k q .corrected) s (fun t => came t ∧
        t.fld (.HB_CECNT k.val) F.HB_CECNT_COUNT = min (2 ^ 32 - 1) (s.fld (.HB_CECNT k.val) F.HB_CECNT_COUNT + 1) ∧
        KeepsRegs s t [.TB_CYCLE, .TB_RAW, .HB_CECNT k.val])) ∧
      (r.refused = false → Gives (.schedHbmData k q .uncorrectable) s (fun t => came t ∧
        t.fld (.HB_STATUS k.val) F.HB_STATUS_UE = 1 ∧ Sends s t [⟨24 + 4 * k.val, [q.ctx], none⟩] ∧
        r.line / 8 * 8 ∈ t.memUE ∧ KeepsRegs s t [.TB_CYCLE, .TB_RAW, .HB_STATUS k.val, .HB_ERRADDR k.val])))) ∧
  (∀ (s : State) (k : StackId) (q : HbmRequest), Runs s → s.home.held = [] → s.zeroing = [] →
    let line := q.addr / 64 * 64
    line / 256 % 8 = k.val →
    let coherent : Prop := q.window < 50 ∧ s.cycle < 36 * (q.window + 1) ∧ s.window k (q.addr / 2048 % 64) q.window = 0
    ∀ o, s.home.tierOps.find? (fun o => o.line == line && o.write.isSome == q.write && !o.issued) = some o →
      (q.write = false → s.ueIn line 64 = none → 1800 ≤ s.cycle ∨ coherent →
        Gives (.coherentHbmCommand k q .clean) s (fun t =>
          t.home.tierOps = s.home.tierOps.map (fun x => if x = o then { x with issued := true, ue := false } else x) ∧
          t.cycle = (if 1800 ≤ s.cycle then s.cycle else max s.cycle (36 * q.window)) ∧
          { t with regs := s.regs, home := { t.home with tierOps := s.home.tierOps } } = s ∧
          KeepsRegs s t [.TB_CYCLE, .TB_RAW])) ∧
      (q.write = true → s.memUE = [] → s.home.resv = [] → s.txnAt line = none → 1800 ≤ s.cycle ∨ coherent →
        ∀ cells, o.write = some cells → (cells.map (fun c => c.1)).Nodup →
        Gives (.coherentHbmCommand k q .clean) s (fun t =>
          t.home = { s.home with tierOps := s.home.tierOps.erase o } ∧
          (∀ c ∈ cells, t.rdByte c.1 = c.2) ∧ (∀ a, a ∉ cells.map (fun c => c.1) → t.rdByte a = s.rdByte a) ∧
          OnlyRegsMemory s { t with home := s.home } [.TB_CYCLE, .TB_RAW])) ∧
      (s.cycle < 1800 → ¬ coherent → ∀ e, Gives (.coherentHbmCommand k q e) s (fun t => t = s))) ∧
  (∀ (s : State) (k : StackId) (pc : Fin 64) (run : Fin 2), Runs s → Gives (.refresh k pc run) s (fun t => t = s)) ∧
  (∀ (s : State) (k : StackId), Runs s → s.home.resv = [] → s.home.held = [] →
    (k ∈ s.zeroing → Gives (.hbmZeroFillDone k) s (fun t => t.zeroing = s.zeroing.erase k ∧ KeepsRegs s t [] ∧
      (∀ a, t.rdByte a = if a < 0x9000000000 ∧ a / 256 % 8 = k.val then 0 else s.rdByte a))) ∧
    (k ∉ s.zeroing → Gives (.hbmZeroFillDone k) s (fun t => t = s))) ∧
  (∀ (s : State) (x : ScrubTarget), Runs s → Gives (.patrolScrub x .clean) s (fun t => t = s)) ∧
  (∀ (s : State) (a : Nat), Runs s →
    (∀ k : StackId, Gives (.patrolScrub (.hbm k a) .uncorrectable) s (fun t =>
      RecordsUE s t (.HB_STATUS k.val) F.HB_STATUS_SCRUB_UE [.HB_ERRADDR k.val] ⟨25 + 4 * k.val, [], none⟩ a)) ∧
    (∀ g : Fin 4, Gives (.patrolScrub (.tier2 g a) .uncorrectable) s (fun t =>
      RecordsUE s t (.T2_STATUS g.val) F.T2_STATUS_SCRUB_UE [.T2_ERRADDR g.val] ⟨58 + 3 * g.val, [], none⟩ a)) ∧
    (∀ n : TileId, Gives (.patrolScrub (.slab n a) .uncorrectable) s (fun t =>
      RecordsUE s t (.SLAB_STATUS n.val) F.SLAB_STATUS_SCRUB_UE [.SLAB_ERRADDR n.val] ⟨10, [], some n.val⟩ (slabAddr n a))) ∧
    (∀ h : SliceId, Gives (.patrolScrub (.scratch h a) .uncorrectable) s (fun t =>
      RecordsUE s t (.RSV_STATUS h.val) F.RSV_STATUS_SCRUB_UE [.RSV_ERRADDR h.val] ⟨16, [], some h.val⟩ a)) ∧
    (∀ n : TileId, Gives (.patrolScrub (.accumulator n a) .uncorrectable) s (fun t =>
      a ∈ (t.tile n).ta.accUE ∧ (t.tile n).ta.acc = (s.tile n).ta.acc ∧
      Sends s t [⟨10, [], some n.val⟩] ∧ KeepsRegs s t [] ∧ KeepsBytes s t))) ∧
  (∀ (s : State) (h : SliceId) (set_ : BitVec 12) (way : BitVec 4), Runs s →
    Gives (.patrolScrub (.directory h set_ way) .uncorrectable) s (fun t =>
      t.fld (.DIR_STATUS h.val) F.DIR_STATUS_UE = 1 ∧ (h, set_.toNat) ∈ t.home.dirUE ∧
      Sends s t [⟨16, [], some h.val⟩] ∧ KeepsRegs s t [.DIR_STATUS h.val, .DIR_ERRADDR h.val] ∧ KeepsBytes s t))

/-- Scratch ways, window patterns, slab ownership and tier 2. A write of another value changes WAYS while no rotation or
conversion runs and up to 10, and otherwise sets ERR; the last of the 32 slices clears BUSY. LOAD commits all 64 staged
patterns of a stack or says which is refused and why. A new owner of a slab unit zeroes it, and holds once the fill is done;
a busy tile refuses with OWN_ERR. An ABSENT tier-2 group becomes READY with ENABLE, and any becomes ABSENT without; its loss
drops its reservoir lines and counts the dirty ones; a poisoned line is recorded. -/
def Obligations.TierControls : Prop :=
  (∀ (s : State) (v : BitVec 4), Runs s →
    let busy : Prop := s.fld .ROT_STATUS F.ROT_STATUS_STATE ≠ 0 ∨ s.fld .RSV_SCRATCH F.RSV_SCRATCH_BUSY = 1 ∨ 10 < v.toNat
    (busy → v.toNat ≠ s.fld .RSV_SCRATCH F.RSV_SCRATCH_WAYS → Gives (.scratchWaysWrite v) s (fun t => t.fld .RSV_SCRATCH F.RSV_SCRATCH_ERR = 1 ∧
      t.fld .RSV_SCRATCH F.RSV_SCRATCH_WAYS = s.fld .RSV_SCRATCH F.RSV_SCRATCH_WAYS ∧ OnlyRegs s t [.RSV_SCRATCH])) ∧
    (v.toNat = s.fld .RSV_SCRATCH F.RSV_SCRATCH_WAYS → Gives (.scratchWaysWrite v) s (fun t => t = s)) ∧
    (¬ busy → v.toNat ≠ s.fld .RSV_SCRATCH F.RSV_SCRATCH_WAYS → Gives (.scratchWaysWrite v) s (fun t =>
      t.fld .RSV_SCRATCH F.RSV_SCRATCH_BUSY = 1 ∧ t.fld .RSV_SCRATCH F.RSV_SCRATCH_WAYS = v.toNat ∧
      KeepsRegs s t [.RSV_SCRATCH] ∧ KeepsBytes s t ∧ t.home.scratchDone = []))) ∧
  (∀ (s : State) (n : SliceId), Runs s → s.fld .RSV_SCRATCH F.RSV_SCRATCH_BUSY = 1 → s.home.resv = [] → s.home.held = [] →
    (n ∉ s.home.scratchDone → s.home.scratchDone.length ≤ 31 → Gives (.scratchConvertDone n) s (fun t =>
      t.home.scratchDone = n :: s.home.scratchDone ∧
      t.fld .RSV_SCRATCH F.RSV_SCRATCH_BUSY = (if s.home.scratchDone.length = 31 then 0 else 1) ∧
      KeepsRegs s t [.RSV_SCRATCH] ∧
      (∀ a, t.rdByte a =
        if 0x40200000000 ≤ a ∧ a < 0x4020A000000 ∧ (a - 0x40200000000) % 2 ^ 24 / 256 % 32 = n.val ∧
          min s.home.scratchFrom (s.fld .RSV_SCRATCH F.RSV_SCRATCH_WAYS) ≤ (a - 0x40200000000) / 2 ^ 24 ∧
          (a - 0x40200000000) / 2 ^ 24 < max s.home.scratchFrom (s.fld .RSV_SCRATCH F.RSV_SCRATCH_WAYS)
        then 0 else s.rdByte a))) ∧
    (n ∈ s.home.scratchDone → Gives (.scratchConvertDone n) s (fun t => t = s))) ∧
  (∀ (s : State) (k : StackId), Runs s →
    let bad : Nat → Bool := fun p => patternRefusal (s.staged k p) != 0
    (s.fld .ROT_STATUS F.ROT_STATUS_STATE ≠ 0 → Gives (.load k) s (fun t =>
      t.fld (.HB_STATUS k.val) F.HB_STATUS_LOAD_ERR = 1 ∧ t.fld (.HB_STATUS k.val) F.HB_STATUS_REASON = 1 ∧
      OnlyRegs s t [.HB_STATUS k.val])) ∧
    (s.fld .ROT_STATUS F.ROT_STATUS_STATE = 0 → ∀ p, (List.range 64).find? bad = some p → Gives (.load k) s (fun t =>
      t.fld (.HB_STATUS k.val) F.HB_STATUS_LOAD_ERR = 1 ∧ t.fld (.HB_STATUS k.val) F.HB_STATUS_BAD_PC = p ∧
      t.fld (.HB_STATUS k.val) F.HB_STATUS_REASON = patternRefusal (s.staged k p) ∧ t.patterns = s.patterns ∧
      Sends s t [⟨26 + 4 * k.val, [], none⟩] ∧ OnlyRegsEvents s t [.HB_STATUS k.val])) ∧
    (s.fld .ROT_STATUS F.ROT_STATUS_STATE = 0 → (List.range 64).find? bad = none → Gives (.load k) s (fun t =>
      t.fld (.HB_STATUS k.val) F.HB_STATUS_PATTERN_VALID = 1 ∧ t.fld (.HB_STATUS k.val) F.HB_STATUS_REASON = 0 ∧
      (∀ p j, p < 64 → j < 4 → (Assoc.get? t.patterns (256 * k.val + 4 * p + j)).getD 0 =
        (s.rd (.HB_PAT k.val p j)).setWidth 32) ∧
      KeepsRegs s t [.HB_STATUS k.val] ∧ KeepsBytes s t))) ∧
  (∀ (s : State) (n : TileId) (u : Fin 24) (v : Word32), Runs s → s.home.resv = [] →
    let new : Word64 := (v &&& 0x1FF#32).setWidth 64
    let busy : Prop := s.fld (.SQ_STATUS n.val) F.SQ_STATUS_MODE = 1 ∨ (s.tile n).kernel ≠ none ∨ (s.tile n).fill ≠ none ∨
      ∃ c ∈ List.range 8, s.chanState n c ≠ 0
    (s.rd (.SLAB_OWN n.val u.val) = new → Gives (.slabOwnWrite n u v) s (fun t => t = s)) ∧
    (s.rd (.SLAB_OWN n.val u.val) ≠ new → busy → Gives (.slabOwnWrite n u v) s (fun t =>
      t.fld (.SLAB_STATUS n.val) F.SLAB_STATUS_OWN_ERR = 1 ∧ OnlyRegs s t [.SLAB_STATUS n.val])) ∧
    (s.rd (.SLAB_OWN n.val u.val) ≠ new → ¬ busy → Gives (.slabOwnWrite n u v) s (fun t =>
      t.fld (.SLAB_STATUS n.val) F.SLAB_STATUS_FILL = 1 ∧ (t.tile n).fill = some (u.val, v &&& 0x1FF#32) ∧
      (∀ a, t.rdByte a = if slabAddr n (u.val * 0x40000) ≤ a ∧ a < slabAddr n (u.val * 0x40000) + 0x40000 then 0 else s.rdByte a) ∧
      KeepsRegs s t [.SLAB_STATUS n.val]))) ∧
  (∀ (s : State) (n : TileId), Runs s →
    ((s.tile n).fill = none → Gives (.slabFillDone n) s (fun t => t = s)) ∧
    (∀ x, (s.tile n).fill = some x → Gives (.slabFillDone n) s (fun t => t.rd (.SLAB_OWN n.val x.1) = x.2.setWidth 64 ∧
      t.fld (.SLAB_STATUS n.val) F.SLAB_STATUS_FILL = 0 ∧ t.tile n = { s.tile n with fill := none } ∧
      KeepsRegs s t [.SLAB_OWN n.val x.1, .SLAB_STATUS n.val] ∧ { t with regs := s.regs, tiles := s.tiles } = s))) ∧
  (∀ (s : State) (g : Fin 4), Runs s → s.home.held = [] →
    let state (x : State) : Nat := x.fld (.T2_STATUS g.val) F.T2_STATUS_STATE
    Gives (.t2Enable g true) s (fun t => t.fld (.T2_CTRL g.val) F.T2_CTRL_ENABLE = 1 ∧
      state t = (if state s = 0 then 1 else state s) ∧ OnlyRegs s t [.T2_CTRL g.val, .T2_STATUS g.val]) ∧
    Gives (.t2Enable g false) s (fun t => t.fld (.T2_CTRL g.val) F.T2_CTRL_ENABLE = 0 ∧ state t = 0 ∧
      OnlyRegs s t [.T2_CTRL g.val, .T2_STATUS g.val]) ∧
    (state s ≠ 1 → Gives (.t2Loss g) s (fun t => t = s)) ∧
    (state s = 1 → s.home.txns = [] → s.home.retry = [] → s.home.ownerWait = [] → s.home.held = [] → Gives (.t2Loss g) s (fun t => state t = 2 ∧
      t.fld (.T2_STATUS g.val) F.T2_STATUS_LOST_SEEN = 1 ∧ t.home.resv = s.home.resv.filter (fun l => !inTier2 g l.addr) ∧
      t.fld (.T2_DROP g.val) F.T2_DROP_COUNT = min (2 ^ 32 - 1) (s.fld (.T2_DROP g.val) F.T2_DROP_COUNT +
        (s.home.resv.filter (fun l => inTier2 g l.addr && (l.dirty || !l.agree))).length) ∧
      Sends s t [⟨56 + 3 * g.val, [], none⟩] ∧ KeepsRegs s t [.T2_STATUS g.val, .T2_DROP g.val] ∧ t.mem = s.mem)) ∧
    (∀ a, inTier2 g (a / 64 * 64) = true → s.txnAt (a / 64 * 64) = none → Gives (.t2Poison g a) s (fun t =>
      t.fld (.T2_STATUS g.val) F.T2_STATUS_UE = 1 ∧ Sends s t [⟨57 + 3 * g.val, [], none⟩] ∧
      OnlyRegsEvents s t [.T2_STATUS g.val, .T2_ERRADDR g.val])) ∧
    (∀ a, inTier2 g (a / 64 * 64) = false → Gives (.t2Poison g a) s (fun t => t = s)))

/-- The translation unit takes a command: no command runs and no block reset builds its mirrors. -/
def Sys2Proof.Claims.TrFree (s : State) : Prop := Runs s ∧ s.rst.phase ≠ .mirrors ∧ s.fld .TR_STATUS F.TR_STATUS_BUSY = 0

/-- The command ends with result r; only TR_STATUS, the count of messages discarded in the safe
state and the registers of a list have changed, and no byte of memory. -/
def Sys2Proof.Claims.TrEnds (s t : State) (r : Nat) (rs : List Reg) : Prop :=
  t.fld .TR_STATUS F.TR_STATUS_BUSY = 0 ∧ t.fld .TR_STATUS F.TR_STATUS_RESULT = r ∧ t.xl.run = none ∧
    KeepsRegs s t (.TR_STATUS :: .WM_DISCARD_HOST :: rs) ∧ KeepsBytes s t ∧ t.xl.faults = s.xl.faults

/-- The command has been taken and runs. -/
def Sys2Proof.Claims.TrTakes (s t : State) (x : TrRun) : Prop :=
  t.fld .TR_STATUS F.TR_STATUS_BUSY = 1 ∧ t.xl.run = some x ∧ KeepsRegs s t [.TR_STATUS]

/-- CTX_CREATE, REBASE, UNMAP, CTX_DESTROY and a command while one runs. While a command runs another is refused with BUSY.
CTX_CREATE takes the named or the lowest free context once its arguments, its field, key slot and function are right; its
table is checked, and only a well-formed one makes the context, or, for REBASE, replaces the table and drops the cached
ranges that are not pinned. UNMAP clears V of the entries in its span, and only those, and drops their copies; CTX_DESTROY,
whose context owns nothing and runs nowhere, withdraws all of its ranges so; the two end when nothing old is left, UNMAP at
the bound with ABORTED. -/
def Obligations.ContextAndTableCommands : Prop :=
  (∀ (s : State) (op : BitVec 4), Runs s → s.rst.phase ≠ .mirrors → s.fld .TR_STATUS F.TR_STATUS_BUSY = 1 →
    let busy (c : Instr) : Prop := Gives c s (fun t => t.fld .TR_STATUS F.TR_STATUS_RESULT = 1 ∧
      t.fld .TR_STATUS F.TR_STATUS_BUSY = 1 ∧ OnlyRegs s t [.TR_STATUS])
    busy .ctxCreate ∧ busy .ctxDestroy ∧ busy .rebase ∧ busy .unmap ∧ busy .pin ∧ busy .unpin ∧ busy .own ∧
    busy (.trCmdBusy op)) ∧
  (∀ (s : State), TrFree s →
    let a := (s.rd .TR_ARG0).toNat
    let count := (s.rd .TR_ARG2).toNat
    let ctx : Byte := BitVec.ofNat 8 a
    let field := bitsOf (s.rd .TR_ARG0) 11 8
    let slot := bitsOf (s.rd .TR_ARG0) 23 16
    let fn := bitsOf (s.rd .TR_ARG0) 29 24
    let free := (List.range 255).find? (fun n => !s.ctxValid (BitVec.ofNat 8 (n + 1)))
    let argsOk : Prop := a = ctx.toNat + field * 2 ^ 8 + slot * 2 ^ 16 + fn * 2 ^ 24 ∧ 0 < count ∧ count ≤ 4096
    (¬ argsOk → Gives .ctxCreate s (fun t => TrEnds s t 2 [])) ∧
    (argsOk → ctx = 0 → free = none → Gives .ctxCreate s (fun t => TrEnds s t 3 [])) ∧
    (argsOk → ctx ≠ 0 → s.ctxValid ctx = true → Gives .ctxCreate s (fun t => TrEnds s t 4 [])) ∧
    (argsOk → ctx ≠ 0 → s.ctxValid ctx = false → s.createFieldBad field slot fn = true →
      Gives .ctxCreate s (fun t => TrEnds s t 10 [])) ∧
    (argsOk → s.createFieldBad field slot fn = false → ∀ n, (if ctx = 0 then free else some (ctx.toNat - 1)) = some n →
      s.ctxValid (BitVec.ofNat 8 (n + 1)) = false →
      Gives .ctxCreate s (fun t => TrTakes s t (.create (BitVec.ofNat 8 (n + 1)) field slot fn (s.rd .TR_ARG1) count) ∧
        KeepsBytes s t)) ∧
    (256 ≤ a ∨ ctx = 0 ∨ s.ctxValid ctx = false ∨ count = 0 ∨ 4096 < count → Gives .rebase s (fun t => TrEnds s t 2 [])) ∧
    (a < 256 → ctx ≠ 0 → s.ctxValid ctx = true → 0 < count → count ≤ 4096 →
      Gives .rebase s (fun t => TrTakes s t (.rebase ctx (s.rd .TR_ARG1) count) ∧ KeepsBytes s t)) ∧
    let only : Prop := s.rd .TR_ARG1 = 0 ∧ s.rd .TR_ARG2 = 0
    (256 ≤ a ∨ ctx = 0 ∨ s.ctxValid ctx = false ∨ ¬ only → Gives .ctxDestroy s (fun t => TrEnds s t 2 [])) ∧
    (a < 256 → ctx ≠ 0 → s.ctxValid ctx = true → only → s.ctxInUse ctx = true → Gives .ctxDestroy s (fun t => TrEnds s t 5 [])) ∧
    (a < 256 → ctx ≠ 0 → s.ctxValid ctx = true → only → s.ctxInUse ctx = false →
      Gives .ctxDestroy s (fun t => t.fld .TR_STATUS F.TR_STATUS_BUSY = 1 ∧
        t.xl.run = some (.destroy ctx (s.oldAccesses ctx ((s.rangesIn ctx 0 (2 ^ 64)).map (fun x => x.2)))) ∧
        (∀ j, (t.tile j).rcV = (s.tile j).rcV.filter (fun e => !(e.ctx == ctx &&
          (s.rangesIn ctx 0 (2 ^ 64)).any (fun x => x.2.vstart == e.vstart)))))) ∧
    (let va := (s.rd .TR_ARG1).toNat
     let es := s.rangesIn ctx va (va + count)
     (256 ≤ a ∨ ctx = 0 ∨ s.ctxValid ctx = false ∨ va % 4096 ≠ 0 ∨ count % 4096 ≠ 0 → Gives .unmap s (fun t => TrEnds s t 2 [])) ∧
     (a < 256 → ctx ≠ 0 → s.ctxValid ctx = true → va % 4096 = 0 → count % 4096 = 0 →
       (count = 0 ∨ es = [] → Gives .unmap s (fun t => TrEnds s t 0 [])) ∧
       (count ≠ 0 → es ≠ [] → s.fld .ROT_STATUS F.ROT_STATUS_STATE ≠ 0 → s.pinnedCopy ctx es = true →
         Gives .unmap s (fun t => TrEnds s t 7 [])) ∧
       (count ≠ 0 → es ≠ [] → s.fld .ROT_STATUS F.ROT_STATUS_STATE = 0 → s.home.resv = [] →
         (∀ e : EngineId, s.bound e ctx = false) →
         let vByte (i : Nat) : Nat := localOf (s.fld (.CTX_ENTRY0 a) F.CTX_ENTRY0_RT_BASE * 4096) + 32 * i + 21
         Gives .unmap s (fun t => TrTakes s t (.unmap ctx (s.oldAccesses ctx (es.map (fun x => x.2)))) ∧
           (∀ x, t.rdByte x = if es.any (fun e => vByte e.1 == x) then s.rdByte x &&& 0xDF else s.rdByte x) ∧
           (∀ j, (t.tile j).rcV = (s.tile j).rcV.filter (fun e => !(e.ctx == ctx && es.any (fun x => x.2.vstart == e.vstart)))) ∧
           (∀ j, (t.tile j).rcS = (s.tile j).rcS.filter (fun e => !(e.ctx == ctx && es.any (fun x => x.2.vstart == e.vstart)))))))))  ∧
  (∀ (s : State), Runs s → ∀ x, s.xl.run = some x →
    (∀ c field slot fn base count, x = TrRun.create c field slot fn base count →
       let e := c.toNat
       (s.tableOk base count = true → Gives .tableCheckDone s (fun t => TrEnds s t 0 [.CTX_ENTRY0 e, .CTX_ENTRY1 e] ∧
         t.fld (.CTX_ENTRY0 e) F.CTX_ENTRY0_RT_BASE = base.toNat / 4096 % 2 ^ (F.CTX_ENTRY0_RT_BASE.hi + 1 - F.CTX_ENTRY0_RT_BASE.lo) ∧
         t.fld (.CTX_ENTRY1 e) F.CTX_ENTRY1_RT_COUNT = count % 2 ^ (F.CTX_ENTRY1_RT_COUNT.hi + 1 - F.CTX_ENTRY1_RT_COUNT.lo) ∧
         t.fld (.CTX_ENTRY1 e) F.CTX_ENTRY1_VALID = 1 ∧ t.fld (.CTX_ENTRY1 e) F.CTX_ENTRY1_FIELD = field % 16 ∧
         t.fld (.CTX_ENTRY1 e) F.CTX_ENTRY1_KEYSLOT = slot % 256 ∧ t.fld (.CTX_ENTRY1 e) F.CTX_ENTRY1_FUNCTION = fn % 64 ∧
         t.fld .TR_STATUS F.TR_STATUS_ID = e ∧ t.tiles = s.tiles)) ∧
       (s.tableOk base count = false → Gives .tableCheckDone s (fun t => TrEnds s t 6 [] ∧ t.tiles = s.tiles))) ∧
    (∀ c base count, x = TrRun.rebase c base count →
       (s.tableOk base count = true → Gives .tableCheckDone s (fun t => TrEnds s t 0 [.CTX_ENTRY0 c.toNat, .CTX_ENTRY1 c.toNat] ∧
         t.fld (.CTX_ENTRY1 c.toNat) F.CTX_ENTRY1_RT_COUNT = count % 2 ^ (F.CTX_ENTRY1_RT_COUNT.hi + 1 - F.CTX_ENTRY1_RT_COUNT.lo) ∧
         (∀ j, (t.tile j).rcV = (s.tile j).rcV.filter (fun e => e.ctx != c || e.pinned)))) ∧
       (s.tableOk base count = false → Gives .tableCheckDone s (fun t => TrEnds s t 6 [] ∧ t.tiles = s.tiles))) ∧
    (∀ c left, x = TrRun.unmap c left →
       (s.drained c left = true → Gives .unmapDrainDone s (fun t => TrEnds s t 0 [] ∧ t.tiles = s.tiles) ∧
         Gives .unmapTimeout s (fun t => t = s)) ∧
       (s.drained c left = false → Gives .unmapDrainDone s (fun t => t = s) ∧
         Gives .unmapTimeout s (fun t => t.fld .TR_STATUS F.TR_STATUS_RESULT = 12 ∧ t.fld .TR_STATUS F.TR_STATUS_BUSY = 0 ∧
           t.xl.run = none ∧ t.wmEvents.getLast? = some ⟨128, [], none⟩ ∧
           (∀ e : EngineId, (c, false) ∉ (t.eslot e).owes ∧
             ((c, false) ∈ (s.eslot e).owes → t.fld (.ES_STATUS e.val) F.ES_STATUS_ATS_TMO = 1))))) ∧
    (∀ c left, x = TrRun.destroy c left →
       (s.drained c left = true → s.xl.faults = [] → s.xl.refused = [] → Gives .unmapDrainDone s (fun t =>
         t.fld .TR_STATUS F.TR_STATUS_RESULT = 0 ∧ t.fld .TR_STATUS F.TR_STATUS_BUSY = 0 ∧ t.xl.run = none ∧
         t.rd (.CTX_ENTRY0 c.toNat) = 0 ∧ t.rd (.CTX_ENTRY1 c.toNat) = 0 ∧ t.revoked c = false ∧ KeepsBytes s t)) ∧
       (s.drained c left = false → Gives .unmapDrainDone s (fun t => t = s))))

/-- PIN, UNPIN, OWN and the regions of an OWN. PIN puts the LOCAL range that covers its address into the named tile's range
cache, pinned, with no other copy, unless 48 are pinned or no range covers it; UNPIN drops the pinned ranges that cover it.
OWN refuses bad regions, fields and locked granules; otherwise CHANGING of the first region's entry is set. A region with an
accepted request in progress waits; one with nothing held or in progress is filled with zeros, its entry names its owner,
CHANGING is clear, and the next region begins, or the last one ends the command. -/
def Obligations.PinsAndOwners : Prop :=
  (∀ (s : State), TrFree s →
    let a := (s.rd .TR_ARG0).toNat
    let k : TileId := s.pinTile
    let c := s.argCtx
    let va := (s.rd .TR_ARG1).toNat
    let slu := (s.rd .TR_ARG0).getLsbD 14
    let rc (x : Tile) : List RCEntry := if slu then x.rcS else x.rcV
    let argsOk : Prop := a < 2 ^ 15 ∧ c ≠ 0 ∧ s.ctxValid c = true ∧ bitsOf (s.rd .TR_ARG0) 13 8 < 48 ∧ s.rd .TR_ARG2 = 0
    (argsOk → k.val = bitsOf (s.rd .TR_ARG0) 13 8 ∧ c = (s.rd .TR_ARG0).setWidth 8) ∧
    (¬ argsOk → Gives .pin s (fun t => TrEnds s t 2 [] ∧ t.tiles = s.tiles) ∧
      Gives .unpin s (fun t => TrEnds s t 2 [] ∧ t.tiles = s.tiles)) ∧
    (argsOk → 48 ≤ ((rc (s.tile k)).filter (fun e => e.pinned)).length →
      Gives .pin s (fun t => TrEnds s t 8 [] ∧ t.tiles = s.tiles)) ∧
    (argsOk → ((rc (s.tile k)).filter (fun e => e.pinned)).length < 48 →
      (s.rangeWalk c va = none → Gives .pin s (fun t => TrEnds s t 9 [] ∧ t.tiles = s.tiles)) ∧
      (∀ e, s.rangeWalk c va = some e →
        (e.cls ≠ .localMem → Gives .pin s (fun t => TrEnds s t 2 [] ∧ t.tiles = s.tiles)) ∧
        (e.cls = .localMem → (rc (s.tile k)).length ≤ 63 →
          Gives .pin s (fun t => TrEnds s t 0 [] ∧
            rc (t.tile k) = { e with pinned := true } ::
              (rc (s.tile k)).filter (fun x => !(x.ctx == e.ctx && x.vstart == e.vstart)) ∧
            (∀ j, j ≠ k → t.tile j = s.tile j))))) ∧
    (argsOk → Gives .unpin s (fun t => TrEnds s t 0 [] ∧
      rc (t.tile k) = (rc (s.tile k)).filter (fun e => !(e.pinned && e.covers c va)) ∧ (∀ j, j ≠ k → t.tile j = s.tile j)))) ∧
  (∀ (s : State), TrFree s →
    let a := (s.rd .TR_ARG1).toNat
    let n := (s.rd .TR_ARG2).toNat
    let owner := s.argCtx
    ((s.rd .TR_ARG0).toNat ≥ 512 ∨ s.ctxValid owner = false → Gives .own s (fun t => TrEnds s t 2 [])) ∧
    ((s.rd .TR_ARG0).toNat < 512 → s.ctxValid owner = true →
      (a % 0x200000 ≠ 0 ∨ n = 0 ∨ 2 ^ 21 < n → Gives .own s (fun t => TrEnds s t 2 [])) ∧
      (s.ownRefusal owner a n ≠ 0 → Gives .own s (fun t => TrEnds s t (s.ownRefusal owner a n) [])) ∧
      (s.ownRefusal owner a n = 0 → s.home.resv = [] → s.home.dir = [] → s.home.culvert = none → ∀ e, ownerIndex a = some e →
        Gives .own s (fun t => TrTakes s t (.own owner ((s.rd .TR_ARG0).getLsbD 8) a n) ∧
          (t.ownerEntry e) / 512 % 2 = 1 ∧ t.ownerEntry e % 512 = s.ownerEntry e % 512 ∧
          (∀ x, (x < s.otBase + 4 * e ∨ s.otBase + 4 * e + 4 ≤ x) → t.rdByte x = s.rdByte x))))) ∧
  (∀ (s : State), Runs s → ∀ x, s.xl.run = some x →
    (∀ owner shared region left, x = TrRun.own owner shared region left → s.home.resv = [] → s.home.dir = [] → s.home.txns = [] →
      s.home.retry = [] → s.home.flips = [] → s.home.tierOps = [] → s.home.refills = [] → left ≤ 1 → ∀ e, ownerIndex region = some e →
      Gives .ownRegionDone s (fun t => t.fld .TR_STATUS F.TR_STATUS_BUSY = 0 ∧ t.fld .TR_STATUS F.TR_STATUS_RESULT = 0 ∧
        t.xl.run = none ∧ KeepsRegs s t [.TR_STATUS, .WM_DISCARD_HOST] ∧ t.tiles = s.tiles ∧
        (∀ y, t.rdByte y =
          if s.otBase + 4 * e ≤ y ∧ y < s.otBase + 4 * e + 4 then
            BitVec.ofNat 8 ((owner.toNat + if shared then 256 else 0) / 256 ^ (y - (s.otBase + 4 * e)))
          else if region ≤ y ∧ y < region + 0x200000 then 0 else s.rdByte y))) ∧
    (∀ owner shared region left, x = TrRun.own owner shared region left → s.home.resv = [] → s.home.dir = [] → s.home.txns = [] →
      s.home.retry = [] → s.home.flips = [] → s.home.tierOps = [] → s.home.refills = [] → 2 ≤ left →
      ∀ n, ownerIndex (region + 0x200000) = some n →
      Gives .ownRegionDone s (fun t => t.xl.run = some (.own owner shared (region + 0x200000) (left - 1)) ∧
        t.ownerEntry n / 512 % 2 = 1 ∧ KeepsRegs s t [] ∧ t.tiles = s.tiles)) ∧
    (∀ owner shared region left, x = TrRun.own owner shared region left → s.regionBusy region = true →
      Gives .ownRegionDone s (fun t => t = s)))

/-- A fault of a requester is posted: a record in the ring, one more pending fault. -/
def Sys2Proof.Claims.PostsFault (s t : State) (who : Walker) (c : Byte) (va : Word64) (acc : BitVec 4) : Prop :=
  let tail := s.fld .FQ_TAIL F.FQ_TAIL_INDEX
  let id := ((List.range 4096).find? (fun n => !s.xl.faults.any (fun f => f.id == n))).getD 0
  t.xl.faults = s.xl.faults ++ [⟨id, c, va.toNat / 2 ^ 16, acc, [(who, va, acc)]⟩] ∧
    t.fld .FQ_TAIL F.FQ_TAIL_INDEX = (tail + 1) % 4096 ∧
    t.fld .FQ_STATUS F.FQ_STATUS_PENDING = min 4095 (s.xl.faults.length + 1) ∧
    (∃ x, t.hostWrites.getLast? = some x ∧
      x.bytes = (s.faultRecord who c va acc id).mapIdx (fun i b => ((s.rd .FQ_BASE).toNat / 4096 * 4096 + 32 * tail + i, b))) ∧
    KeepsRegs s t [.FQ_TAIL, .FQ_STATUS] ∧ KeepsBytes s t

/-- Missing ranges, fault records, their completion, and the hot list. A walk that finds a range fills the requester's cache,
which goes on; one that finds none posts a fault record of 32 bytes and its requester waits. A full or disabled queue makes
it a remembered refusal, posted once there is room. RETRY has a group's access translated again: it goes on where its range
is cached, and waits for its walk otherwise; an engine's request succeeds. ABORT raises ACC_TRANSLATION in a group and
refuses an engine's request; an unknown fault number sets BAD_RESUME. Enabling a ring restarts it. A hot page is posted to
its list and its count restarts. -/
def Obligations.FaultsOfTranslation : Prop :=
  (∀ (s : State) (g : GroupId) (va : Word64) (acc : BitVec 4) (w : Word64), Runs s → ∀ gr, s.group g = some gr →
    ∀ k, (s.tile g.tile).kernel = some k → (gr.wait = some (.walk va acc w)) →
    let id := ((List.range 4096).find? (fun n => !s.xl.faults.any (fun f => f.id == n))).getD 0
    (∀ e, s.rangeWalk k.ctx va.toNat = some e → Gives (.rangeWalkDone (.group g) va acc) s (fun t =>
      (t.tile g.tile).rcV = rcFill (s.tile g.tile).rcV e ∧ (∃ u, t.group g = some u ∧ u.wait = none ∧ u.pc = gr.pc ∧ u.v = gr.v) ∧
      KeepsRegs s t [] ∧ KeepsBytes s t ∧ t.xl = s.xl)) ∧
    (s.rangeWalk k.ctx va.toNat = none → s.joins k.ctx va acc = none → s.faultRoom = true → s.safe = false →
      Gives (.rangeWalkDone (.group g) va acc) s (fun t => PostsFault s t (.group g) k.ctx va acc ∧
        (∃ u, t.group g = some u ∧ u.wait = some (.fault id va acc w) ∧ u.pc = gr.pc ∧ u.v = gr.v))) ∧
    (s.rangeWalk k.ctx va.toNat = none → s.joins k.ctx va acc = none → s.faultRoom = false →
      Gives (.rangeWalkDone (.group g) va acc) s (fun t => t.xl.faults = s.xl.faults ∧
        t.xl.refused.length = s.xl.refused.length + 1 ∧ KeepsRegs s t [.FQ_OVERFLOW, .FQ_STATUS] ∧ KeepsBytes s t ∧
        (∃ u, t.group g = some u ∧ u.wait = some (.refusedFault va acc w) ∧ u.pc = gr.pc ∧ u.v = gr.v)))) ∧
  (∀ (s : State) (e : EngineId) (p : BitVec 20) (va : Word64) (acc : BitVec 4), Runs s →
    (s.fld (.ES_STATUS e.val) F.ES_STATUS_STATE = 2 →
      Gives (.pageRequest e p va acc) s (fun t => t.out = s.out ++ [.engine e .unsupported] ∧ { t with out := s.out } = s)) ∧
    (s.fld (.ES_STATUS e.val) F.ES_STATUS_STATE = 3 → s.safe = false → ∀ c, s.pasidCtx e p = some c →
      s.joins c va acc = none → s.faultRoom = true →
      Gives (.pageRequest e p va acc) s (fun t => PostsFault s t (.engine e) c va acc))) ∧
  (∀ (s : State) (id : BitVec 12), Runs s →
    let found := s.xl.faults.find? (fun f => f.id == id.toNat)
    (found = none → Gives (.faultRetry id) s (fun t => t.fld .FQ_STATUS F.FQ_STATUS_BAD_RESUME = 1 ∧ OnlyRegs s t [.FQ_STATUS]) ∧
      Gives (.faultAbort id) s (fun t => t.fld .FQ_STATUS F.FQ_STATUS_BAD_RESUME = 1 ∧ OnlyRegs s t [.FQ_STATUS])) ∧
    (∀ f, found = some f → f.waiters.length = 1 → ∀ w, f.waiters.head? = some w →
      (∀ g : GroupId, w.1 = .group g → ∀ gr, s.group g = some gr → ∀ y : Word64,
        (∀ k, (s.tile g.tile).kernel = some k → gr.wait = some (.fault id.toNat w.2.1 w.2.2 y) →
          Gives (.faultRetry id) s (fun t => (∃ u, t.group g = some u ∧
            u.wait = (if (rcLookup (s.tile g.tile).rcV k.sched k.ctx w.2.1.toNat).isSome then none
              else some (.walk w.2.1 w.2.2 y)) ∧ u.pc = gr.pc ∧ u.v = gr.v) ∧
          t.xl.faults = s.xl.faults.filter (fun x => x.id != id.toNat) ∧ KeepsRegs s t [.FQ_STATUS] ∧ KeepsBytes s t)) ∧
        (∀ k, (s.tile g.tile).kernel = some k → gr.wait = some (.fault id.toNat w.2.1 w.2.2 y) →
          (∀ i, i < 64 → s.resLine (excRecordAt g k + i) = none) → s.fld (.VC_EXC g.tile.val g.core.val) F.VC_EXC_VALID = 0 →
          Gives (.faultAbort id) s (fun t => t.group g = some { gr with halted := true, wait := none, readyAt := none, cache := [] } ∧
            (t.tile g.tile).kernel = some { k with failed := true, status := 1 } ∧
            t.fld (.VC_EXC g.tile.val g.core.val) F.VC_EXC_CODE = 0x12 ∧
            t.rdNat (excRecordAt g k + 16) 8 = w.2.1.toNat ∧
            (∀ x ∈ t.xl.faults, x.id ≠ id.toNat)))) ∧
      (∀ e : EngineId, w.1 = .engine e →
        Gives (.faultRetry id) s (fun t => t.out = s.out ++ [.engine e .prgSuccess] ∧ KeepsRegs s t [.FQ_STATUS]) ∧
        Gives (.faultAbort id) s (fun t => t.out = s.out ++ [.engine e .prgInvalid] ∧ KeepsRegs s t [.FQ_STATUS])))) ∧
  (∀ (s : State), Runs s → ∀ r, s.xl.refused.head? = some r → s.xl.refused.length = 1 → s.joins r.ctx r.va r.access = none →
    s.safe = false →
    (s.faultRoom = true → Gives .refusedFaultPost s (fun t => PostsFault s t r.who r.ctx r.va r.access ∧ t.xl.refused = [])) ∧
    (s.faultRoom = false → Gives .refusedFaultPost s (fun t => t = s))) ∧
  (∀ (s : State) (v : Word32), Runs s →
    let w : Word64 := v.setWidth 64 &&& 0xC00007FF#64
    Gives (.fqEnable false v) s (fun t => t.rd .FQ_CTRL = w ∧
      (v.getLsbD 31 = true → t.fld .FQ_TAIL F.FQ_TAIL_INDEX = 0 ∧ t.fld .FQ_HEAD F.FQ_HEAD_INDEX = 0 ∧ t.xl.fqPhase = true) ∧
      (v.getLsbD 31 = false → OnlyRegs s t [.FQ_CTRL]) ∧ KeepsRegs s t [.FQ_CTRL, .FQ_TAIL, .FQ_HEAD] ∧ KeepsBytes s t) ∧
    Gives (.fqEnable true v) s (fun t => t.rd .HL_CTRL = w ∧
      (v.getLsbD 31 = true → t.fld .HL_TAIL F.HL_TAIL_INDEX = 0 ∧ t.fld .HL_HEAD F.HL_HEAD_INDEX = 0 ∧ t.xl.hlPhase = true) ∧
      (v.getLsbD 31 = false → OnlyRegs s t [.HL_CTRL]) ∧ KeepsRegs s t [.HL_CTRL, .HL_TAIL, .HL_HEAD] ∧ KeepsBytes s t)) ∧
  (∀ (s : State) (c : Byte) (page : BitVec 48), Runs s → s.safe = false →
    let hit (e : AccCount) : Bool := e.ctx == c && e.page == page.toNat
    let thresh := s.fld .AC_CTRL F.AC_CTRL_THRESH
    let due := s.accCounts.any (fun e => hit e && decide (thresh ≤ e.count))
    let tail := s.fld .HL_TAIL F.HL_TAIL_INDEX
    let restarted (t : State) : Prop := t.accCounts = s.accCounts.map (fun e => if hit e then { e with count := 0 } else e)
    (thresh = 0 ∨ due = false → Gives (.hotListPost c page) s (fun t => t = s)) ∧
    (thresh ≠ 0 → due = true →
      (s.fld .HL_CTRL F.HL_CTRL_ENABLE = 0 → Gives (.hotListPost c page) s (fun t => restarted t ∧ KeepsRegs s t [])) ∧
      (s.fld .HL_CTRL F.HL_CTRL_ENABLE = 1 → (tail + 1) % 1024 ≠ s.fld .HL_HEAD F.HL_HEAD_INDEX % 1024 →
        Gives (.hotListPost c page) s (fun t => restarted t ∧ t.fld .HL_TAIL F.HL_TAIL_INDEX = (tail + 1) % 1024 ∧
          KeepsRegs s t [.HL_TAIL] ∧ (∃ x, t.hostWrites.getLast? = some x ∧
            x.bytes = (leBytes 8 (page.toNat * 2 ^ 16 + c.toNat * 256 + (if s.xl.hlPhase then 1 else 0)) ++
              leBytes 8 s.timestamp.toNat).mapIdx (fun i b => ((s.rd .HL_BASE).toNat / 4096 * 4096 + 16 * tail + i, b)))))))

/-- The engine of a slot is lost: LOST, LOST_SEEN, no longer of the rotation, dead as an agent; nothing that it owes is waited for, and a
register access ends with LOST. -/
def Sys2Proof.Claims.EngineGone (s t : State) (e : EngineId) : Prop :=
  t.fld (.ES_STATUS e.val) F.ES_STATUS_STATE = 4 ∧ t.fld (.ES_STATUS e.val) F.ES_STATUS_LOST_SEEN = 1 ∧
    t.fld (.ES_STATUS e.val) F.ES_STATUS_SCHED = 0 ∧ t.agentDead (56 + e.val) = true ∧
    (t.eslot e).owes = [] ∧ (t.eslot e).walks = [] ∧ (t.eslot e).rc = [] ∧ (t.eslot e).ping = none ∧
    (∀ r ∈ (t.eslot e).reqs, r.live = false) ∧ t.fld (.ES_MMIO_STAT e.val) F.ES_MMIO_STAT_BUSY = 0 ∧
    (s.fld (.ES_MMIO_STAT e.val) F.ES_MMIO_STAT_BUSY = 1 → t.fld (.ES_MMIO_STAT e.val) F.ES_MMIO_STAT_RESULT = 3) ∧
    (∀ j, j ≠ e → t.eslot j = s.eslot j) ∧ t.tiles = s.tiles

/-- One signal leaves toward an engine, and nothing else changes. -/
def Sys2Proof.Claims.Tells (s t : State) (e : EngineId) (x : EngineSignal) : Prop :=
  t.out = s.out ++ [.engine e x] ∧ { t with out := s.out } = s

/-- Engine slots: training, admission, loss, halts and messages. ENABLE takes a slot from ABSENT to TRAINING and back to
ABSENT. A trained engine is HELD with its link's rate and its descriptor; ADMIT names the first condition that fails, or
makes it ADMITTED, and, if it joins the rotation, sends a PING and keeps the round trip. Loss, viral, an ECHO missing for 8
turns and RESET leave it LOST and dead. HOLD and its acknowledgement, interrupts, ECHO, a draw above its class and the grant
table are as the rules say. Other slots do not change. -/
def Obligations.EngineSlotsAndTheirMessages : Prop :=
  ∀ (s : State) (e : EngineId), Runs s →
    let st (x : State) : Nat := x.fld (.ES_STATUS e.val) F.ES_STATUS_STATE
    let present : Prop := st s = 2 ∨ st s = 3
    Gives (.esEnable e true) s (fun t => t.fld (.ES_CTRL e.val) F.ES_CTRL_ENABLE = 1 ∧
      st t = (if st s = 0 then 1 else st s) ∧ OnlyRegs s t [.ES_CTRL e.val, .ES_STATUS e.val]) ∧
    (¬ present → Gives (.esEnable e false) s (fun t => t.fld (.ES_CTRL e.val) F.ES_CTRL_ENABLE = 0 ∧ st t = 0 ∧
      OnlyRegs s t [.ES_CTRL e.val, .ES_STATUS e.val])) ∧
    (present → Gives (.esEnable e false) s (fun t => t.fld (.ES_CTRL e.val) F.ES_CTRL_ENABLE = 0 ∧ st t = 0 ∧
      t.fld (.ES_STATUS e.val) F.ES_STATUS_LOST_SEEN = 1)) ∧
    (∀ link : EngineLink, (st s ≠ 1 → Gives (.engineTrained e link) s (fun t => t = s)) ∧
      (st s = 1 → link.formatOk = false → Gives (.engineTrained e link) s (fun t =>
        t.fld (.ES_STATUS e.val) F.ES_STATUS_ADMIT_ERR = 2 ∧ st t = 1 ∧ OnlyRegs s t [.ES_STATUS e.val])) ∧
      (st s = 1 → link.formatOk = true → Gives (.engineTrained e link) s (fun t => st t = 2 ∧
        t.fld (.ES_LINK e.val) F.ES_LINK_RATE = link.rate.toNat ∧
        t.fld (.ES_LINK e.val) F.ES_LINK_WIDTH = (if link.x32 then 1 else 0) ∧
        (∀ k : Fin 4, t.rd (.ES_DESC e.val k.val) = if link.descPresent then (link.desc[k]).setWidth 64 else 0) ∧
        (t.eslot e).descOk = (link.descPresent && descValid link.desc) ∧ (∀ j, j ≠ e → t.eslot j = s.eslot j) ∧
        KeepsRegs s t [.ES_STATUS e.val, .ES_LINK e.val, .ES_DESC e.val 0, .ES_DESC e.val 1, .ES_DESC e.val 2, .ES_DESC e.val 3]))) ∧
    (∀ (power : Bool) (rtt : Word16),
      let sched : Prop := s.fld (.ES_CTRL e.val) F.ES_CTRL_SCHED_REQ = 1
      let refused (n : Nat) : Prop := Gives (.esAdmit e power rtt) s (fun t =>
        t.fld (.ES_STATUS e.val) F.ES_STATUS_ADMIT_ERR = n ∧ st t = st s ∧ OnlyRegs s t [.ES_STATUS e.val])
      (st s ≠ 2 → refused 1) ∧
      (st s = 2 → (s.eslot e).descOk = false → refused 2) ∧
      (st s = 2 → (s.eslot e).descOk = true → s.fld (.ES_FIELD e.val) F.ES_FIELD_FIELD = 15 → refused 3) ∧
      (st s = 2 → (s.eslot e).descOk = true → s.fld (.ES_FIELD e.val) F.ES_FIELD_FIELD ≠ 15 → power = false → refused 4) ∧
      (st s = 2 → (s.eslot e).descOk = true → s.fld (.ES_FIELD e.val) F.ES_FIELD_FIELD ≠ 15 → power = true → sched →
        bitOf (s.rd (.ES_DESC e.val 0)) 9 = false → refused 5) ∧
      (st s = 2 → (s.eslot e).descOk = true → s.fld (.ES_FIELD e.val) F.ES_FIELD_FIELD ≠ 15 → power = true → sched →
        bitOf (s.rd (.ES_DESC e.val 0)) 9 = true →
        bitsOf (s.rd (.ES_DESC e.val 2)) 8 0 < ((List.range 360).filter (s.esIssue e)).length → refused 6) ∧
      (st s = 2 → (s.eslot e).descOk = true → s.fld (.ES_FIELD e.val) F.ES_FIELD_FIELD ≠ 15 → power = true →
        (sched → bitOf (s.rd (.ES_DESC e.val 0)) 9 = true ∧
          ((List.range 360).filter (s.esIssue e)).length ≤ bitsOf (s.rd (.ES_DESC e.val 2)) 8 0) →
        Gives (.esAdmit e power rtt) s (fun t => st t = 3 ∧ t.fld (.ES_STATUS e.val) F.ES_STATUS_ADMIT_ERR = 0 ∧
          t.agentDead (56 + e.val) = false ∧
          (sched → t.fld (.ES_STATUS e.val) F.ES_STATUS_SCHED = 1 ∧ t.fld (.ES_LAT e.val) F.ES_LAT_RTT = rtt.toNat ∧
            t.out = s.out ++ [.engine e (.ping (s.eslot e).seq)]) ∧ (¬ sched → t.out = s.out) ∧
          KeepsRegs s t [.ES_STATUS e.val, .ES_LAT e.val, .COH_DEAD ((56 + e.val) / 32)] ∧ KeepsBytes s t))) ∧
    (st s = 0 → Gives (.esReset e) s (fun t => t = s)) ∧
    (st s ≠ 0 → Gives (.esReset e) s (fun t => EngineGone s t e ∧ (s.out ++ [Output.engine e .linkReset]).isPrefixOf t.out = true)) ∧
    (present → Gives (.engineLoss e) s (fun t => EngineGone s t e ∧ ⟨103 + e.val, [], none⟩ ∈ t.wmEvents) ∧
      Gives (.engineViralRx e) s (fun t => EngineGone s t e ∧ ⟨103 + e.val, [], none⟩ ∈ t.wmEvents ∧
        t.fld (.ES_STATUS e.val) F.ES_STATUS_VIRAL_RX = 1) ∧
      Gives (.heldAck e) s (fun t => t.fld (.ES_STATUS e.val) F.ES_STATUS_HOLD_ACK = 1 ∧ OnlyRegs s t [.ES_STATUS e.val])) ∧
    (¬ present → Gives (.engineLoss e) s (fun t => t = s) ∧ Gives (.engineViralRx e) s (fun t => t = s) ∧
      Gives (.heldAck e) s (fun t => t = s)) ∧
    Gives (.enginePowerExceeded e) s (fun t => Sends s t [⟨123, [], some e.val⟩] ∧ OnlyRegsEvents s t []) ∧
    (let may := s.capOn 0 (s.fld (.ES_FIELD e.val) F.ES_FIELD_FIELD)
     (may = false → Gives (.hold e true) s (fun t => t = s)) ∧
     (may = true → present → Gives (.hold e true) s (fun t => t.fld (.ES_CTRL e.val) F.ES_CTRL_HOLD = 1 ∧
       t.fld (.ES_STATUS e.val) F.ES_STATUS_HOLD_ACK = 0 ∧ t.out = s.out ++ [.engine e .hold] ∧
       KeepsRegs s t [.ES_CTRL e.val, .ES_STATUS e.val] ∧ KeepsBytes s t)) ∧
     (present → s.fld (.ES_CTRL e.val) F.ES_CTRL_HOLD = 1 → (s.eslot e).halted = false →
       Gives (.hold e false) s (fun t => t.fld (.ES_CTRL e.val) F.ES_CTRL_HOLD = 0 ∧ t.out = s.out ++ [.engine e .release] ∧
         KeepsRegs s t [.ES_CTRL e.val] ∧ KeepsBytes s t))) ∧
    (∀ i : BitVec 5,
      let v := s.fld (.ES_BIND e.val) F.ES_BIND_VEC_BASE + i.toNat
      let f := s.fld (.ES_BIND e.val) F.ES_BIND_FUNCTION
      (st s ≠ 3 ∨ (f ≠ 0 ∧ 31 < v) ∨ 2047 < v → Gives (.irq e i) s (fun t => t = s)) ∧
      (st s = 3 → f = 0 → v ≤ 2047 → s.safe = false → s.twinActive = false → (∀ w ∈ s.hostWrites, w.src ≠ .engine e) →
        v ∉ s.pf0.pend →
        (s.pf0.sendable v = true → Gives (.irq e i) s (fun t => t.out = s.out ++ [.msix .pf0 v] ∧ { t with out := s.out } = s)) ∧
        (s.pf0.sendable v = false → Gives (.irq e i) s (fun t => t.pf0.pend = s.pf0.pend ++ [v] ∧ t.out = s.out ∧
          KeepsRegs s t [] ∧ KeepsBytes s t)))) ∧
    (∀ (seq elapsed : Word16), ∀ x, (s.eslot e).ping = some x → x.1 = seq → st s = 3 →
      let rtt := elapsed.toNat - bitsOf (s.rd (.ES_DESC e.val 1)) 31 16
      (rtt = s.fld (.ES_LAT e.val) F.ES_LAT_RTT → Gives (.echo e seq elapsed) s (fun t => (t.eslot e).ping = none ∧
        { t with eslots := s.eslots } = s)) ∧
      (rtt ≠ s.fld (.ES_LAT e.val) F.ES_LAT_RTT → Gives (.echo e seq elapsed) s (fun t => (t.eslot e).ping = none ∧
        t.fld (.ES_STATUS e.val) F.ES_STATUS_LAT_CHG = 1 ∧ Sends s t [⟨120, [], some e.val⟩] ∧
        KeepsRegs s t [.ES_STATUS e.val]))) ∧
    (∀ x, (s.eslot e).ping = some x →
      (8 ≤ x.2.toNat → present → Gives (.echoTimeout e) s (fun t => EngineGone s t e)) ∧
      (x.2.toNat < 8 → Gives (.echoTimeout e) s (fun t => t = s))) ∧
    (∀ (k : Fin 180) (v : Word32),
      (s.fld .ROT_STATUS F.ROT_STATUS_STATE ≠ 0 → Gives (.esGrantWrite e k v) s (fun t =>
        t.fld (.ES_STATUS e.val) F.ES_STATUS_GRANT_ERR = 1 ∧ OnlyRegs s t [.ES_STATUS e.val])) ∧
      (s.fld .ROT_STATUS F.ROT_STATUS_STATE = 0 → Gives (.esGrantWrite e k v) s (fun t =>
        t.rd (.ES_GRANT e.val k.val) = v.setWidth 64 &&& 0xC000C000#64 ∧ OnlyRegs s t [.ES_GRANT e.val k.val])))

/-- Requests, translations and scheduled requests of an engine, its bindings and its registers. A HELD engine's request, and
one of a context that the slot does not admit, is Unsupported. A translation answers the largest naturally aligned block of a
LOCAL range. A D2H request is counted against the credits and goes to the line's home as the agent 56 + e, waits for a walk,
or is refused. A scheduled request that its grant, context and target allow reads, writes or signals, any other sets
GRANT_ERR; the owner table's refusal is recorded too. Bindings need equal fields and functions. MMIO ends with the result of
its completion. -/
def Obligations.EngineRequestsAndAccesses : Prop :=
  (∀ (s : State) (e : EngineId) (p : BitVec 20), Runs s →
    let st := s.fld (.ES_STATUS e.val) F.ES_STATUS_STATE
    (∀ (va : Word64) (wr : Bool), (st = 2 → Gives (.atsTranslationRequest e p va wr) s (fun t => Tells s t e .unsupported)) ∧
      (st = 3 → s.safe = false →
        (s.pasidCtx e p = none → Gives (.atsTranslationRequest e p va wr) s (fun t => Tells s t e .unsupported)) ∧
        (∀ c, s.pasidCtx e p = some c → p.toNat = c.toNat ∧ c ≠ 0 ∧ s.bound e c = true ∧ s.revoked c = false ∧
          (s.rangeWalk c va.toNat = none →
            Gives (.atsTranslationRequest e p va wr) s (fun t => Tells s t e (.translation 0 4096 0 false))) ∧
          (∀ x, s.rangeWalk c va.toNat = some x →
            (x.cls ≠ .localMem → Gives (.atsTranslationRequest e p va wr) s (fun t =>
              Tells s t e (.translation (va.toNat / 4096 * 4096) 4096 (x.perm &&& 7) true))) ∧
            (x.cls = .localMem → x.vstart % 4096 = 0 →
              let b := rangeBlock x va.toNat
              b.1 ≤ va.toNat ∧ va.toNat < b.1 + b.2 ∧ b.1 % b.2 = 0 ∧ 4096 ≤ b.2 ∧ x.vstart ≤ b.1 ∧
              b.1 + b.2 ≤ x.vstart + x.pages * 4096 ∧
              Gives (.atsTranslationRequest e p va wr) s (fun t =>
                Tells s t e (.translation ((x.pstart + (b.1 - x.vstart)) % 2 ^ 52) b.2 (x.perm &&& 7) false))))))) ∧
    (∀ r : EngineD2H, (st = 2 → Gives (.engineD2hRequest e p r) s (fun t => Tells s t e .unsupported)) ∧
      (∀ c, s.pasidCtx e p = some c → st = 3 → s.safe = false →
        let caching := bitOf (s.rd (.ES_DESC e.val 0)) 8
        let used := (s.eslot e).reqs.length + (s.eslot e).walks.length
        (caching = false → r.kind = .rdShared → Gives (.engineD2hRequest e p r) s (fun t =>
          t.out = s.out ++ [.engine e .goI] ∧ Sends s t [⟨119, [c], some e.val⟩] ∧ KeepsRegs s t [] ∧ KeepsBytes s t)) ∧
        (r.kind = .rdCurr → bitsOf (s.rd (.ES_DESC e.val 0)) 24 16 ≤ used → Gives (.engineD2hRequest e p r) s (fun t => t = s)) ∧
        (r.kind = .rdCurr → used < bitsOf (s.rd (.ES_DESC e.val 0)) 24 16 → r.translated = true →
          Gives (.engineD2hRequest e p r) s (fun t => KeepsRegs s t [] ∧ KeepsBytes s t ∧
            (t.eslot e).reqs.length = (s.eslot e).reqs.length + 1 ∧
            SendsCoh s t (fun m => m.opc = 4 ∧ m.addr = BitVec.ofNat 64 (r.addr.toNat % 2 ^ 52 / 64 * 64) ∧ m.ctx = c ∧
              m.srcAgent = BitVec.ofNat 8 (56 + e.val) ∧ m.hasData = false ∧
              m.dstAgent = homeAgent (localOf (r.addr.toNat % 2 ^ 52 / 64 * 64))))) ∧
        (r.kind = .rdCurr → used < bitsOf (s.rd (.ES_DESC e.val 0)) 24 16 → r.translated = false →
          s.translate (s.eslot e).rc false c r.addr accR = .miss →
          Gives (.engineD2hRequest e p r) s (fun t => (t.eslot e).walks = (s.eslot e).walks ++ [(c, r)] ∧
            t.out = s.out ∧ KeepsRegs s t [] ∧ KeepsBytes s t)))) ∧
    (∀ c : Byte,
      (c = 0 ∨ s.bound e c = true → Gives (.pasidBind e c) s (fun t => t = s)) ∧
      (c ≠ 0 → s.bound e c = false →
        let agrees : Prop := s.ctxField c = s.fld (.ES_FIELD e.val) F.ES_FIELD_FIELD ∧
          s.fld (.CTX_ENTRY1 c.toNat) F.CTX_ENTRY1_FUNCTION = s.fld (.ES_BIND e.val) F.ES_BIND_FUNCTION
        (agrees → Gives (.pasidBind e c) s (fun t => t.bound e c = true ∧ (∀ d, d ≠ c → t.bound e d = s.bound e d) ∧
          OnlyRegs s t [.ES_PASID e.val (c.toNat / 32)])) ∧
        (¬ agrees → Gives (.pasidBind e c) s (fun t => t.fld (.ES_STATUS e.val) F.ES_STATUS_BIND_ERR = 1 ∧
          OnlyRegs s t [.ES_STATUS e.val]))) ∧
      (s.bound e c = false → Gives (.pasidUnbind e c) s (fun t => t = s)) ∧
      (s.bound e c = true → st ≠ 2 → st ≠ 3 → (s.eslot e).owes = [] → Gives (.pasidUnbind e c) s (fun t =>
        t.bound e c = false ∧ (∀ d, d ≠ c → t.bound e d = s.bound e d) ∧ KeepsRegs s t [.ES_PASID e.val (c.toNat / 32)])) ∧
      (s.bound e c = true → st = 3 → (s.eslot e).owes = [] → Gives (.pasidUnbind e c) s (fun t =>
        (t.eslot e).owes = [(c, true)] ∧ t.out = s.out ++ [.engine e (.invalidate c 0 (2 ^ 64))] ∧ KeepsRegs s t []))) ∧
    ((s.eslot e).owes = [] → Gives (.invalidateCompletion e) s (fun t => t = s)) ∧
    (∀ x, (s.eslot e).owes.head? = some x → Gives (.invalidateCompletion e) s (fun t =>
      (t.eslot e).owes = (s.eslot e).owes.drop 1 ∧ (x.2 = true → t.bound e x.1 = false) ∧
      KeepsRegs s t (if x.2 then [.ES_PASID e.val (x.1.toNat / 32)] else []) ∧ KeepsBytes s t))) ∧
  (∀ (s : State) (e : EngineId) (r : EngineRequest), Runs s →
    let joined : Prop := s.fld (.ES_STATUS e.val) F.ES_STATUS_STATE = 3 ∧ s.fld (.ES_STATUS e.val) F.ES_STATUS_SCHED = 1
    let a := r.laddr.toNat * 256 + (if r.part then 32 * r.win.toNat else 0)
    let n := if r.part then 32 else 256
    (¬ joined → Gives (.engineSchedRequest e r) s (fun t => t = s)) ∧
    (joined → s.engineSchedOk e r = true →
      (r.kind = 0 → s.ueIn a n = none → Gives (.engineSchedRequest e r) s (fun t =>
        t.out = s.out ++ [.engine e (.response 0 (s.rdBytes a n))] ∧ KeepsRegs s t ((List.range 32).map .RSV_CECNT) ∧
        KeepsBytes s t)) ∧
      (r.kind = 0 → s.ueIn a n ≠ none → Gives (.engineSchedRequest e r) s (fun t =>
        t.out = s.out ++ [.engine e (.response 1 (s.rdBytes a n))] ∧ KeepsBytes s t)) ∧
      (r.kind = 1 → n ≤ r.payload.length → Gives (.engineSchedRequest e r) s (fun t =>
        t.out.dropLast = s.out ∧ t.out.getLast? = some (.schedFlit ⟨schedStop a, r.ctx, a, r.payload.take n, none, true, false⟩) ∧ KeepsRegs s t [])) ∧
      (r.kind = 2 → Gives (.engineSchedRequest e r) s (fun t => t.out.dropLast = s.out ∧ KeepsRegs s t [] ∧
        t.out.getLast? = some (.schedFlit ⟨.tile ⟨r.tile.toNat % 48, Nat.mod_lt _ (by decide)⟩, r.ctx, 0, [],
          some (r.tile.toNat, r.sig.toNat, BitVec.ofNat 64 (leNat (r.payload.take 8))), true, false⟩)))) ∧
    (joined → s.engineSchedOk e r = false → Gives (.engineSchedRequest e r) s (fun t =>
      t.fld (.ES_STATUS e.val) F.ES_STATUS_GRANT_ERR = 1 ∧
      (s.engineOwnerRefused e r = false → Sends s t [⟨121, [r.ctx], some e.val⟩] ∧ KeepsRegs s t [.ES_STATUS e.val]) ∧
      (s.engineOwnerRefused e r = true → t.wmEvents.dropLast = s.wmEvents ++ [⟨121, [r.ctx], some e.val⟩] ∧
        (∃ w, t.wmEvents.getLast? = some w ∧ w.source = 21 ∧ w.ctxs = [r.ctx]) ∧
        t.fld .OT_FIRST F.OT_FIRST_VALID = 1 ∧ KeepsRegs s t [.ES_STATUS e.val, .OT_REFUSALS, .OT_FIRST]) ∧
      (r.kind = 0 → t.out = s.out ++ [.engine e (.response 2 (List.replicate n 0))]) ∧ (r.kind ≠ 0 → t.out = s.out) ∧
      KeepsBytes s t))) ∧
  (∀ (s : State) (e : EngineId), Runs s → s.twinActive = false →
    let st := s.fld (.ES_STATUS e.val) F.ES_STATUS_STATE
    let busy := s.fld (.ES_MMIO_STAT e.val) F.ES_MMIO_STAT_BUSY
    let bar := s.fld (.ES_MMIO_ADDR e.val) F.ES_MMIO_ADDR_BAR
    let off := 4 * s.fld (.ES_MMIO_ADDR e.val) F.ES_MMIO_ADDR_OFFSET
    let data := s.fld (.ES_MMIO_DATA e.val) F.ES_MMIO_DATA_DATA
    let regs : List Reg := [.ES_MMIO_ADDR e.val, .ES_MMIO_STAT e.val]
    let ends (t : State) (r : Nat) : Prop := t.fld (.ES_MMIO_STAT e.val) F.ES_MMIO_STAT_BUSY = 0 ∧
      t.fld (.ES_MMIO_STAT e.val) F.ES_MMIO_STAT_RESULT = r
    (busy = 1 → Gives (.mmioRead e) s (fun t => t = s) ∧ Gives (.mmioWrite e) s (fun t => t = s)) ∧
    (busy = 0 → st ≠ 2 → st ≠ 3 → Gives (.mmioRead e) s (fun t => ends t 3 ∧ OnlyRegs s t regs) ∧
      Gives (.mmioWrite e) s (fun t => ends t 3 ∧ OnlyRegs s t regs)) ∧
    (busy = 0 → st = 2 ∨ st = 3 → 6 ≤ bar → Gives (.mmioRead e) s (fun t => ends t 1 ∧ OnlyRegs s t regs) ∧
      Gives (.mmioWrite e) s (fun t => ends t 1 ∧ OnlyRegs s t regs)) ∧
    (busy = 0 → st = 2 ∨ st = 3 → bar < 6 →
      Gives (.mmioRead e) s (fun t => t.out = s.out ++ [.engine e (.mmioRead bar off)] ∧
        t.fld (.ES_MMIO_STAT e.val) F.ES_MMIO_STAT_BUSY = 1 ∧ KeepsRegs s t regs) ∧
      Gives (.mmioWrite e) s (fun t => t.out = s.out ++ [.engine e (.mmioWrite bar off (BitVec.ofNat 32 data))] ∧
        t.fld (.ES_MMIO_STAT e.val) F.ES_MMIO_STAT_BUSY = 1 ∧ KeepsRegs s t regs)) ∧
    (∀ (ur : Bool) (v : Word32),
      (busy = 0 → Gives (.mmioCompletion e ur v) s (fun t => t = s)) ∧
      (busy = 1 → Gives (.mmioCompletion e ur v) s (fun t => ends t (if ur then 1 else 0) ∧
        t.fld (.ES_MMIO_DATA e.val) F.ES_MMIO_DATA_DATA =
          (if ur = false ∧ s.fld (.ES_MMIO_ADDR e.val) F.ES_MMIO_ADDR_WRITE = 0 then v.toNat else data) ∧
        OnlyRegs s t [.ES_MMIO_STAT e.val, .ES_MMIO_DATA e.val]))) ∧
    (busy = 1 → Gives (.mmioTimeout e) s (fun t => ends t 2 ∧ OnlyRegs s t [.ES_MMIO_STAT e.val])) ∧
    (busy = 0 → Gives (.mmioTimeout e) s (fun t => t = s)))

/-- The move of a translated piece, where its translation is not refused. -/
def Sys2Proof.Claims.moveOf : SlPiece → Option SlMove
  | .ok m => some m
  | .stop _ => none

/-- Channel c of tile k executes the descriptor d of operation op: RUNNING, not stopping, not walking, its queued pieces valid, and not
a scheduled channel in appended cycles. -/
def Sys2Proof.Claims.ChanAt (s : State) (k : TileId) (c : ChanId) (d : SlDesc) (op : Nat) : Prop :=
  Runs s ∧ (s.tile k).inReset = false ∧ s.fld (.SL_STATUS k.val c.val) F.SL_STATUS_STATE = 1 ∧ (s.chan k c).ending = none ∧
    (s.chan k c).walk = none ∧ (s.chan k c).tagged = false ∧ (s.chan k c).desc = some d ∧ d.op = op ∧
    (s.chanSched k c = true → s.appended = false)

/-- The descriptor is done: counted; with END the channel stops with OK, otherwise it goes on at a slab offset. No other register changes. -/
def Sys2Proof.Claims.ChanGoesOn (s t : State) (k : TileId) (c : ChanId) (d : SlDesc) (next : Nat) : Prop :=
  t.rd (.SL_COUNT k.val c.val) = BitVec.ofNat 64 (((s.rd (.SL_COUNT k.val c.val)).toNat + 1) % 2 ^ 32) ∧
    t.fld (.SL_STATUS k.val c.val) F.SL_STATUS_STATE = 1 ∧ (t.chan k c).desc = none ∧ (t.chan k c).todo = [] ∧
    (if d.ends then (t.chan k c).ending = some 0
     else (t.chan k c).ending = none ∧ (t.chan k c).next = next ∧
      t.fld (.SL_DESC k.val c.val) F.SL_DESC_DESC = next % 2 ^ 23) ∧
    KeepsRegs s t [.SL_COUNT k.val c.val, .SL_STATUS k.val c.val, .SL_DESC k.val c.val] ∧ (∀ j, j ≠ k → t.tile j = s.tile j)

/-- The channel stops with a status at a slab offset: nothing more issues. -/
def Sys2Proof.Claims.ChanStops (s t : State) (k : TileId) (c : ChanId) (off status : Nat) : Prop :=
  (t.chan k c).ending = some status ∧ (t.chan k c).todo = [] ∧ t.fld (.SL_DESC k.val c.val) F.SL_DESC_DESC = off % 2 ^ 23 ∧
    KeepsRegs s t [.SL_STATUS k.val c.val, .SL_DESC k.val c.val, .FQ_STATUS] ∧ KeepsBytes s t

/-- A place of n bytes of the tile's own slab that a context owns. -/
def Sys2Proof.Claims.OwnPlace (s : State) (k : TileId) (ctx : Byte) (x : Option Target) (a n : Nat) : Prop :=
  x = some ⟨.localMem, s.chipId * 2 ^ 43 + slabAddr k a, .normal⟩ ∧ a + n ≤ 0x600000 ∧ s.slabOwned k ctx a = true ∧ n ≤ 64

/-- The last piece of a descriptor, all of whose pieces have entered the queue, lies in the own slab: it is read and written at once,
and the descriptor is done. -/
def Sys2Proof.Claims.MovesOne (cmd : Instr) (s : State) (k : TileId) (c : ChanId) (d : SlDesc) : Prop :=
  s.memUE = [] → s.home.resv = [] → (s.chan k c).flight = [] → s.slAll k c d = true →
    ∀ m, (s.chan k c).todo.head? = some m → (s.chan k c).todo.length = 1 →
    m.role = .copy → m.srcCount = none → m.dstCount = none → ∀ dst, m.dst = some dst → OwnPlace s k m.ctx (some dst) (localOf dst.addr - slabAddr k 0) m.bytes →
    (∀ src, m.src = some src → OwnPlace s k m.ctx (some src) (localOf src.addr - slabAddr k 0) m.bytes →
      Gives cmd s (fun t => ChanGoesOn s t k c d (d.off + 64) ∧ (t.chan k c).flight = [] ∧
        WritesAt s t (localOf dst.addr) (s.rdBytes (localOf src.addr) m.bytes))) ∧
    (m.src = none → m.data.length = m.bytes → Gives cmd s (fun t => ChanGoesOn s t k c d (d.off + 64) ∧
      (t.chan k c).flight = [] ∧ WritesAt s t (localOf dst.addr) m.data))

/-- Sluice channels: descriptors, moves in the own slab, WREDUCE, WAIT, SIGNAL, JUMP and stops. A fetched descriptor is
checked first: a bad offset, field or context stops the channel with its status, and its translated piece enters the queue;
the next one is fetched ahead while it runs. The last COPY, GATHER, SCATTER or INLINE piece in the own slab moves its bytes
at once. WREDUCE writes the sum, or stops with ANCHOR_MISMATCH, or with RESIDUE where an adder's error shows. WAIT goes on
once its signal or its point has come, SIGNAL adds to a signal, JUMP goes to its target while its loop counter runs. ABORT
stops a channel; it is IDLE with its status once nothing is outstanding. -/
def Obligations.SluiceChannels : Prop :=
  (∀ (s : State) (k : TileId) (c : ChanId), Runs s → s.chanLive k c = true → (s.chan k c).desc = none → (s.chan k c).ahead = [] →
    let off := (s.chan k c).next
    let bs := s.rdBytes (slabAddr k off) 64
    let d := SlDesc.ofBytes bs off
    let sched := s.fld (.SL_STATUS k.val c.val) F.SL_STATUS_MODE == 1
    (off % 64 ≠ 0 ∨ 0x600000 ≤ off → Gives (.sluiceDescFetch k c) s (fun t => ChanStops s t k c off 2)) ∧
    let st := if d.wordStatus bs sched ≠ 0 then 2 else s.descStatus k d
    let parts := s.slParts k d sched
    (off % 64 = 0 → off < 0x600000 → s.memUE = [] →
      (st ≠ 0 → Gives (.sluiceDescFetch k c) s (fun t =>
        ChanStops s t k c off st ∧ t.fld (.SL_STATUS k.val c.val) F.SL_STATUS_CTX = d.ctx.toNat)) ∧
      (st = 0 → parts = [] → s.slIndex k d = 0 → Gives (.sluiceDescFetch k c) s (fun t =>
        (t.chan k c).desc = some d ∧ (t.chan k c).todo = [] ∧ (t.chan k c).enq = 0 ∧
        t.fld (.SL_STATUS k.val c.val) F.SL_STATUS_CTX = d.ctx.toNat ∧ OnlyTile s t k [.SL_STATUS k.val c.val])) ∧
      (st = 0 → parts.length = 1 → s.slIndex k d = 0 → ∀ p, parts.head? = some p →
        ∀ m, moveOf (s.slPiece k d sched (s.chan k c).nextId 0 none p) = some m →
        Gives (.sluiceDescFetch k c) s (fun t => (t.chan k c).desc = some d ∧ (t.chan k c).todo = [m] ∧ (t.chan k c).enq = 1 ∧
          t.fld (.SL_STATUS k.val c.val) F.SL_STATUS_CTX = d.ctx.toNat ∧ OnlyTile s t k [.SL_STATUS k.val c.val])))) ∧
  (∀ (s : State) (k : TileId) (c : ChanId), Runs s → s.chanLive k c = true → (s.chan k c).ahead = [] → s.memUE = [] →
    ∀ d, (s.chan k c).desc = some d →
    let off := d.off + 64
    let bs := s.rdBytes (slabAddr k off) 64
    let e := SlDesc.ofBytes bs off
    (d.ends = true ∨ d.op = 7 → Gives (.sluiceDescFetch k c) s (fun t => t = s)) ∧
    (d.ends = false → d.op ≠ 7 → off % 64 = 0 → off < 0x600000 → Gives (.sluiceDescFetch k c) s (fun t =>
      (t.chan k c).ahead = [⟨e, e.wordStatus bs (s.chanSched k c)⟩] ∧ (t.chan k c).desc = some d ∧
      (t.chan k c).todo = (s.chan k c).todo ∧ OnlyTile s t k []))) ∧
  (∀ (s : State) (k : TileId) (c : ChanId), ∀ d, (s.chan k c).desc = some d →
    (ChanAt s k c d 0 → MovesOne (.sluiceCopy k c) s k c d) ∧ (ChanAt s k c d 1 → MovesOne (.gather k c) s k c d) ∧
    (ChanAt s k c d 2 → MovesOne (.scatter k c) s k c d) ∧ (ChanAt s k c d 3 → MovesOne (.sluiceInline k c) s k c d) ∧
    (ChanAt s k c d 0 → s.fld (.SL_STATUS k.val c.val) F.SL_STATUS_MODE = 1 →
      MovesOne (.sluiceFlitIssue k c) s k c d) ∧
    (ChanAt s k c d 4 → s.memUE = [] → s.home.resv = [] → (s.chan k c).flight = [] → d.dsp = 0 → d.a[2] = 1 → d.a[1].toNat % 64 = 0 →
      d.a[1].toNat < 0x600000 → (s.chan k c).todo.length = 3 → s.slAll k c d = true →
      ∀ x, (s.chan k c).todo[0]? = some x → ∀ y, (s.chan k c).todo[1]? = some y → ∀ z, (s.chan k c).todo[2]? = some z →
      x.role = .first → y.role = .second → z.role = .sum → x.id ≠ y.id → z.id ≠ x.id → z.id ≠ y.id →
      x.bytes = 32 → y.bytes = 32 → z.bytes = 32 →
      x.srcCount = none → y.srcCount = none → z.srcCount = none → z.dstCount = none →
      x.dst = none → y.dst = none → z.src = none → ∀ zd, z.dst = some zd → OwnPlace s k z.ctx (some zd) d.a[1].toNat 32 →
      ∀ xs, x.src = some xs → ∀ ys, y.src = some ys →
      OwnPlace s k x.ctx (some xs) (localOf xs.addr - slabAddr k 0) 32 → OwnPlace s k y.ctx (some ys) (localOf ys.addr - slabAddr k 0) 32 →
      let wide (a : Target) : Wide := Wide.ofBits (BitVec.ofNat 256 (s.rdNat (localOf a.addr) 32))
      ((wide xs).anchor = (wide ys).anchor → Gives (.wreduce k ⟨c, none⟩) s (fun t => ChanGoesOn s t k c d (d.off + 64) ∧
        WritesAt s t (slabAddr k d.a[1].toNat) (leBytes 32 ((wide xs).combine (wide ys)).toBits.toNat))) ∧
      ((wide xs).anchor ≠ (wide ys).anchor → Gives (.wreduce k ⟨c, none⟩) s (fun t => ChanStops s t k c d.off 0x0C ∧
        Sends s t [⟨4, [d.ctx], some k.val⟩])) ∧
      (∀ e : BitVec 192, (wide xs).anchor = (wide ys).anchor →
        let w : Wide := { (wide xs).combine (wide ys) with int := ((wide xs).combine (wide ys)).int ^^^ e }
        (w.flags &&& WFlags.OVERFLOW = 0 → residueOf w.int ≠ (residueOf (wide xs).int + residueOf (wide ys).int) % 127 →
          Gives (.wreduce k ⟨c, some (0, e)⟩) s (fun t => ChanStops s t k c d.off 0x0D ∧
            Sends s t [⟨4, [d.ctx], some k.val⟩, ⟨5, [d.ctx], some k.val⟩])) ∧
        (residueOf w.int = (residueOf (wide xs).int + residueOf (wide ys).int) % 127 →
          Gives (.wreduce k ⟨c, some (0, e)⟩) s (fun t => ChanGoesOn s t k c d (d.off + 64) ∧
            WritesAt s t (slabAddr k d.a[1].toNat) (leBytes 32 w.toBits.toNat))))) ∧
    (let done : Prop := (d.a[0] = 0 ∧ d.a[2].toNat ≤ (s.rd (.SQ_SIG k.val (d.a[1].toNat % 64))).toNat) ∨
        (d.a[0] ≠ 0 ∧ ((d.a[1].toNat < (s.rd .TB_TURN).toNat) ∨ (s.rd .TB_TURN = d.a[1] ∧ d.a[2].toNat ≤ s.cycle)))
     (ChanAt s k c d 5 →
       (done → Gives (.sluiceWait k c) s (fun t => ChanGoesOn s t k c d (d.off + 64) ∧ KeepsBytes s t)) ∧
       (¬ done → Gives (.sluiceWait k c) s (fun t => t.fld (.SL_STATUS k.val c.val) F.SL_STATUS_STATE = 2 ∧
         OnlyRegs s t [.SL_STATUS k.val c.val]))) ∧
     (Runs s → s.fld (.SL_STATUS k.val c.val) F.SL_STATUS_STATE = 2 → (s.chan k c).ending = none → d.op = 5 →
       (s.chanSched k c = true → s.appended = false) →
       (done → Gives (.sluiceWaitSatisfied k c) s (fun t => ChanGoesOn s t k c d (d.off + 64) ∧ KeepsBytes s t)) ∧
       (¬ done → Gives (.sluiceWaitSatisfied k c) s (fun t => t = s)))) ∧
    (ChanAt s k c d 6 → (s.chan k c).flight = [] → bitsOf d.a[1] 13 8 < 48 → bitsOf d.a[1] 24 16 = s.chipId →
      (s.fld (.SL_STATUS k.val c.val) F.SL_STATUS_MODE = 1 → Gives (.sluiceSignal k c) s (fun t =>
        ChanGoesOn s t k c d (d.off + 64) ∧ t.out.dropLast = s.out ∧ t.out.getLast? = some (.schedFlit
          ⟨.tile ⟨bitsOf d.a[1] 13 8 % 48, Nat.mod_lt _ (by decide)⟩, d.ctx, 0, [],
            some (bitsOf d.a[1] 13 8, bitsOf d.a[1] 5 0, d.a[2]), true, false⟩))) ∧
      (s.fld (.SL_STATUS k.val c.val) F.SL_STATUS_MODE = 0 → Gives (.sluiceSignal k c) s (fun t =>
        ChanGoesOn s t k c d (d.off + 64) ∧ SendsCoh s t (fun m => m.opc = 0x0A ∧ m.opA = d.a[2] ∧
          m.opB.toNat = bitsOf d.a[1] 5 0 ∧ m.dstAgent.toNat = bitsOf d.a[1] 13 8 ∧ m.ctx = d.ctx)))) ∧
    (ChanAt s k c d 7 →
      let lc := (s.chan k c).lc
      (d.a[2] = 0 → Gives (.jump k c) s (fun t => ChanGoesOn s t k c d d.a[1].toNat ∧ (t.chan k c).lc = lc)) ∧
      (d.a[2] ≠ 0 → lc = 0 → Gives (.jump k c) s (fun t => ChanGoesOn s t k c d d.a[1].toNat ∧
        (t.chan k c).lc = d.a[2].toNat)) ∧
      (d.a[2] ≠ 0 → lc = 1 → Gives (.jump k c) s (fun t => ChanGoesOn s t k c d (d.off + 64) ∧ (t.chan k c).lc = 0)) ∧
      (d.a[2] ≠ 0 → 2 ≤ lc → Gives (.jump k c) s (fun t => ChanGoesOn s t k c d d.a[1].toNat ∧ (t.chan k c).lc = lc - 1)))) ∧
  (∀ (s : State) (k : TileId) (c : ChanId) (bs : List Byte), Runs s → s.memUE = [] → s.home.resv = [] →
    (s.chanSched k c = true → s.appended = false) →
    ((s.chan k c).flight = [] → Gives (.sluiceLineArrive k c bs false) s (fun t => t = s)) ∧
    (∀ m, (s.chan k c).flight.head? = some m → (s.chan k c).flight.length = 1 → m.sent = false → m.role = .copy → m.dstCount = none →
      ∀ src, m.src = some src → src.cls = .host0 → m.bytes ≤ bs.length → ∀ dst, m.dst = some dst →
      OwnPlace s k m.ctx (some dst) (localOf dst.addr - slabAddr k 0) m.bytes →
      Gives (.sluiceLineArrive k c bs false) s (fun t => (t.chan k c).flight = [] ∧
        WritesAt s t (localOf dst.addr) (bs.take m.bytes) ∧ KeepsRegs s t []) ∧
      ((s.chan k c).ending = none → Gives (.sluiceLineArrive k c bs true) s (fun t =>
        ChanStops s t k c m.desc 9 ∧ (t.chan k c).flight = [])))) ∧
  (∀ (s : State) (k : TileId) (c : ChanId), Runs s →
    let st := s.fld (.SL_STATUS k.val c.val) F.SL_STATUS_STATE
    (st = 0 → Gives (.abort k c) s (fun t => t = s)) ∧
    (st ≠ 0 → (s.chan k c).ending = none → Gives (.abort k c) s (fun t => ChanStops s t k c
      (((s.chan k c).desc.map (fun d => d.off)).getD (s.chan k c).next) 1)) ∧
    (∀ status, (s.chan k c).ending = some status → st ≠ 0 → (s.chan k c).flight = [] → (s.tile k).wait = none →
      Gives (.channelIdle k c) s (fun t => t.fld (.SL_STATUS k.val c.val) F.SL_STATUS_STATE = 0 ∧
        t.fld (.SL_STATUS k.val c.val) F.SL_STATUS_STATUS = status % 32 ∧ (t.chan k c).ending = none ∧ (t.chan k c).desc = none ∧
        OnlyTile s t k [.SL_STATUS k.val c.val])) ∧
    ((s.chan k c).ending = none → (s.chan k c).flight = [] → Gives (.channelIdle k c) s (fun t => t = s))) ∧
  (∀ (s : State) (m : CohMsg), Runs s →
    let mine : Prop := m.opc = 0x0A ∧ m.dstAgent.toNat < 48 ∧ m.dstChip.toNat = s.chipId
    (¬ mine → Gives (.sigAdd m) s (fun t => t = s)) ∧
    (mine → (∀ n : TileId, n.val = m.dstAgent.toNat → (s.tile n).wait = none) → Gives (.sigAdd m) s (fun t =>
      t.rd (.SQ_SIG m.dstAgent.toNat (m.opB.toNat % 64)) = s.rd (.SQ_SIG m.dstAgent.toNat (m.opB.toNat % 64)) + m.opA ∧
      OnlyRegs s t [.SQ_SIG m.dstAgent.toNat (m.opB.toNat % 64)])))

/-- Nothing but links of a list, registers of a list, events on their way to the watermaster and counters has changed. -/
def Sys2Proof.Claims.OnlyLinks (s t : State) (ls : List LinkId) (rs : List Reg) : Prop :=
  KeepsRegs s t rs ∧ (∀ k, k ∉ ls → t.link k = s.link k) ∧
    { t with regs := s.regs, links := s.links, wmEvents := s.wmEvents, obs := s.obs } = s ∧
    { t.obs with counts := s.obs.counts } = s.obs

/-- What leaves with a slot. -/
def Sys2Proof.Claims.containerOf : Output → Option Container
  | .parcel _ _ (.container c) _ => some c
  | _ => none

def Sys2Proof.Claims.pingOf : Output → Option PingMsg
  | .parcel _ _ (.ping m) _ => some m
  | _ => none

/-- No channel has a descriptor or a piece on its way, no tile or link a request under way, and no sequencer waits. -/
def Sys2Proof.Claims.NothingWaits (s : State) : Prop :=
  (∀ k : TileId, (s.tile k).reqs = [] ∧ (s.tile k).wait = none) ∧ (∀ l : LinkId, (s.link l).carried = []) ∧
    (∀ (k : TileId) (c : ChanId), (s.chan k c).desc = none ∧ (s.chan k c).flight = [])

/-- An outbound slot of an UP link that is due. -/
def Sys2Proof.Claims.SlotDue (s : State) (l : LinkId) (n : Nat) : Prop :=
  Runs s ∧ s.fld (.CN_STATUS l.val) F.CN_STATUS_LSTATE = 2 ∧ s.cycle ≤ 5 * n ∧
    (n < 360 ∨ (1800 ≤ s.cycle ∧ n < 360 + 9 * s.fld .ROT_STATUS F.ROT_STATUS_STRETCH))

/-- The slot carries a parcel, and the cycle count stands at its first cycle. -/
def Sys2Proof.Claims.Carries (s t : State) (l : LinkId) (n : Nat) (p : Parcel) : Prop :=
  t.out = s.out ++ [.parcel l n p p.bytes] ∧ t.cycle = 5 * n ∧ KeepsRegs s t [.TB_RAW, .TB_CYCLE] ∧ KeepsBytes s t

/-- A link has failed: its state, its queues and its latency; the S parcels that it held are an S-parcel error unless the change is
quiet. -/
def Sys2Proof.Claims.LinkFailed (s t : State) (l : LinkId) (lstate : Nat) (quiet : Bool) (es : List WmEvent) : Prop :=
  let x := s.link l
  let lost := !quiet && (!x.sendQ.isEmpty || !x.relayQ.isEmpty)
  t.fld (.CN_STATUS l.val) F.CN_STATUS_LSTATE = lstate ∧ t.fld (.LK_PING l.val) F.LK_PING_LAT_VALID = 0 ∧
    (s.rotRunning = true → t.fld (.CN_STATUS l.val) F.CN_STATUS_S_BLOCKED = 1) ∧
    (lost = true → t.fld (.CN_STATUS l.val) F.CN_STATUS_S_ERR = 1) ∧
    (t.link l).sendQ = [] ∧ (t.link l).relayQ = [] ∧ (t.link l).cOut = [] ∧ (t.link l).retry = [] ∧ (t.link l).sigOut = [] ∧
    Sends s t ((if lost then [⟨99, [], none⟩] else []) ++ es) ∧ KeepsRegs s t [.CN_CTRL l.val, .CN_STATUS l.val, .LK_PING l.val, .TB_LATSIG] ∧
    (∀ k, k ≠ l → t.link k = s.link k) ∧ KeepsBytes s t ∧ t.out = s.out

/-- What each outbound slot of a canal link carries. In the safe state every slot carries HALT. Slot 0 carries STRETCH where
the epoch and the latency are valid, slot 1 the due message of a ping, slot 2 of a twin link DIGEST. A C slot carries a
container with the acknowledgements and credits owed, and the messages that have credits. A local or relay slot carries the
waiting parcel of its stream, and none after HALT or on a blocked link; a slot whose map entry has an error is IDLE. A parcel
leaves as its 272 bytes. CN_MAPDATA writes the map at INDEX while no rotation is armed. -/
def Obligations.SlotsOfCanalLinks : Prop :=
  (∀ (s : State) (l : LinkId) (n : Nat), SlotDue s l n →
    let x := s.link l
    let twin : Prop := 34 ≤ l.val ∧ s.fld .TB_CHIP F.TB_CHIP_TWIN = 1
    let noS : Prop := x.halted = true ∨ s.fld (.CN_STATUS l.val) F.CN_STATUS_S_BLOCKED = 1
    let j := bitsOf ((Assoc.get? x.sched x.entry).getD 0) 31 28 * 512 + n
    let e := (Assoc.get? x.slotMap j).getD 0
    (s.safe = true → Gives (.slot l n) s (fun t => Carries s t l n (.halt (BitVec.ofNat 9 s.chipId)
      (s.fld .TB_CHIP F.TB_CHIP_SIDE == 1) (BitVec.ofNat 8 (s.fld .WM_STATE F.WM_STATE_FATAL_SRC))) ∧ t.links = s.links)) ∧
    (s.safe = false → n = 0 →
      (s.epochValid = true ∧ s.fld (.LK_PING l.val) F.LK_PING_LAT_VALID = 1 → Gives (.slot l n) s (fun t => Carries s t l n
        (.stretch ⟨s.timestamp, BitVec.ofNat 6 s.rot.m[0],
          Vector.ofFn (fun i : Fin 8 => BitVec.ofNat 6 (s.rot.m.toList.getD (i.val + 1) 0))⟩) ∧ t.links = s.links)) ∧
      (¬ (s.epochValid = true ∧ s.fld (.LK_PING l.val) F.LK_PING_LAT_VALID = 1) → Gives (.slot l n) s (fun t =>
        Carries s t l n .idle ∧ t.links = s.links))) ∧
    (s.safe = false → n = 1 →
      (x.ping.due = none → Gives (.slot l n) s (fun t => Carries s t l n .idle ∧ t.links = s.links)) ∧
      (∀ k, x.ping.due = some k → k < 4 → Gives (.slot l n) s (fun t =>
        t.out.dropLast = s.out ∧ (∃ m, t.out.getLast?.bind pingOf = some m ∧ (m.num = k ∧ m.offset = s.rd .TB_OFFSET ∧
          m.chip = BitVec.ofNat 9 s.chipId ∧ (m.epochValid = true ↔ s.epochValid = true))) ∧ (t.link l).ping.due = none ∧
        OnlyRegs s { t with links := s.links, out := s.out, obs := s.obs } [.TB_RAW, .TB_CYCLE]))) ∧
    (s.safe = false → 2 ≤ n → twin →
      (n = 2 → s.twinActive = true → ∀ d, s.twin.own = some d → Gives (.slot l n) s (fun t => Carries s t l n (.digest d) ∧
        t.links = s.links)) ∧
      (n ≠ 2 → Gives (.slot l n) s (fun t => Carries s t l n .idle ∧ t.links = s.links))) ∧
    (s.safe = false → 2 ≤ n → ¬ twin → (360 ≤ n ∨ s.rotRunning = false ∨ (e = 0 ∧ j ∉ x.mapUE)) → x.replaying = 0 → x.retry.length < 64 →
      (x.cOut = [] → x.sigOut = [] → Gives (.slot l n) s (fun t => t.out.dropLast = s.out ∧
        (∃ c, t.out.getLast?.bind containerOf = some c ∧ (c.flits = [] ∧ c.seq = 0 ∧ c.ack = BitVec.ofNat 12 x.lastRx ∧
          (c.nak = true ↔ x.nak = true) ∧ c.crReq.toNat = min 255 x.oweReq ∧ c.crSnp.toNat = min 255 x.oweSnp ∧
          c.crRsp.toNat = min 255 x.oweRsp)) ∧
        (t.link l).oweReq = x.oweReq - min 255 x.oweReq ∧ (t.link l).retry = x.retry ∧ (t.link l).seq = x.seq ∧
        KeepsRegs s t [.TB_RAW, .TB_CYCLE] ∧ KeepsBytes s t)) ∧
      (∀ m, x.cOut.head? = some m → x.cOut.length = 1 → x.sigOut = [] → x.credit m = true →
        (x.halted = false ∨ m.cls = 2) → Gives (.slot l n) s (fun t => t.out.dropLast = s.out ∧
          (∃ c, t.out.getLast?.bind containerOf = some c ∧ (c.flits = [m] ∧ c.seq = BitVec.ofNat 12 x.seq ∧
            c.ack = BitVec.ofNat 12 x.lastRx ∧ (t.link l).retry = x.retry ++ [c])) ∧
          (t.link l).cOut = [] ∧ (t.link l).seq = (x.seq + 1) % 4096 ∧ KeepsRegs s t [.TB_RAW, .TB_CYCLE] ∧ KeepsBytes s t))) ∧
    (s.safe = false → 2 ≤ n → n < 360 → ¬ twin → s.rotRunning = true → j ∈ x.mapUE → Gives (.slot l n) s (fun t =>
      t.out = s.out ++ [.parcel l n .idle Parcel.idle.bytes] ∧ t.cycle = 5 * n ∧ t.fld (.CN_STATUS l.val) F.CN_STATUS_S_ERR = 1 ∧
      Sends s t [⟨99, [], none⟩] ∧ KeepsRegs s t [.TB_RAW, .TB_CYCLE, .CN_STATUS l.val] ∧ KeepsBytes s t ∧ t.links = s.links)) ∧
    (s.safe = false → 2 ≤ n → n < 360 → ¬ twin → s.rotRunning = true → j ∉ x.mapUE → bitsOf e 13 8 = 0 →
      (bitsOf e 15 14 = 1 → noS → Gives (.slot l n) s (fun t => Carries s t l n .idle ∧ t.links = s.links)) ∧
      (bitsOf e 15 14 = 1 → ¬ noS → ∀ f, x.sendQ.head? = some f → x.sendQ.length = 1 → f.stream.toNat = bitsOf e 7 0 →
        Gives (.slot l n) s (fun t => Carries s t l n (DataOrSignal.parcel f.parcel) ∧ (t.link l).sendQ = [])) ∧
      (bitsOf e 15 14 = 2 → ¬ noS → ∀ p, x.relayQ.head? = some p → (DataOrSignal.stream p.parcel).toNat = bitsOf e 7 0 →
        let begins := 1800 * (s.rd .TB_TURN).toNat + 5 * n
        (p.point + 2 ≤ begins → Gives (.slot l n) s (fun t => Carries s t l n (DataOrSignal.parcel p.parcel) ∧
          (t.link l).relayQ = x.relayQ.tail)) ∧
        (begins < p.point + 2 → x.relayQ.length = 1 → Gives (.slot l n) s (fun t => Carries s t l n .idle ∧ t.links = s.links))))) ∧
  (∀ (s : State) (l : LinkId) (n : Nat), Runs s → s.fld (.CN_STATUS l.val) F.CN_STATUS_LSTATE ≠ 2 →
    Gives (.slot l n) s (fun t => t = s)) ∧
  (∀ (s : State) (l : LinkId) (v : Word32), Runs s →
    let i := s.fld (.CN_MAPADDR l.val) F.CN_MAPADDR_INDEX
    let sel := s.fld (.CN_MAPADDR l.val) F.CN_MAPADDR_SEL
    (s.rotState ≠ 0 → Gives (.cnMapdataWrite l v) s (fun t => t.fld (.CN_STATUS l.val) F.CN_STATUS_MAP_WERR = 1 ∧
      OnlyRegs s t [.CN_STATUS l.val])) ∧
    (s.rotState = 0 → Gives (.cnMapdataWrite l v) s (fun t =>
      (∀ j, (Assoc.get? (t.link l).slotMap j).getD 0 =
        if sel = 0 ∧ i % 512 < 360 ∧ j = i then v.setWidth 16 else (Assoc.get? (s.link l).slotMap j).getD 0) ∧
      (∀ j, (Assoc.get? (t.link l).sched j).getD 0 =
        if sel = 1 ∧ j = i % 256 then v else (Assoc.get? (s.link l).sched j).getD 0) ∧
      (s.fld (.CN_MAPADDR l.val) F.CN_MAPADDR_AUTOINC = 0 → t.fld (.CN_MAPADDR l.val) F.CN_MAPADDR_INDEX = i) ∧
      (s.fld (.CN_MAPADDR l.val) F.CN_MAPADDR_AUTOINC = 1 → sel = 0 → i % 512 < 359 → t.fld (.CN_MAPADDR l.val) F.CN_MAPADDR_INDEX = i + 1) ∧
      OnlyLinks s t [l] [.CN_MAPADDR l.val])))

/-- Canal links that train, fail, retrain and hear of a halt, and requests toward other chips. CN_CTRL.ENABLE takes a
DISABLED link to training, and a link that is disabled loses what it held. LINK_UP takes a training or DOWN link UP and
starts its numbers and credits again. LINK_DOWN and RETRAIN take it DOWN with DOWN_SEEN; only LINK_DOWN raises the link-down
source. STRETCH raises the stretch values, and says when they or the latency disagree. HALT records the first chip. A request
for another chip waits at the lowest link that reaches it; where there is none, it is refused. -/
def Obligations.CanalLinkStates : Prop :=
  (∀ (s : State) (l : LinkId), Runs s → NothingWaits s → (s.link l).ping.busy = false →
    let st := s.fld (.CN_STATUS l.val) F.CN_STATUS_LSTATE
    (st = 2 → Gives (.linkDown l) s (fun t => LinkFailed s t l 3 false [⟨98, [], none⟩] ∧
        t.fld (.CN_STATUS l.val) F.CN_STATUS_DOWN_SEEN = 1 ∧ t.rd (.CN_CTRL l.val) = s.rd (.CN_CTRL l.val)) ∧
      Gives (.retrain l) s (fun t => LinkFailed s t l 3 false [] ∧ t.fld (.CN_STATUS l.val) F.CN_STATUS_DOWN_SEEN = 1 ∧
        t.rd (.CN_CTRL l.val) = s.rd (.CN_CTRL l.val))) ∧
    (st ≠ 2 → Gives (.linkDown l) s (fun t => t = s) ∧ Gives (.retrain l) s (fun t => t = s)) ∧
    Gives (.cnEnable l true) s (fun t => t.fld (.CN_CTRL l.val) F.CN_CTRL_ENABLE = 1 ∧
      t.fld (.CN_STATUS l.val) F.CN_STATUS_LSTATE = (if st = 0 then 1 else st) ∧ OnlyRegs s t [.CN_CTRL l.val, .CN_STATUS l.val]) ∧
    Gives (.cnEnable l false) s (fun t => t.fld (.CN_CTRL l.val) F.CN_CTRL_ENABLE = 0 ∧
      (st = 0 → OnlyRegs s t [.CN_CTRL l.val]) ∧ (st ≠ 0 → LinkFailed s t l 0 true [])) ∧
    (s.fld (.CN_CTRL l.val) F.CN_CTRL_ENABLE = 1 → (st = 1 ∨ st = 3) → Gives (.linkUp l) s (fun t =>
      let y := t.link l
      t.fld (.CN_STATUS l.val) F.CN_STATUS_LSTATE = 2 ∧ y.seq = 1 ∧ y.lastRx = 0 ∧ y.retry = [] ∧ y.nak = false ∧ y.errored = 0 ∧
        y.credReq = 64 ∧ y.credSnp = 64 ∧ y.credRsp = 64 ∧ y.oweReq = 0 ∧ y.oweSnp = 0 ∧ y.oweRsp = 0 ∧
        OnlyLinks s t [l] [.CN_STATUS l.val])) ∧
    (¬ (s.fld (.CN_CTRL l.val) F.CN_CTRL_ENABLE = 1 ∧ (st = 1 ∨ st = 3)) → Gives (.linkUp l) s (fun t => t = s))) ∧
  (∀ (s : State) (l : LinkId) (p : StretchParcel), Runs s → s.fld (.CN_STATUS l.val) F.CN_STATUS_LSTATE = 2 →
    let differ : Prop := p.n.toNat ≠ s.rot.m[0]
    let late : Prop := s.fld (.LK_PING l.val) F.LK_PING_LAT_VALID = 1 ∧
      (s.timestamp - p.tsend).toNat ≠ s.fld (.LK_LAT l.val) F.LK_LAT_IN
    (s.epochValid = false → Gives (.stretch l p) s (fun t => (t.link l).errored = 0 ∧ OnlyLinks s t [l] [] ∧ t.wmEvents = s.wmEvents)) ∧
    (s.epochValid = true → Gives (.stretch l p) s (fun t =>
      t.rot.m[0] = s.rot.m[0] ∧ (∀ i : Fin 8, t.rot.m[i.val + 1]'(by omega) = max (s.rot.m[i.val + 1]'(by omega)) p.m[i].toNat) ∧
      { t.rot with m := s.rot.m } = s.rot ∧ (differ → t.fld .ROT_STATUS F.ROT_STATUS_DISAGREE = 1) ∧
      (late → t.fld (.CN_STATUS l.val) F.CN_STATUS_LAT_CHG = 1) ∧
      Sends s t ((if differ then [⟨130, [], none⟩] else []) ++ (if late then [⟨101, [], none⟩] else [])) ∧
      OnlyLinks s { t with rot := s.rot } [l] [.ROT_STATUS, .CN_STATUS l.val]))) ∧
  (∀ (s : State) (l : LinkId) (chip : BitVec 9) (side : Bool) (source : Byte), Runs s → NothingWaits s →
    (s.linkUp l = false → Gives (.haltParcel l chip side source) s (fun t => t = s)) ∧
    (s.linkUp l = true → Gives (.haltParcel l chip side source) s (fun t =>
      t.fld (.CN_STATUS l.val) F.CN_STATUS_HALT_RX = 1 ∧
      t.fld (.CN_STATUS l.val) F.CN_STATUS_HALT_CHIP = (if s.fld (.CN_STATUS l.val) F.CN_STATUS_HALT_RX = 1
        then s.fld (.CN_STATUS l.val) F.CN_STATUS_HALT_CHIP else chip.toNat) ∧
      (t.link l).halted = true ∧ { t.link l with halted := (s.link l).halted, errored := (s.link l).errored } = s.link l ∧
      Sends s t [⟨102, [], none⟩] ∧ OnlyLinks s t [l] [.CN_STATUS l.val]))) ∧
  (∀ (s : State) (m : CohMsg), Runs s →
    let chip := m.dstChip.toNat
    let reaches (k : LinkId) : Prop := s.linkUp k = true ∧ ¬ (34 ≤ k.val ∧ s.fld .TB_CHIP F.TB_CHIP_TWIN = 1) ∧ (s.rd (.CN_REACH k.val (chip / 32))).getLsbD (chip % 32) = true
    (chip = s.chipId → Gives (.remoteRequest m) s (fun t => t = s)) ∧
    (chip ≠ s.chipId → ∀ l : LinkId, reaches l → (∀ k : LinkId, k.val < l.val → ¬ reaches k) →
      Gives (.remoteRequest m) s (fun t => (t.link l).cOut = (s.link l).cOut ++ [m] ∧ OnlyLinks s t [l] [] ∧
        (t.link l).carried = (s.link l).carried ++ (if m.cls = 0 then [m] else []) ∧
        { t.link l with cOut := (s.link l).cOut, carried := (s.link l).carried } = s.link l)) ∧
    (chip ≠ s.chipId → (∀ k : LinkId, ¬ reaches k) →
      (m.cls ≠ 0 → Gives (.remoteRequest m) s (fun t => t = s)) ∧
      (m.cls = 0 → ¬ (m.srcChip.toNat = s.chipId ∧ m.srcAgent.toNat < 48) → Gives (.remoteRequest m) s (fun t =>
        SendsCoh s t (fun a => a.opc = 0x4A ∧ a.status = 4 ∧ a.txn = m.txn ∧ a.dstAgent = m.srcAgent ∧ a.dstChip = m.srcChip) ∧
        OnlyLinks s { t with out := s.out } [] [])) ∧
      (m.cls = 0 → m.srcChip.toNat = s.chipId → m.srcAgent.toNat < 48 →
        (s.tile (tileOf m.srcAgent)).findReq m.txn = none → Gives (.remoteRequest m) s (fun t => t = s))))

/-- Parcels and containers that a canal link receives. A DATA or SIGNAL parcel joins the arrivals with its point of R262; in
a slot that does not allow it, it is errored. At its point the oldest arrival writes its bytes or adds to its signal, or is
an S-parcel error; one for another chip joins the relay queue of the link that CN_STREAM names, or the status bit of its loss
and S_ERR are set. An errored parcel is discarded and asks for a replay; the eighth in a row takes the link DOWN. A container
acknowledges, returns credits and delivers its messages in order; out of order it asks for a replay. A replay repeats what is
not acknowledged; a ninth without an advance takes the link DOWN instead. -/
def Obligations.CanalParcelsReceived : Prop :=
  (∀ (s : State) (l : LinkId), Runs s → s.fld (.CN_STATUS l.val) F.CN_STATUS_LSTATE = 2 →
    let cnt := 0x1D2800 + 0x20 * l.val + 8
    let twin : Prop := 34 ≤ l.val ∧ s.fld .TB_CHIP F.TB_CHIP_TWIN = 1
    let arrives (cmd : Instr) (n bytes : Nat) (p : DataParcel ⊕ SignalParcel) : Prop :=
      let lat := s.fld (.LK_LAT l.val) F.LK_LAT_IN
      let turn := if 5 * n + lat < 1800 ∨ 5 * n < s.cycle then (s.rd .TB_TURN).toNat else (s.rd .TB_TURN).toNat - 1
      let slotOk : Prop := 2 ≤ n ∧ n < 360 ∧ s.rotRunning = true ∧ ¬ twin
      (slotOk → Gives cmd s (fun t =>
        (t.link l).arrivals = (s.link l).arrivals ++ [⟨1800 * turn + 5 * n + lat, p⟩] ∧ (t.link l).errored = 0 ∧
        ((s.counter cnt).toNat + bytes < 2 ^ 48 → t.counter cnt = s.counter cnt + BitVec.ofNat 64 bytes) ∧ OnlyLinks s t [l] [] ∧
        t.wmEvents = s.wmEvents)) ∧
      (¬ slotOk → Sys2Proof.Machine.exec cmd s = Sys2Proof.Machine.exec (.erroredParcel l ⟨n, [], false⟩) s)
    (∀ (n : Nat) (p : DataParcel), arrives (.dataParcel l ⟨n, p⟩) n p.data.length (.inl p)) ∧
    (∀ (n : Nat) (p : SignalParcel), arrives (.signalParcel l ⟨n, p⟩) n 8 (.inr p))) ∧
  (∀ (s : State) (l : LinkId), Runs s →
    ((s.link l).arrivals = [] → Gives (.sParcelDeliver l) s (fun t => t = s)) ∧
    (∀ x, (s.link l).arrivals.head? = some x →
      let start := 1800 * (s.rd .TB_TURN).toNat
      let clock : List Reg := [.TB_RAW, .TB_CYCLE]
      let rest := (s.link l).arrivals.tail
      let relays (dest stream : Nat) : Prop :=
        let v := bitsOf (s.rd (.CN_STREAM l.val (stream / 4))) (8 * (stream % 4) + 7) (8 * (stream % 4))
        let names : Prop := v < 36 ∧ ¬ (34 ≤ v ∧ s.fld .TB_CHIP F.TB_CHIP_TWIN = 1)
        (dest ≠ s.chipId → ¬ names → Gives (.sParcelDeliver l) s (fun t => t.fld (.CN_STATUS l.val) F.CN_STATUS_MISROUTE = 1 ∧
          t.fld (.CN_STATUS l.val) F.CN_STATUS_S_ERR = 1 ∧ (t.link l).arrivals = rest ∧ Sends s t [⟨99, [], none⟩] ∧
          OnlyLinks s t [l] (.CN_STATUS l.val :: clock))) ∧
        (dest ≠ s.chipId → names → ∀ o : LinkId, o.val = v →
          ((s.link o).relayQ.length < 16 → Gives (.sParcelDeliver l) s (fun t =>
            (t.link o).relayQ = (s.link o).relayQ ++ [⟨x.point + relayDelay l o, x.parcel⟩] ∧ (t.link l).arrivals = rest ∧
            OnlyLinks s t [l, o] clock ∧ t.wmEvents = s.wmEvents)) ∧
          (16 ≤ (s.link o).relayQ.length → Gives (.sParcelDeliver l) s (fun t => t.fld (.CN_STATUS o.val) F.CN_STATUS_RELAY_OVF = 1 ∧
            t.fld (.CN_STATUS o.val) F.CN_STATUS_S_ERR = 1 ∧ (t.link o).relayQ = (s.link o).relayQ ∧ (t.link l).arrivals = rest ∧
            Sends s t [⟨99, [], none⟩] ∧ OnlyLinks s t [l] (.CN_STATUS o.val :: clock))))
      (s.appended = true ∨ start + 1800 ≤ x.point → Gives (.sParcelDeliver l) s (fun t => t = s)) ∧
      (s.appended = false → x.point < start + 1800 →
        (∀ d : DataParcel, x.parcel = .inl d → relays d.destChip.toNat d.stream.toNat ∧
          (d.destChip.toNat = s.chipId →
            let n := if d.part then d.plenM1.toNat + 1 else 256
            let a := d.laddr.toNat * 256 + (if d.part then 32 * d.win.toNat else 0)
            (∀ k : TileId, ∀ off, off < 0x600000 → d.laddr.toNat * 256 = slabAddr k off → s.schedMode k = true →
              s.slabOwned k d.ctx off = true → s.memUE = [] → s.home.resv = [] → n ≤ d.data.length →
              Gives (.sParcelDeliver l) s (fun t => WritesAt s t a (d.data.take n) ∧ (t.link l).arrivals = rest ∧
                OnlyLinks s { t with mem := s.mem } [l] clock ∧ t.wmEvents = s.wmEvents)) ∧
            (placeOf (d.laddr.toNat * 256) = .tier1 → s.parcelOk d = true → n ≤ d.data.length → Gives (.sParcelDeliver l) s (fun t =>
              t.out = s.out ++ [.schedHbm (stackId (d.laddr.toNat * 256)) ⟨true, d.ctx, a, d.data.take n, 0, 0, t.cycle, .link l⟩] ∧
              (t.link l).arrivals = rest ∧ KeepsRegs s t clock ∧ KeepsBytes s t)) ∧
            (s.backed (d.laddr.toNat * 256) = false → Gives (.sParcelDeliver l) s (fun t =>
              (t.link l).arrivals = rest ∧ t.fld (.CN_STATUS l.val) F.CN_STATUS_S_ERR = 1 ∧
              Sends s t [⟨99, [], none⟩] ∧ OnlyLinks s t [l] (.CN_STATUS l.val :: clock))))) ∧
        (∀ g : SignalParcel, x.parcel = .inr g → relays g.destChip.toNat g.stream.toNat ∧
          (g.destChip.toNat = s.chipId →
            (48 ≤ g.tile.toNat → Gives (.sParcelDeliver l) s (fun t => t.fld (.CN_STATUS l.val) F.CN_STATUS_S_ERR = 1 ∧
              (t.link l).arrivals = rest ∧ Sends s t [⟨99, [], none⟩] ∧ OnlyLinks s t [l] (.CN_STATUS l.val :: clock))) ∧
            (g.tile.toNat < 48 → NothingWaits s → Gives (.sParcelDeliver l) s (fun t =>
              t.rd (.SQ_SIG g.tile.toNat g.sig.toNat) = s.rd (.SQ_SIG g.tile.toNat g.sig.toNat) + g.add ∧
              (t.link l).arrivals = rest ∧ OnlyLinks s t [l] (.SQ_SIG g.tile.toNat g.sig.toNat :: clock)))))))) ∧
  (∀ (s : State) (l : LinkId) (f : LinkFlit) (late : Bool), Runs s → (∀ c, (s.chan f.tile c).flight = []) →
    let full : Prop := late = true ∨ 16 ≤ (s.link l).sendQ.length ∨ s.linkUp l = false
    (s.appended = true → Gives (.localFlitArrive l f late) s (fun t => t = s)) ∧
    (s.appended = false → full → Gives (.localFlitArrive l f late) s (fun t => t.fld (.CN_STATUS l.val) F.CN_STATUS_S_ERR = 1 ∧
      Sends s t [⟨99, [], none⟩] ∧ OnlyLinks s t [] [.CN_STATUS l.val])) ∧
    (s.appended = false → ¬ full → Gives (.localFlitArrive l f late) s (fun t =>
      (t.link l).sendQ = (s.link l).sendQ ++ [⟨f.arrival, f.tile, f.piece, f.stream, f.parcel⟩] ∧ OnlyLinks s t [l] []))) ∧
  (∀ (s : State) (l : LinkId), Runs s → NothingWaits s → s.fld (.CN_STATUS l.val) F.CN_STATUS_LSTATE = 2 → (s.link l).ping.busy = false →
    let x := s.link l
    let twin : Prop := 34 ≤ l.val ∧ s.fld .TB_CHIP F.TB_CHIP_TWIN = 1
    (∀ n, let sKind : Prop := n < 2 ∨ twin ∨ (n < 360 ∧ s.rotRunning = true)
      let ok (k : Nat) : Prop := slotAllows (s.twinLink l) s.rotRunning n k = true
      (∀ (bs : List Byte) (flagged : Bool),
       let bad : Prop := flagged = true ∨ (∀ p, Parcel.ofBytes bs = some p → ¬ ok p.type)
       (¬ bad → Gives (.erroredParcel l ⟨n, bs, flagged⟩) s (fun t => t = s)) ∧
       (bad → x.errored + 1 < 8 → Gives (.erroredParcel l ⟨n, bs, flagged⟩) s (fun t => (t.link l).errored = x.errored + 1 ∧
        ((t.link l).nak = true ↔ x.nak = true ∨ (2 ≤ n ∧ ¬ twin)) ∧ (sKind → t.fld (.CN_STATUS l.val) F.CN_STATUS_S_ERR = 1) ∧
        Sends s t (if sKind then [⟨99, [], none⟩] else []) ∧ OnlyLinks s t [l] (if sKind then [.CN_STATUS l.val] else []))) ∧
       (bad → 8 ≤ x.errored + 1 → x.sendQ = [] → x.relayQ = [] → Gives (.erroredParcel l ⟨n, bs, flagged⟩) s (fun t =>
        LinkFailed s t l 3 true ((if sKind then [⟨99, [], none⟩] else []) ++ [⟨98, [], none⟩]) ∧
        t.fld (.CN_STATUS l.val) F.CN_STATUS_DOWN_SEEN = 1))) ∧
      (¬ ok 0 → Sys2Proof.Machine.exec (.idle l n) s = Sys2Proof.Machine.exec (.erroredParcel l ⟨n, [], false⟩) s) ∧
      (n < 2 ∨ (twin ∧ n ≠ 2) ∨ (¬ twin ∧ n < 360 ∧ s.rotRunning = true) → Gives (.idle l n) s (fun t => (t.link l).errored = 0 ∧ OnlyLinks s t [l] [] ∧ t.wmEvents = s.wmEvents))) ∧
    (∀ (n : Nat) (c : Container), 2 ≤ n → ¬ twin → c.crSigTile = none →
      let q := if c.ack ∈ x.retry.map (fun r => r.seq) then (x.retry.dropWhile (fun r => r.seq != c.ack)).drop 1 else x.retry
      let replays := if q.length < x.retry.length then 0 else x.replays
      (replays < 8 ∨ c.nak = false ∨ q = [] → (∀ m ∈ c.flits, m.cls ≠ 3 ∧ m.dstChip.toNat = s.chipId) → Gives (.container l ⟨n, c⟩) s (fun t =>
        let y := t.link l
        y.retry = q ∧ y.errored = 0 ∧ y.credReq = x.credReq + c.crReq.toNat ∧ y.credSnp = x.credSnp + c.crSnp.toNat ∧
        y.credRsp = x.credRsp + c.crRsp.toNat ∧
        (c.nak = true → q ≠ [] → y.replaying = q.length ∧ y.replays = replays + 1) ∧
        (c.nak = false ∨ q = [] → y.replays = replays) ∧
        (c.flits = [] → t.out = s.out ∧ y.lastRx = x.lastRx ∧ y.nak = x.nak) ∧
        (c.flits ≠ [] → c.seq.toNat ≠ (x.lastRx + 1) % 4096 → t.out = s.out ∧ y.nak = true ∧ y.lastRx = x.lastRx) ∧
        (c.flits ≠ [] → c.seq.toNat = (x.lastRx + 1) % 4096 → t.out = s.out ++ c.flits.map (fun m => Output.coh m) ∧ y.nak = false ∧
          y.lastRx = c.seq.toNat) ∧
        OnlyLinks s { t with out := s.out } [l] []))) ∧
    (x.retry = [] → Gives (.cReplayTimeout l) s (fun t => t = s)) ∧
    (x.retry ≠ [] → x.replays < 8 → Gives (.cReplayTimeout l) s (fun t => (t.link l).replaying = x.retry.length ∧
      (t.link l).replays = x.replays + 1 ∧ (t.link l).retry = x.retry ∧ OnlyLinks s t [l] [] ∧ t.wmEvents = s.wmEvents)) ∧
    (x.retry ≠ [] → 8 ≤ x.replays → x.sendQ = [] → x.relayQ = [] → Gives (.cReplayTimeout l) s (fun t =>
      LinkFailed s t l 3 true [⟨100, [], none⟩, ⟨98, [], none⟩] ∧ t.fld (.CN_STATUS l.val) F.CN_STATUS_C_RETRY = 1)))

/-- A write of SEVERITY, and the accepted clear that brings LEVEL to it. SEVERITY takes the value. While STATUS is 0 LEVEL
takes it too; while STATUS is 1 LEVEL stays, and only an accepted clear of STATUS sets LEVEL to SEVERITY. Nothing but the
source's own register changes, so no write undoes a reaction that has been taken. -/
def Obligations.SeverityWritesAndAcceptedClears : Prop :=
  ∀ (s : State) (n : Fin 192) (v : BitVec 2), s.dark = false → s.journal = [] →
    let r := Reg.WM_SRC n.val
    (s.fld r F.WM_SRC_STATUS = 0 → Gives (.severityWrite n v) s (fun t =>
      t.rd r = F.WM_SRC_LEVEL.set (F.WM_SRC_SEVERITY.set (s.rd r) v.toNat) v.toNat ∧ t.fld r F.WM_SRC_SEVERITY = v.toNat ∧
      t.fld r F.WM_SRC_LEVEL = v.toNat ∧ t.fld r F.WM_SRC_STATUS = 0 ∧ OnlyRegs s t [r])) ∧
    (s.fld r F.WM_SRC_STATUS = 1 → Gives (.severityWrite n v) s (fun t =>
      t.rd r = F.WM_SRC_SEVERITY.set (s.rd r) v.toNat ∧ t.fld r F.WM_SRC_SEVERITY = v.toNat ∧
      t.fld r F.WM_SRC_LEVEL = s.fld r F.WM_SRC_LEVEL ∧ t.fld r F.WM_SRC_STATUS = 1 ∧ OnlyRegs s t [r])) ∧
    (s.fld r F.WM_SRC_STATUS = 1 → s.causeHolds n.val = false → Gives (.wmStatusClear n false) s (fun t =>
      t.fld r F.WM_SRC_STATUS = 0 ∧ t.fld r F.WM_SRC_LEVEL = s.fld r F.WM_SRC_SEVERITY ∧
      t.fld r F.WM_SRC_SEVERITY = s.fld r F.WM_SRC_SEVERITY ∧ OnlyRegs s t [r]))

/-- A write of WM_RAISE is an event of the source that it names. A write of 156 to 191 by PF0, rider core 0 or 1 or the hub
management controller does what an event of that source does that is taken. A write of any other value, or by any other
requester, changes nothing. -/
def Obligations.RaiseIsAnEvent : Prop :=
  ∀ (s : State) (by_ : Requester) (v : Byte), s.dark = false → s.journal = [] → s.wmEvents = [] →
    let may : Prop := by_ = .pf0 ∨ by_ = .management ∨ by_ = .rider 0 ∨ by_ = .rider 1
    (∀ n : Fin 192, n.val = v.toNat → 156 ≤ v.toNat → may →
      Sys2Proof.Machine.exec (.wmRaise by_ v) s =
        Sys2Proof.Machine.exec (.sourceEvent n [] ⟨none, []⟩) { s with wmEvents := [⟨v.toNat, [], none⟩] } ∧
      Gives (.wmRaise by_ v) s (fun t => s.fld (.WM_SRC n.val) F.WM_SRC_ENABLE = 1 → t.fld (.WM_SRC n.val) F.WM_SRC_STATUS = 1)) ∧
    (¬ (156 ≤ v.toNat ∧ v.toNat ≤ 191 ∧ may) → Gives (.wmRaise by_ v) s (fun t => t = s))

/-- The safe state has begun because of a source: the rotation, the sequencers, the channels, the riders with contexts and a halt
have ended, what the twin held back is dropped, and engines that are present are told to hold. -/
def Sys2Proof.Claims.SafeBegins (s t : State) (n : Nat) : Prop :=
  t.safe = true ∧ t.fld .WM_STATE F.WM_STATE_FATAL_SRC = n ∧ t.fld .ROT_STATUS F.ROT_STATUS_STATE = 0 ∧
    t.fld .OBS_STATUS F.OBS_STATUS_HALTED = 0 ∧ t.obs.halt = none ∧ t.twin.rb = [] ∧ t.twin.msix = [] ∧
    (∀ k : TileId, (t.tile k).wait = none ∧ t.fld (.SQ_STATUS k.val) F.SQ_STATUS_STATE = 0) ∧
    (∀ (k : TileId) (c : ChanId), s.fld (.SL_STATUS k.val c.val) F.SL_STATUS_STATE ≠ 0 → (s.chan k c).ending = none →
      (t.chan k c).ending = some 1 ∧ (t.chan k c).todo = []) ∧
    (∀ k : RiderId, 2 ≤ k.val → (t.rider k).running = false) ∧
    (∀ e : EngineId, (s.esState e = 2 ∨ s.esState e = 3) → .engine e .hold ∈ t.out) ∧
    ((∀ k : RiderId, 2 ≤ k.val → (s.rider k).running = false) → KeepsBytes s t)

/-- A vector of PF0 is requested: sent where it can be, pending where it cannot; once pending it stays so. -/
def Sys2Proof.Claims.AsksVector (s t : State) (v : Nat) : Prop :=
  (v ∉ s.pf0.pend → s.pf0.sendable v = true → s.twinActive = false → t.out = s.out ++ [.msix .pf0 v] ∧ t.pf0 = s.pf0) ∧
    (v ∉ s.pf0.pend → s.pf0.sendable v = false → t.out = s.out ∧ t.pf0 = { s.pf0 with pend := s.pf0.pend ++ [v] }) ∧
    (v ∈ s.pf0.pend → t.out = s.out ∧ t.pf0 = s.pf0)

/-- Events at the watermaster, forced events, its self check, ALIVE and the drain of the safe state. A source that is not
enabled ignores its event; its map bit is set all the same. Instances of one SCLK are one event with the contexts of all,
none where one has none. A first event takes the severity as its level, a further one raises it; one at level 3 does nothing
more. Level 1 asks for the vector, level 3 and level 2 without a context begin the safe state, level 2 with contexts revokes
them and stops their kernels. FORCE is writable in MAKER only. A failed self check begins the safe state. ALIVE toggles
outside it. The drain counts and drops what was on its way out. -/
def Obligations.WatermasterTakesEvents : Prop :=
  (∀ (s : State) (n : Fin 192) (ctxs : List Byte) (map : Option Nat), s.dark = false → s.journal = [] →
    s.wmEvents = [⟨n.val, ctxs, map⟩] → s.fld .TR_TRIG F.TR_TRIG_ARM = 0 → s.pf0.d3 = false → s.safe = false →
    let r := Reg.WM_SRC n.val
    let first : Prop := s.fld r F.WM_SRC_STATUS = 0
    let level := if first then s.fld r F.WM_SRC_SEVERITY else min 3 (s.fld r F.WM_SRC_LEVEL + 1)
    let taken (t : State) : Prop := t.wmEvents = [] ∧ t.fld r F.WM_SRC_STATUS = 1 ∧ t.fld r F.WM_SRC_LEVEL = level
    (s.fld r F.WM_SRC_ENABLE = 0 → map = none → Gives (.sourceEvent n ctxs ⟨map, []⟩) s (fun t => t = { s with wmEvents := [] })) ∧
    (s.fld r F.WM_SRC_ENABLE = 0 → ∀ i, map = some i → n.val ≤ 13 → i < 48 → Gives (.sourceEvent n ctxs ⟨map, []⟩) s (fun t =>
      t.rd (.WM_TILEMAP n.val) = s.rd (.WM_TILEMAP n.val) ||| BitVec.ofNat 64 (2 ^ i) ∧ t.wmEvents = [] ∧
      OnlyRegsEvents s t [.WM_TILEMAP n.val])) ∧
    (s.fld r F.WM_SRC_ENABLE = 1 → map = none →
      (¬ first → s.fld r F.WM_SRC_LEVEL = 3 → Gives (.sourceEvent n ctxs ⟨map, []⟩) s (fun t => taken t ∧ OnlyRegsEvents s t [r])) ∧
      (first ∨ s.fld r F.WM_SRC_LEVEL ≠ 3 →
        (level = 0 → Gives (.sourceEvent n ctxs ⟨map, []⟩) s (fun t => taken t ∧ OnlyRegsEvents s t [r])) ∧
        (level = 1 → s.hostWrites = [] → Gives (.sourceEvent n ctxs ⟨map, []⟩) s (fun t => taken t ∧
          AsksVector s t (s.fld .WM_VECTOR F.WM_VECTOR_VECTOR) ∧
          OnlyRegsEvents s { t with out := s.out, pf0 := s.pf0, twin := s.twin, obs := s.obs } [r])) ∧
        (level = 2 → (ctxs = [] ∨ 0 ∈ ctxs) → Gives (.sourceEvent n ctxs ⟨map, []⟩) s (fun t => t.fld r F.WM_SRC_LEVEL = 2 ∧ SafeBegins s t n.val)) ∧
        (level = 2 → ctxs ≠ [] → 0 ∉ ctxs → Gives (.sourceEvent n ctxs ⟨map, []⟩) s (fun t => t.fld r F.WM_SRC_LEVEL = 2 ∧ t.safe = false ∧
          (∀ c, t.revoked c = true ↔ s.revoked c = true ∨ c ∈ ctxs) ∧
          (∀ (k : TileId), ∀ x, (s.tile k).kernel = some x →
            (x.ctx ∈ ctxs → ∃ y, (t.tile k).kernel = some y ∧ (y.failed = true ∧ y.status = 1)) ∧
            (x.ctx ∉ ctxs → (t.tile k).kernel = some x)))) ∧
        (level = 3 → Gives (.sourceEvent n ctxs ⟨map, []⟩) s (fun t => t.fld r F.WM_SRC_LEVEL = 3 ∧ SafeBegins s t n.val))))) ∧
  (∀ (s : State) (n : Fin 192) (ctxs more : List Byte) (map map2 : Option Nat), s.dark = false → s.journal = [] →
    s.wmEvents = [⟨n.val, ctxs, map⟩, ⟨n.val, more, map2⟩] →
    let all := if ctxs = [] ∨ more = [] then [] else ctxs ++ more
    Sys2Proof.Machine.exec (.sourceEvent n ctxs ⟨map, [(more, map2)]⟩) s =
      Sys2Proof.Machine.exec (.sourceEvent n all ⟨map, []⟩) ({ s with wmEvents := [⟨n.val, all, map⟩] }.setMap n.val map2)) ∧
  (∀ (s : State) (n : Fin 192), s.dark = false → s.journal = [] →
    let r := Reg.WM_SRC n.val
    (s.fld .LC_STATE F.LC_STATE_STATE ≠ 0 → ∀ v, Gives (.forceWrite n v) s (fun t => t = s)) ∧
    (s.fld .LC_STATE F.LC_STATE_STATE = 0 →
      Gives (.forceWrite n false) s (fun t => t.rd r = F.WM_SRC_FORCE.set (s.rd r) 0 ∧ OnlyRegs s t [r]) ∧
      (s.fld r F.WM_SRC_FORCE = 1 → Gives (.forceWrite n true) s (fun t => OnlyRegs s t [])) ∧
      (s.fld r F.WM_SRC_FORCE = 0 → s.wmEvents = [] →
        Gives (.forceWrite n true) s (fun t => t.fld r F.WM_SRC_FORCE = 1 ∧
          (s.fld r F.WM_SRC_ENABLE = 1 → t.fld r F.WM_SRC_STATUS = 1)) ∧
        Sys2Proof.Machine.exec (.forceWrite n true) s = Sys2Proof.Machine.exec (.sourceEvent n [] ⟨none, []⟩)
          { s.setFld r F.WM_SRC_FORCE 1 with wmEvents := [⟨n.val, [], none⟩] }))) ∧
  (∀ s : State, s.dark = false → s.journal = [] →
    (s.safe = false → s.fld (.WM_SRC 154) F.WM_SRC_ENABLE = 0 → Gives .wmSelfcheckFail s (fun t => SafeBegins s t 154)) ∧
    (s.safe = false → Gives .wmSelfcheckFail s (fun t => t.safe = true ∧ t.fld .WM_STATE F.WM_STATE_FATAL_SRC = 154 ∧
      (s.fld (.WM_SRC 154) F.WM_SRC_ENABLE = 1 → t.fld (.WM_SRC 154) F.WM_SRC_STATUS = 1))) ∧
    (s.safe = true → Gives .aliveToggle s (fun t => t = s)) ∧
    (s.safe = false → Gives .aliveToggle s (fun t =>
      t.fld .WM_STATE F.WM_STATE_ALIVE = 1 - s.fld .WM_STATE F.WM_STATE_ALIVE ∧ OnlyRegs s t [.WM_STATE]))) ∧
  (∀ s : State, Runs s →
    (s.safe = false ∨ s.fld .WM_STATE F.WM_STATE_DRAINED = 1 → Gives .safeDrainDone s (fun t => t = s)) ∧
    (s.safe = true → s.fld .WM_STATE F.WM_STATE_DRAINED = 0 → (∀ (k : TileId) (c : CoreId), (s.core k c).merge = []) →
      s.storesLeft = false → (∀ l : LinkId, (s.link l).cOut = []) → s.msixWait = [] → s.hostWrites.all (fun w => w.src == .block) = true →
      Gives .safeDrainDone s (fun t => t.fld .WM_STATE F.WM_STATE_DRAINED = 1 ∧ t.hostWrites = [] ∧
        t.fld .WM_DISCARD_HOST F.WM_DISCARD_HOST_COUNT =
          min (2 ^ 32 - 1) (s.fld .WM_DISCARD_HOST F.WM_DISCARD_HOST_COUNT + s.hostWrites.length) ∧
        (∀ l : LinkId, (t.link l).sendQ = [] ∧ (t.link l).relayQ = [] ∧ (t.link l).sigOut = []) ∧
        KeepsRegs s t [.WM_STATE, .WM_DISCARD_HOST, .WM_DISCARD_CANAL] ∧ KeepsBytes s t)))

/-- Items, digests and a missing digest of twin checking. On a link to the twin a DIGEST is taken, on any other it is an
errored parcel. While checking is active and the safe state has not begun, an item adds its CRC to the running sum; a write
joins the release buffer, waits at a full one, and is reported where it comes after its turn. A copy of the twin's digest
that is not of this turn, chip and the other side is an error; the first valid one is compared with this side's, and agreeing
it records the turn in TW_LAST. A turn that ends without a valid copy is reported. -/
def Obligations.TwinChecking : Prop :=
  (∀ (s : State) (i : TwinItem), Runs s → (s.twinActive = false ∨ s.safe = true) → Gives (.twinItem i) s (fun t => t = s)) ∧
  (∀ s : State, Runs s → s.twinActive = true → s.safe = false →
    (∀ bs, Gives (.twinItem (.parcel bs)) s (fun t =>
      t = { s with twin := { s.twin with sum := s.twin.sum + BitVec.ofNat 64 (crc64 bs), items := s.twin.items + 1 } })) ∧
    (∀ (turn addr : Word64) (target : BitVec 2) (mask : Word64) (line : List Byte),
      let late : Prop := turn.toNat < (s.rd .TB_TURN).toNat
      (16384 ≤ s.twin.rb.length → Gives (.twinItem (.write turn addr target mask line)) s (fun t => t = s)) ∧
      (s.twin.rb.length < 16384 → Gives (.twinItem (.write turn addr target mask line)) s (fun t =>
        t.twin.rb = s.twin.rb ++ [⟨turn, addr, target, mask, line⟩] ∧ t.twin.items = s.twin.items + 1 ∧
        t.twin.sum = s.twin.sum + BitVec.ofNat 64 (crc64 (leBytes 8 (addr.toNat / 64 * 64) ++ leBytes 1 target.toNat ++ leBytes 8 mask.toNat ++
          (List.range 64).map (fun i => if mask.getLsbD i then line.getD i 0 else 0))) ∧
        (late → t.twin.late = true ∧ t.fld .TW_STATUS F.TW_STATUS_LATE = 1) ∧ (¬ late → t.twin.late = s.twin.late) ∧
        Sends s t (if late then [⟨151, [], none⟩] else []) ∧
        OnlyRegsEvents s { t with twin := s.twin } (if late then [.TW_STATUS] else []))))) ∧
  (∀ (s : State) (l : LinkId) (d : DigestParcel), Runs s →
    let quiet (t : State) (rs : List Reg) : Prop := (t.link l).errored = 0 ∧ OnlyLinks s { t with twin := s.twin } [l] rs
    (s.linkUp l = false → Gives (.digest l d) s (fun t => t = s)) ∧
    (s.linkUp l = true → s.twinLink l = false →
      Sys2Proof.Machine.exec (.digest l d) s = Sys2Proof.Machine.exec (.erroredParcel l ⟨2, [], false⟩) s) ∧
    (s.linkUp l = true → s.twinLink l = true → (s.twinActive = false ∨ d.turn = BitVec.allOnes 64 ∨ s.twin.own = none) →
      Gives (.digest l d) s (fun t => quiet t [] ∧ t.twin = s.twin ∧ t.wmEvents = s.wmEvents)) ∧
    (s.linkUp l = true → s.twinLink l = true → s.twinActive = true → d.turn ≠ BitVec.allOnes 64 → ∀ own, s.twin.own = some own →
      let valid : Prop := d.turn = own.turn ∧ d.chip.toNat = s.chipId ∧ d.side ≠ own.side
      let agrees (a : DigestParcel) : Prop := a.sum = d.sum ∧ a.items = d.items
      (¬ valid → Gives (.digest l d) s (fun t => quiet t [] ∧ t.twin = s.twin ∧ Sends s t [⟨152, [], none⟩])) ∧
      (valid → s.twin.copy = none →
        (agrees own → Gives (.digest l d) s (fun t => quiet t [.TW_LAST] ∧ t.rd .TW_LAST = own.turn ∧
          t.twin = { s.twin with copy := some d } ∧ t.wmEvents = s.wmEvents)) ∧
        (¬ agrees own → Gives (.digest l d) s (fun t => quiet t [.TW_STATUS] ∧ t.fld .TW_STATUS F.TW_STATUS_MISMATCH = 1 ∧
          t.rd .TW_LAST = s.rd .TW_LAST ∧ t.twin = { s.twin with copy := some d } ∧ Sends s t [⟨149, [], none⟩]))) ∧
      (valid → ∀ c, s.twin.copy = some c →
        (agrees c → Gives (.digest l d) s (fun t => quiet t [] ∧ t.twin = s.twin ∧ t.wmEvents = s.wmEvents)) ∧
        (¬ agrees c → Gives (.digest l d) s (fun t => quiet t [.TW_STATUS] ∧ t.fld .TW_STATUS F.TW_STATUS_MISMATCH = 1 ∧
          t.twin = s.twin ∧ Sends s t [⟨149, [], none⟩]))))) ∧
  (∀ s : State, Runs s →
    let missing : Prop := s.twinActive = true ∧ s.twin.own ≠ none ∧ s.twin.copy = none
    (missing → Gives .digestMissing s (fun t => t.fld .TW_STATUS F.TW_STATUS_MISSING = 1 ∧ t.twin = { s.twin with own := none } ∧
      Sends s t [⟨150, [], none⟩] ∧ OnlyRegsEvents s { t with twin := s.twin } [.TW_STATUS])) ∧
    (¬ missing → Gives .digestMissing s (fun t => t = s)))

/-- Nothing but homes, memory, registers of a list, what leaves, events and counters has changed. -/
def Sys2Proof.Claims.OnlyHome (s t : State) (rs : List Reg) : Prop :=
  KeepsRegs s t rs ∧
    { t with regs := s.regs, home := s.home, out := s.out, mem := s.mem, memUE := s.memUE, wmEvents := s.wmEvents, obs := s.obs } = s ∧
    { t.obs with counts := s.obs.counts } = s.obs

/-- The agent is a rider core. -/
def Sys2Proof.Claims.FromRider (m : CohMsg) : Prop := 48 ≤ m.srcAgent.toNat ∧ m.srcAgent.toNat < 56

/-- The same for an uncached write or an atomic; where a rider core sends it, the core's FENCE waits for its answer. -/
def Sys2Proof.Claims.OnlyHomeBy (s t : State) (m : CohMsg) : Prop :=
  OnlyHome s { t with riders := s.riders } [] ∧
    (∀ k : RiderId, t.rider k = if 48 ≤ m.srcAgent.toNat ∧ m.srcAgent.toNat < 56 ∧ k = riderOf m.srcAgent then { s.rider k with writes := (s.rider k).writes ++ [m.txn] }
      else s.rider k)

/-- A request of an operation by a live agent of this chip for a line of tier 1, at its home slice; the slice is not held back, no
transaction is open and no request waits in the mesh, no FENCE holds the agent, and neither culvert, lock nor directory error
concerns the line. -/
def Sys2Proof.Claims.HomeOpen (s : State) (n : SliceId) (m : CohMsg) (op : Nat) : Prop :=
  Runs s ∧ m.opc.toNat = op ∧ m.dstChip.toNat = s.chipId ∧ m.srcChip.toNat = s.chipId ∧ chipOf m.addr.toNat = s.chipId ∧
    localOf m.line < 0x9000000000 ∧ homeSlice (localOf m.line) = n ∧ m.srcAgent.toNat < 72 ∧
    s.agentDead m.srcAgent.toNat = false ∧ s.fld (.RSV_WEIR n.val) F.RSV_WEIR_CAP = 0 ∧ s.zeroing = [] ∧ s.rst.phase = .none ∧
    s.home.txns = [] ∧ s.home.held = [] ∧ (FromRider m → (s.rider (riderOf m.srcAgent)).fence = none) ∧ s.home.dirUE = [] ∧ s.fld .CUL_CTRL F.CUL_CTRL_ENABLE = 0 ∧ s.untracked (localOf m.line) = false

/-- Such a request in context 0, which may write the line. -/
def Sys2Proof.Claims.HomeAt (s : State) (n : SliceId) (m : CohMsg) (op : Nat) : Prop :=
  HomeOpen s n m op ∧ m.ctx = 0 ∧ s.ownerOk 0 (localOf m.line) true = true

/-- An answer of the home to the requester. -/
def Sys2Proof.Claims.Answers (m a : CohMsg) (opc : Nat) : Prop :=
  a.opc.toNat = opc ∧ a.dstAgent = m.srcAgent ∧ a.dstChip = m.srcChip ∧ a.txn = m.txn ∧ a.addr = m.addr

/-- DATA with a grant leaves, and the transaction waits for its ACK. -/
def Sys2Proof.Claims.Grants (s t : State) (m : CohMsg) (grant : Nat) (bs : List Byte) : Prop :=
  SendsCoh s t (fun a => Answers m a 0x40 ∧ a.grant.toNat = grant ∧ a.data = bs) ∧
    ∃ x, t.txnAt (localOf m.line) = some x ∧ (x.stage = .ack ∧ x.req.map (fun q => (q.srcAgent, q.txn)) = some (m.srcAgent, m.txn))

/-- A snoop of an opcode leaves for an agent, and the transaction waits for its reply. -/
def Sys2Proof.Claims.Snoops (s t : State) (m : CohMsg) (opc : Nat) (a : Byte) : Prop :=
  SendsCoh s t (fun f => f.opc.toNat = opc ∧ f.cls = 1 ∧ f.dstAgent = a ∧ f.srcAgent = m.srcAgent ∧ f.txn = m.txn ∧
      localOf f.addr.toNat = localOf m.line) ∧
    (∃ x, t.txnAt (localOf m.line) = some x ∧ (x.stage = .snoop ∧ x.owed = [a])) ∧ KeepsBytes s t ∧
    (if 5 ≤ m.opc.toNat then OnlyHomeBy s t m else OnlyHome s t [])

/-- Coherent requests at the home of a line of tier 1, for the slab of a tile, and not for this home. A line that nobody
holds and that the reservoir has: RD_SHARED grants S, RD_OWN and CLAIM grant E, RD_PEEK grants nothing; a write or atomic is
performed and completed. A line that another agent owns is snooped: for a share, for the line, for its data, or to invalidate
it. A read of a line that the reservoir lacks is fetched from the tier. The eviction of an owner writes its data and frees
the entry; one of no holder is counted as a stray; both are acknowledged. A line that is LOST refuses a tile. A tile in open
mode serves its slab: a read gets the data with grant I, a write is performed and completed, where the context owns the
place; an atomic of another agent than a tile too. A tile in scheduled mode, or draining its slab, refuses. A message of
another operation, for another chip, or of a rider core that waits at a FENCE, changes nothing. -/
def Obligations.RequestsAtTheirHome : Prop :=
  (
    (∀ (s : State) (n : SliceId) (m : CohMsg),
      let line := localOf m.line
      let r := m.srcAgent
      let has (st : DirState) (p : List Byte) (t : State) : Prop :=
        ∃ e, t.dirFind line = some e ∧ (e.state = st ∧ e.presence = p)
      let reads (op : Nat) : Prop := HomeAt s n m op ∧ s.dirFind line = none
      (∀ l, s.resLine line = some l → l.addr = line → l.bytes.length = 64 → l.parity = false → ∀ w, s.dirWay line = .way w →
        (reads 1 → Gives (.rdShared n m) s (fun t => Grants s t m 1 l.bytes ∧ has .shared [r] t ∧ KeepsBytes s t ∧ OnlyHome s t [])) ∧
        (reads 2 → Gives (.rdOwn n m) s (fun t => Grants s t m 2 l.bytes ∧ has .owned [r] t ∧ KeepsBytes s t ∧ OnlyHome s t [])) ∧
        (reads 3 → Gives (.claim n m) s (fun t => Grants s t m 2 l.bytes ∧ has .owned [r] t ∧ KeepsBytes s t ∧ OnlyHome s t [])) ∧
        (reads 4 → Gives (.rdPeek n m) s (fun t => Grants s t m 0 l.bytes ∧ t.dirFind line = none ∧ KeepsBytes s t ∧ OnlyHome s t [])) ∧
        (reads 5 → m.data.length = 64 → Gives (.wrFull n m) s (fun t => SendsCoh s t (fun a => Answers m a 0x42) ∧ t.home.txns = [] ∧
          t.dirFind line = none ∧ WritesAt s t line m.data ∧ OnlyHomeBy s t m)) ∧
        (reads 6 → m.data.length = 64 → Gives (.wrPart n m) s (fun t => SendsCoh s t (fun a => Answers m a 0x42) ∧ t.home.txns = [] ∧
          (∀ i, i < 64 → t.rdByte (line + i) = if m.byteMask.getLsbD i then m.data.getD i 0 else s.rdByte (line + i)) ∧
          (∀ a, (a < line ∨ line + 64 ≤ a) → t.rdByte a = s.rdByte a) ∧ OnlyHomeBy s t m)) ∧
        (reads 7 → 48 ≤ r.toNat → m.addr.toNat % 64 + szBytes m.sz ≤ 64 → Gives (.atomic n m) s (fun t =>
          let k := szBytes m.sz
          let a := localOf m.addr.toNat
          SendsCoh s t (fun f => Answers m f 0x42 ∧ f.data = l.bytes) ∧ t.home.txns = [] ∧
          (a % 64 = m.addr.toNat % 64 → a / 64 * 64 = line → WritesAt s t a
            (leBytes k (aopApply m.aop (8 * k) (leNat ((l.bytes.drop (m.addr.toNat % 64)).take k)) m.opA.toNat m.opB.toNat))) ∧
          OnlyHomeBy s t m))) ∧
      (s.resLine line = none → m.typ = 0 → s.resvRoom line ≠ none → ∀ w, s.dirWay line = .way w →
        let fetched (t : State) : Prop := t.out = s.out ∧ KeepsBytes s t ∧ OnlyHome s t [] ∧
          (∃ x, t.txnAt line = some x ∧ x.stage = .mem) ∧ t.home.refills = s.home.refills ++ [⟨line, decide (32 ≤ m.addr.toNat % 64), [], false, false⟩] ∧
          t.home.tierOps = s.home.tierOps ++ [⟨line, none, false, false⟩]
        (reads 1 → Gives (.rdShared n m) s fetched) ∧ (reads 2 → Gives (.rdOwn n m) s fetched) ∧
        (reads 4 → Gives (.rdPeek n m) s fetched)) ∧
      (∀ e, s.dirFind line = some e → e.line = line → s.resvRoom line ≠ none → ∀ a, e.presence = [a] → a ≠ r → e.state = .owned →
        (HomeAt s n m 1 → Gives (.rdShared n m) s (fun t => Snoops s t m 0x21 a)) ∧
        (HomeAt s n m 2 → Gives (.rdOwn n m) s (fun t => Snoops s t m 0x22 a)) ∧
        (HomeAt s n m 3 → Gives (.claim n m) s (fun t => Snoops s t m 0x22 a)) ∧
        (HomeAt s n m 4 → Gives (.rdPeek n m) s (fun t => Snoops s t m 0x23 a)) ∧
        (HomeAt s n m 5 → Gives (.wrFull n m) s (fun t => Snoops s t m 0x20 a)) ∧
        (HomeAt s n m 6 → Gives (.wrPart n m) s (fun t => Snoops s t m 0x20 a)) ∧
        (HomeAt s n m 7 → Gives (.atomic n m) s (fun t => Snoops s t m 0x20 a))) ∧
      (∀ e, s.dirFind line = some e → e.line = line → e.presence = [r] →
        (HomeAt s n m 9 → e.state = .owned → s.resLine line ≠ none → m.data.length = 64 → Gives (.evictDirty n m) s (fun t =>
          SendsCoh s t (fun a => Answers m a 0x48) ∧ t.dirFind line = none ∧ WritesAt s t line m.data ∧ t.home.txns = [] ∧ OnlyHome s t [])) ∧
        (HomeAt s n m 8 → e.state ≠ .lost → Gives (.evictClean n m) s (fun t => SendsCoh s t (fun a => Answers m a 0x48) ∧
          t.dirFind line = none ∧ KeepsBytes s t ∧ t.home.txns = [] ∧ OnlyHome s t []))) ∧
      (s.dirFind line = none →
        let stray (t : State) : Prop := SendsCoh s t (fun a => Answers m a 0x48) ∧ KeepsBytes s t ∧
          { t.home with owners := s.home.owners, riderLines := s.home.riderLines } = s.home ∧
          (¬ FromRider m → t.home.riderLines = s.home.riderLines) ∧
          t.fld (.DIR_STRAY n.val) F.DIR_STRAY_COUNT = min (2 ^ 32 - 1) (s.fld (.DIR_STRAY n.val) F.DIR_STRAY_COUNT + 1) ∧
          OnlyHome s t [.DIR_STRAY n.val]
        (HomeAt s n m 8 → Gives (.evictClean n m) s stray) ∧ (HomeAt s n m 9 → Gives (.evictDirty n m) s stray)) ∧
      (∀ e, s.dirFind line = some e → e.state = .lost → r.toNat < 48 → s.resvRoom line ≠ none →
        let refused (t : State) : Prop := SendsCoh s t (fun a => Answers m a 0x4A ∧ a.status = 2) ∧
          { t.home with owners := s.home.owners } = s.home ∧
          Sends s t [⟨20, [0], some n.val⟩] ∧ KeepsBytes s t ∧ OnlyHome s t []
        (HomeAt s n m 1 → Gives (.rdShared n m) s refused) ∧ (HomeAt s n m 2 → Gives (.rdOwn n m) s refused) ∧
        (HomeAt s n m 7 → Gives (.atomic n m) s refused)))) ∧
  (
    (∀ (s : State) (n : SliceId) (m : CohMsg) (k : TileId) (off : Nat), off < 0x600000 →
      localOf m.addr.toNat = slabAddr k off →
      let line := localOf m.line
      let at_ (op : Nat) : Prop := Runs s ∧ m.opc.toNat = op ∧ m.dstChip.toNat = s.chipId ∧ m.srcChip.toNat = s.chipId ∧
        chipOf m.addr.toNat = s.chipId ∧ line = slabAddr k (off / 64 * 64) ∧ s.agentDead m.srcAgent.toNat = false ∧ m.srcAgent.toNat < 72 ∧
        (FromRider m → (s.rider (riderOf m.srcAgent)).fence = none)
      let opens : Prop := s.schedMode k = false ∧ (s.tile k).draining = false ∧ s.slabOwned k m.ctx off = true ∧ s.memUE = [] ∧
        s.home.resv = []
      (opens →
        let data (t : State) : Prop := SendsCoh s t (fun a => Answers m a 0x40 ∧ a.grant = 0 ∧ a.data = s.rdBytes line 64) ∧
          KeepsBytes s t ∧ t.home = s.home ∧ OnlyHome s t []
        (at_ 1 → Gives (.rdShared n m) s data) ∧ (at_ 2 → Gives (.rdOwn n m) s data) ∧ (at_ 3 → Gives (.claim n m) s data) ∧
        (at_ 4 → Gives (.rdPeek n m) s data) ∧
        (at_ 5 → m.data.length = 64 → Gives (.wrFull n m) s (fun t => SendsCoh s t (fun a => Answers m a 0x42) ∧
          WritesAt s t line m.data ∧ t.home = s.home ∧ OnlyHomeBy s t m)) ∧
        (at_ 6 → m.data.length = 64 → Gives (.wrPart n m) s (fun t => SendsCoh s t (fun a => Answers m a 0x42) ∧
          (∀ i, i < 64 → t.rdByte (line + i) = if m.byteMask.getLsbD i then m.data.getD i 0 else s.rdByte (line + i)) ∧
          (∀ a, (a < line ∨ line + 64 ≤ a) → t.rdByte a = s.rdByte a) ∧ OnlyHomeBy s t m)) ∧
        (at_ 7 → 48 ≤ m.srcAgent.toNat → m.addr.toNat % 64 + szBytes m.sz ≤ 64 → off % 64 = m.addr.toNat % 64 →
          Gives (.atomic n m) s (fun t =>
            let k := szBytes m.sz
            let a := localOf m.addr.toNat
            SendsCoh s t (fun f => Answers m f 0x42 ∧ f.data = s.rdBytes line 64) ∧ t.home = s.home ∧ OnlyHomeBy s t m ∧
            WritesAt s t a (leBytes k (aopApply m.aop (8 * k) (s.rdNat a k) m.opA.toNat m.opB.toNat))))) ∧
      (s.schedMode k = true ∨ (s.tile k).draining = true →
        let refused (t : State) : Prop := SendsCoh s t (fun a => Answers m a 0x4A ∧ a.status = 6) ∧ KeepsBytes s t ∧ t.home = s.home ∧
          (if 5 ≤ m.opc.toNat then OnlyHomeBy s t m else OnlyHome s t [])
        (at_ 1 → Gives (.rdShared n m) s refused) ∧ (at_ 5 → Gives (.wrFull n m) s refused) ∧ (at_ 7 → Gives (.atomic n m) s refused))) ∧
    (∀ (s : State) (n : SliceId) (m : CohMsg), Runs s →
      let fenced : Prop := m.srcChip.toNat = s.chipId ∧ FromRider m ∧ (s.rider (riderOf m.srcAgent)).fence ≠ none
      let other (op : Nat) : Prop := m.opc.toNat ≠ op ∨ m.dstChip.toNat ≠ s.chipId ∨ (fenced ∧ op < 8)
      (other 1 → Gives (.rdShared n m) s (fun t => t = s)) ∧ (other 2 → Gives (.rdOwn n m) s (fun t => t = s)) ∧
      (other 3 → Gives (.claim n m) s (fun t => t = s)) ∧ (other 4 → Gives (.rdPeek n m) s (fun t => t = s)) ∧
      (other 5 → Gives (.wrFull n m) s (fun t => t = s)) ∧ (other 6 → Gives (.wrPart n m) s (fun t => t = s)) ∧
      (other 7 → Gives (.atomic n m) s (fun t => t = s)) ∧ (other 8 → Gives (.evictClean n m) s (fun t => t = s)) ∧
      (other 9 → Gives (.evictDirty n m) s (fun t => t = s))))

/-- Two coherence messages leave, one after the other. -/
def Sys2Proof.Claims.SendsTwo (s t : State) (p q : CohMsg → Prop) : Prop :=
  t.out.length = s.out.length + 2 ∧ t.out.take s.out.length = s.out ∧
    (∃ a, t.out[s.out.length]?.bind cohOf = some a ∧ p a) ∧ (∃ b, t.out[s.out.length + 1]?.bind cohOf = some b ∧ q b)

/-- A message of an operation for this chip. -/
def Sys2Proof.Claims.Here (s : State) (m : CohMsg) (op : Nat) : Prop :=
  Runs s ∧ m.opc.toNat = op ∧ m.dstChip.toNat = s.chipId

/-- Nothing but one tile, what leaves and counters has changed. -/
def Sys2Proof.Claims.OnlyTileOut (s t : State) (k : TileId) : Prop :=
  KeepsBytes s t ∧ (∀ j, j ≠ k → t.tile j = s.tile j) ∧ { t with tiles := s.tiles, out := s.out, obs := s.obs } = s ∧
    { t.obs with counts := s.obs.counts } = s.obs

/-- Nothing but the lines held for rider cores, what leaves and counters has changed. -/
def Sys2Proof.Claims.OnlyRiderLines (s t : State) : Prop :=
  KeepsBytes s t ∧ { t with home := { t.home with riderLines := s.home.riderLines }, out := s.out, obs := s.obs } = s ∧
    { t.obs with counts := s.obs.counts } = s.obs

/-- An ACK for a line to its home. -/
def Sys2Proof.Claims.IsAck (m a : CohMsg) : Prop :=
  a.opc = 0x49 ∧ a.cls = 2 ∧ a.srcAgent = m.dstAgent ∧ a.dstAgent = homeAgent (localOf m.addr.toNat) ∧ a.txn = m.txn

/-- What a tile, a rider core, an engine and a host port do with DATA, GNT, CMP, EVICT_ACK and REFUSE. An answer for which a
tile has no request changes nothing; otherwise the request is over. DATA fills the atomic store or the piece of a channel, or
gives a rider core its line, and is acknowledged; the answer to an engine or to a host port leaves on its link. GNT is
acknowledged. CMP performs a write or ends a piece; at a rider core it ends what a FENCE may wait for. EVICT_ACK releases the
lines in eviction. A refused write is over without being performed; a refused host read gets all ones. -/
def Obligations.AnswersAtTheRequester : Prop :=
  (∀ (s : State) (m : CohMsg) (k : TileId), m.dstAgent.toNat = k.val →
    (let none_ := (s.tile k).findReq m.txn = none
     none_ →
      (Here s m 0x40 → Gives (.data m) s (fun t => t = s)) ∧ (Here s m 0x42 → Gives (.cmp m) s (fun t => t = s)) ∧
      (Here s m 0x4A → Gives (.refuse m) s (fun t => t = s))) ∧
    (Here s m 0x41 → Gives (.gnt m) s (fun t => t = s)) ∧
    (∀ r, (s.tile k).findReq m.txn = some r →
      let over_ (t : State) : Prop := (t.tile k).reqs = (s.tile k).reqs.erase r ∧ OnlyTileOut s t k
      (Here s m 0x40 → r.kind = .acquire → (s.tile k).atomicsAt r.addr = [] → m.grant ≠ 0 →
        ((s.tile k).atoms.filter (fun a => !a.evicting)).length < 32 → Gives (.data m) s (fun t => over_ t ∧
          (t.tile k).atoms.head? = some ⟨r.addr, m.ctx, m.data, m.grant == 3, false, false⟩ ∧ SendsCoh s t (fun a => IsAck m a))) ∧
      (∀ (c : ChanId) (i : Nat), r.kind = .chan c i → ∀ y, (s.chan k c).flight.head? = some y → (s.chan k c).flight.length = 1 → y.id = i →
        (Here s m 0x40 → ∀ src, y.src = some src → Gives (.data m) s (fun t => over_ t ∧ SendsCoh s t (fun a => IsAck m a) ∧
          (t.chan k c).flight = [{ y with data := (m.data.drop (src.addr % 64)).take y.bytes, arrived := true }])) ∧
        (Here s m 0x42 → m.status = 0 → Gives (.cmp m) s (fun t => over_ t ∧ (t.chan k c).flight = [] ∧ t.out = s.out))) ∧
      (∀ (c : CoreId) (i : Nat), r.kind = .write c i → (∀ g, (s.core k c).group g = none) →
        (Here s m 0x42 → m.status = 0 → Gives (.cmp m) s (fun t => over_ t ∧ (t.core k c).findWrite i = none ∧ t.out = s.out)) ∧
        (Here s m 0x4A → Gives (.refuse m) s (fun t => over_ t ∧ (t.core k c).findWrite i = none ∧ t.out = s.out))) ∧
      (Here s m 0x4A → r.kind = .evict → Gives (.refuse m) s (fun t => over_ t ∧ t.out = s.out ∧
        (∀ a ∈ (t.tile k).atoms, ¬ (a.addr = r.addr ∧ a.evicting = true))))) ∧
    (Here s m 0x48 → Gives (.evictAck m) s (fun t => OnlyTileOut s t k ∧ t.out = s.out ∧
      (∀ a ∈ (t.tile k).atoms, a ∈ (s.tile k).atoms ∧ ¬ (a.evicting = true ∧ a.addr / 64 * 64 = m.line)) ∧
      (∀ a ∈ (s.tile k).atoms, a.evicting = false → a ∈ (t.tile k).atoms)))) ∧
  (∀ (s : State) (m : CohMsg) (k : RiderId), m.dstAgent.toNat = 48 + k.val →
    (Here s m 0x40 → Gives (.data m) s (fun t => SendsCoh s t (fun a => IsAck m a) ∧ OnlyRiderLines s t ∧
      (m.grant ≠ 0 → t.home.riderLines.head? = some ⟨k, localOf m.line, m.data, m.grant == 3, m.grant == 1, false⟩) ∧
      (m.grant = 0 → ∀ l ∈ t.home.riderLines, l.addr ≠ localOf m.line))) ∧
    (Here s m 0x41 → Gives (.gnt m) s (fun t => SendsCoh s t (fun a => IsAck m a) ∧ OnlyRiderLines s t ∧
      (∀ l ∈ t.home.riderLines, l.core = k → l.addr = localOf m.line → l.shared = false))) ∧
    (Here s m 0x48 → Gives (.evictAck m) s (fun t => OnlyRiderLines s t ∧ t.out = s.out ∧
      t.home.riderLines = s.home.riderLines.filter (fun l => !(l.core == k && l.addr == localOf m.line && l.evicting)))) ∧
    (let left := (s.rider k).writes.erase m.txn
     let answered (t : State) : Prop := (t.rider k).writes = left ∧
       (t.rider k).fence = (if left = [] ∧ (∀ w ∈ s.hostWrites, w.src ≠ .rider k) then none else (s.rider k).fence) ∧
       (∀ j, j ≠ k → t.rider j = s.rider j) ∧ { t with riders := s.riders } = s
     (Here s m 0x42 → Gives (.cmp m) s answered) ∧ (Here s m 0x4A → Gives (.refuse m) s answered))) ∧
  (∀ (s : State) (m : CohMsg) (e : EngineId), m.dstAgent.toNat = 56 + e.val → ∀ r, (s.eslot e).reqs.head? = some r → r.tag = m.txn → r.live = true →
    let goes (t : State) : Prop := t.out.take (s.out.length + 1) = s.out ++ [.engine e (.go m)] ∧ (t.eslot e).reqs = (s.eslot e).reqs.tail ∧
      KeepsBytes s t
    let acked (t : State) : Prop := goes t ∧ t.out.length = s.out.length + 2 ∧
      ∃ a, t.out.getLast?.bind cohOf = some a ∧ IsAck m a
    (Here s m 0x40 → Gives (.data m) s acked) ∧ (Here s m 0x41 → Gives (.gnt m) s acked) ∧
    (Here s m 0x42 → Gives (.cmp m) s (fun t => goes t ∧ t.out.length = s.out.length + 1)) ∧
    (Here s m 0x4A → Gives (.refuse m) s (fun t => goes t ∧ t.out.length = s.out.length + 1)) ∧
    (Here s m 0x48 → Gives (.evictAck m) s (fun t => goes t ∧ t.out.length = s.out.length + 1))) ∧
  (∀ (s : State) (m : CohMsg) (p : HostPortId), m.dstAgent.toNat = 72 + p.val →
    (Here s m 0x40 → m.txn = 0 → Gives (.data m) s (fun t => t.out.take (s.out.length + 1) = s.out ++ [.port p.val (.readData m.data)] ∧
      t.out.length = s.out.length + 2 ∧ ∃ a, t.out.getLast?.bind cohOf = some a ∧ IsAck m a)) ∧
    (Here s m 0x42 → m.txn = 1 → Gives (.cmp m) s (fun t => t.out = s.out ++ [.port p.val .cmp] ∧ { t with out := s.out } = s)) ∧
    (Here s m 0x4A → m.txn = 0 → Gives (.refuse m) s (fun t =>
      t.out = s.out ++ [.port p.val (.readData (List.replicate 64 0xFF))] ∧ KeepsBytes s t)))

/-- What a tile and a rider core answer to a snoop. An agent without the line says so with RSP_I. SNP_INV drops the copy: a
modified one returns its data, a clean exclusive one leaves with EVICT_CLEAN. SNP_FWD_S sends the line to the requester with
grant S and keeps a clean copy; modified data also returns to the home. SNP_FWD_O sends it with grant M or E and drops it.
SNP_PEEK sends modified data with no grant, and keeps a clean line. A message that is no snoop of an agent here changes
nothing. Whether a rider core has stored to a line of its own before the snoop finds it is free. -/
def Obligations.SnoopedAgents : Prop :=
  ∀ (s : State) (m : CohMsg),
    let line := localOf m.line
    let a := m.dstAgent
    let held := (s.riderStores a line).heldLine a line
    let at_ (op : Nat) : Prop := Here s m op ∧ a.toNat < 56
    let reply (op : Nat) (f : CohMsg) : Prop := f.opc.toNat = op ∧ f.cls = 2 ∧ f.srcAgent = a ∧
      f.dstAgent = homeAgent (localOf m.addr.toNat) ∧ f.txn = m.txn ∧ f.addr = m.addr
    let forward (grant : Nat) (d : List Byte) (f : CohMsg) : Prop := f.opc = 0x40 ∧ f.cls = 2 ∧ f.srcAgent = a ∧ f.dstAgent = m.srcAgent ∧
      f.dstChip = m.srcChip ∧ f.txn = m.txn ∧ f.grant.toNat = grant ∧ f.data = d
    let only (t : State) : Prop := KeepsBytes s t ∧
      { t with tiles := s.tiles, home := { t.home with riderLines := s.home.riderLines }, out := s.out, obs := s.obs,
               fresh := s.fresh } = s ∧
      (∀ b : Byte, b ≠ a → b.toNat < 56 → ∀ x, t.heldLine b x = s.heldLine b x) ∧ (∀ x, x ≠ line → t.heldLine a x = s.heldLine a x)
    let gone (t : State) : Prop := only t ∧ t.heldLine a line = none
    let same (t : State) : Prop := only t ∧ t.heldLine a line = held
    (a.toNat < 48 ∨ s.heldLine a line = none ∨ s.heldShared a line = true → held = s.heldLine a line) ∧
    (held = none →
      (at_ 0x20 → Gives (.snpInv m) s (fun t => SendsCoh s t (reply 0x43) ∧ same t)) ∧
      (at_ 0x21 → Gives (.snpFwdS m) s (fun t => SendsCoh s t (reply 0x43) ∧ same t)) ∧
      (at_ 0x22 → Gives (.snpFwdO m) s (fun t => SendsCoh s t (reply 0x43) ∧ same t)) ∧
      (at_ 0x23 → Gives (.snpPeek m) s (fun t => SendsCoh s t (reply 0x43) ∧ same t))) ∧
    (∀ x, held = some x →
      let d := x.1
      (at_ 0x20 → x.2 = true → Gives (.snpInv m) s (fun t => SendsCoh s t (fun f => reply 0x47 f ∧ f.data = d ∧ f.hasData = true) ∧ gone t)) ∧
      (at_ 0x20 → x.2 = false → s.heldShared a line = true → Gives (.snpInv m) s (fun t => SendsCoh s t (reply 0x43) ∧ gone t)) ∧
      (at_ 0x20 → x.2 = false → s.heldShared a line = false → Gives (.snpInv m) s (fun t => SendsTwo s t (reply 0x43)
        (fun f => f.opc = 8 ∧ f.cls = 0 ∧ f.srcAgent = a ∧ localOf f.addr.toNat = line) ∧ gone t)) ∧
      (at_ 0x21 → Gives (.snpFwdS m) s (fun t => SendsTwo s t (forward 1 d) (fun f => reply 0x44 f ∧ (f.hasData = true ↔ x.2 = true) ∧
        (x.2 = true → f.data = d)) ∧ only t ∧ t.heldLine a line = some (d, false))) ∧
      (at_ 0x22 → Gives (.snpFwdO m) s (fun t => SendsTwo s t (forward (if x.2 then 3 else 2) d) (reply 0x46) ∧ gone t)) ∧
      (at_ 0x23 → x.2 = true → Gives (.snpPeek m) s (fun t => SendsTwo s t (forward 0 d) (reply 0x46) ∧ same t)) ∧
      (at_ 0x23 → x.2 = false → Gives (.snpPeek m) s (fun t => SendsCoh s t (reply 0x45) ∧ same t))) ∧
    (Runs s →
      let other (op : Nat) : Prop := m.opc.toNat ≠ op ∨ m.dstChip.toNat ≠ s.chipId ∨ 56 ≤ a.toNat
      (other 0x20 → Gives (.snpInv m) s (fun t => t = s)) ∧ (other 0x21 → Gives (.snpFwdS m) s (fun t => t = s)) ∧
      (other 0x22 → Gives (.snpFwdO m) s (fun t => t = s)) ∧ (other 0x23 → Gives (.snpPeek m) s (fun t => t = s)))

/-- The one open transaction, of a live requester of this chip, for a line of tier 1. -/
def Sys2Proof.Claims.TxnIs (s : State) (n : SliceId) (line : Nat) (x : Txn) (q : CohMsg) (stage : TxnStage) : Prop :=
  Runs s ∧ homeSlice line = n ∧ line < 0x9000000000 ∧ s.untracked line = false ∧ s.home.txns = [x] ∧ s.home.held = [] ∧ x.line = line ∧ x.stage = stage ∧
    x.req = some q ∧ x.victim = false ∧ x.chain = [] ∧ localOf q.line = line ∧ q.srcChip.toNat = s.chipId ∧
    s.agentDead q.srcAgent.toNat = false

/-- A reply of an agent that the transaction waits for. -/
def Sys2Proof.Claims.ReplyAt (s : State) (n : SliceId) (m : CohMsg) (op : Nat) (x : Txn) (q : CohMsg) : Prop :=
  TxnIs s n (localOf m.line) x q .snoop ∧ m.opc.toNat = op ∧ m.dstChip.toNat = s.chipId ∧ x.owed = [m.srcAgent] ∧ x.evict = [] ∧
    x.data = none ∧ x.forwarded = false

/-- The transaction of a line waits for the requester's ACK, and no message has left. -/
def Sys2Proof.Claims.Forwarded (s t : State) (line : Nat) (q : CohMsg) : Prop :=
  t.out = s.out ∧ ∃ x, t.txnAt line = some x ∧ (x.stage = .ack ∧ x.req.map (fun r => (r.srcAgent, r.txn)) = some (q.srcAgent, q.txn))

/-- The entry of a line. -/
def Sys2Proof.Claims.EntryIs (t : State) (line : Nat) (st : DirState) (p : List Byte) : Prop :=
  ∃ e, t.dirFind line = some e ∧ (e.state = st ∧ e.presence = p)

/-- Replies to a home, ACK, data of the tiers, the retry queue and the owner cache. RSP_DATA brings the line, which goes on
to the requester and, for a share, to memory. RSP_FWD and RSP_S say that the agent has forwarded it. RSP_KEEP has memory's
data sent. RSP_I of a sharer ends its copy; of an owner the home waits for its eviction. ACK closes the transaction. Halves
of a refill come in their order; a write inside the first completes with it, and the second brings the line into the
reservoir and completes the request. An uncorrectable error is recorded and refuses it. The retry queue and the owner cache
release what waited. A protocol error is reported. -/
def Obligations.RepliesAndDataAtTheHome : Prop :=
  (∀ (s : State) (n : SliceId) (m q : CohMsg), ∀ x, s.home.txns.head? = some x →
    let line := localOf m.line
    let at_ (op : Nat) : Prop := ReplyAt s n m op x q
    (∀ e, s.dirFind line = some e → e.line = line →
      let r := q.srcAgent
      let shared := r :: e.presence.filter (fun a => a != r)
      (at_ 0x47 → q.opc = 1 → m.data.length = 64 → s.resLine line ≠ none → Gives (.rspData n m) s (fun t => Grants s t q 1 m.data ∧
        EntryIs t line .shared shared ∧ WritesAt s t line m.data ∧ OnlyHome s t [])) ∧
      (at_ 0x47 → q.opc = 2 → Gives (.rspData n m) s (fun t => Grants s t q 3 m.data ∧ EntryIs t line .owned [r] ∧ KeepsBytes s t ∧
        OnlyHome s t [])) ∧
      (at_ 0x47 → q.opc = 4 → Gives (.rspData n m) s (fun t => Grants s t q 0 m.data ∧ KeepsBytes s t ∧ OnlyHome s t [])) ∧
      (at_ 0x46 → q.opc = 2 → Gives (.rspFwd n m) s (fun t => Forwarded s t line q ∧ EntryIs t line .owned [r] ∧ KeepsBytes s t ∧
        OnlyHome s t [])) ∧
      (at_ 0x46 → q.opc = 1 → Gives (.rspFwd n m) s (fun t => Forwarded s t line q ∧ EntryIs t line .shared shared ∧ KeepsBytes s t ∧
        OnlyHome s t [])) ∧
      (at_ 0x44 → q.opc = 1 → m.srcAgent.toNat < 56 → Gives (.rspS n m) s (fun t => Forwarded s t line q ∧
        EntryIs t line .shared shared ∧ OnlyHome s t [] ∧ (m.hasData = false → KeepsBytes s t) ∧
        (m.hasData = true → m.data.length = 64 → s.resLine line ≠ none → WritesAt s t line m.data))) ∧
      (∀ l, s.resLine line = some l → l.parity = false →
        (at_ 0x45 → q.opc = 4 → Gives (.rspKeep n m) s (fun t => Grants s t q 0 l.bytes ∧ KeepsBytes s t ∧ OnlyHome s t [])) ∧
        (at_ 0x43 → q.opc = 2 → e.state = .shared → Gives (.rspI n m) s (fun t => Grants s t q 2 l.bytes ∧ EntryIs t line .owned [r] ∧
          KeepsBytes s t ∧ OnlyHome s t []))) ∧
      (at_ 0x43 → e.state = .owned → e.presence = [m.srcAgent] → Gives (.rspI n m) s (fun t => t.out = s.out ∧ t.dirFind line = some e ∧
        (∃ y, t.txnAt line = some y ∧ (y.stage = .snoop ∧ y.owed = [] ∧ y.evict = [m.srcAgent])) ∧ KeepsBytes s t ∧ OnlyHome s t []))) ∧
    (TxnIs s n line x q .ack →
      (m.opc = 0x49 → m.srcAgent = q.srcAgent → m.txn = q.txn → Gives (.ack n m) s (fun t => t.home = { s.home with txns := [] } ∧
        OnlyHome s t [] ∧ t.out = s.out ∧ KeepsBytes s t)) ∧
      (¬ (m.opc = 0x49 ∧ m.srcAgent = q.srcAgent ∧ m.txn = q.txn) → Gives (.ack n m) s (fun t => t = s))) ∧
    (TxnIs s n line x q .mem → s.home.refills = [] → s.home.tierOps = [⟨line, none, true, false⟩] → s.memUE = [] →
      (m.txn = q.txn → m.srcAgent = q.srcAgent → q.opc = 4 → s.dirFind line = none → s.resLine line = none →
        Gives (.tierReadReturn n m .clean) s (fun t => Grants s t q 0 (s.rdBytes line 64) ∧ t.home.tierOps = [] ∧ KeepsBytes s t ∧ OnlyHome s t [])) ∧
      (m.txn = q.txn → m.srcAgent = q.srcAgent → q.srcAgent.toNat < 72 → Gives (.tierReadReturn n m .uncorrectable) s (fun t =>
        SendsCoh s t (fun a => Answers q a 0x4A ∧ a.status = 3) ∧ t.home.txns = [] ∧ t.home.tierOps = [] ∧ KeepsBytes s t ∧
        t.fld (.HB_STATUS (line / 256 % 8)) F.HB_STATUS_UE = 1 ∧
        OnlyHome s t [.HB_STATUS (line / 256 % 8), .HB_ERRADDR (line / 256 % 8)])) ∧
      (m.txn ≠ q.txn → Gives (.tierReadReturn n m .clean) s (fun t => t = s)))) ∧
  (∀ (s : State) (n : SliceId) (m : CohMsg), Runs s → s.home.txns = [] → s.home.held = [] → (Gives (.rspI n m) s (fun t => t = s) ∧ Gives (.rspS n m) s (fun t => t = s) ∧
    Gives (.rspKeep n m) s (fun t => t = s) ∧ Gives (.rspFwd n m) s (fun t => t = s) ∧ Gives (.rspData n m) s (fun t => t = s) ∧
    Gives (.ack n m) s (fun t => t = s))) ∧
  (∀ (s : State) (n : SliceId) (q : CohMsg), ∀ x, s.home.txns.head? = some x → ∀ r, s.home.refills.head? = some r → ∀ (second : Bool),
    let line := r.line
    let half := s.rdBytes (line + if second then 32 else 0) 32
    TxnIs s n line x q .mem → s.home.refills.length = 1 → s.home.tierOps = [⟨line, none, true, false⟩] → s.memUE = [] → s.resLine line = none →
    (∀ i, i < 64 → s.resLine (line + i) = none) → line % 64 = 0 → r.ue = false → q.srcAgent.toNat < 72 →
    let first := (r.halves.map (fun y => y.2)).flatten
    let bytes := if second then first ++ half else half ++ first
    let hb : List Reg := [.HB_STATUS (line / 256 % 8), .HB_ERRADDR (line / 256 % 8)]
    (r.halves = [] → second ≠ r.secondFirst → Gives (.refillHalf n line second .clean) s (fun t => t = s)) ∧
    (r.halves = [] → r.dirty = false → second = r.secondFirst →
      (inHalf q second = false → Gives (.refillHalf n line second .clean) s (fun t => t.out = s.out ∧
        t.home = { s.home with refills := [{ r with halves := [(second, half)] }] } ∧ KeepsBytes s t ∧ OnlyHome s t [])) ∧
      (inHalf q second = true → q.opc = 6 → q.typ = 0 → s.dirFind line = none → Gives (.refillHalf n line second .clean) s (fun t =>
        SendsCoh s t (fun a => Answers q a 0x42) ∧ (∃ y, t.txnAt line = some y ∧ (y.stage = .mem ∧ y.forwarded = true)) ∧
        (∃ y, t.home.refills.head? = some y ∧ (y.dirty = true ∧ (∃ h, y.halves.head? = some h ∧ (h.1 = second ∧ (∀ i, i < 32 →
          let j := i + if second then 32 else 0
          h.2.getD i 0 = if q.byteMask.getLsbD j ∧ j < q.data.length then q.data.getD j 0 else half.getD i 0))))) ∧
        KeepsBytes s t ∧ OnlyHome s { t with fresh := s.fresh } []))) ∧
    (r.halves.length = 1 → second ≠ r.secondFirst →
      (∀ w, s.resvRoom line = some w → w.2 = none →
        let stored (t : State) : Prop := t.resLine line = some ⟨line, bytes, r.dirty, w.1, true, false⟩ ∧ t.home.refills = [] ∧
          t.home.tierOps = [] ∧ (bytes = s.rdBytes line 64 → KeepsBytes s t) ∧ OnlyHome s t []
        (q.opc = 1 → x.forwarded = false → s.dirFind line ≠ none → Gives (.refillHalf n line second .clean) s (fun t =>
          Grants s t q 1 bytes ∧ stored t)) ∧
        (x.forwarded = true → Gives (.refillHalf n line second .clean) s (fun t =>
          t.out = s.out ∧ t.home.txns = [] ∧ stored t))) ∧
      (r.dirty = false → x.forwarded = false → Gives (.refillHalf n line second .uncorrectable) s (fun t =>
        SendsCoh s t (fun a => Answers q a 0x4A ∧ a.status = 3) ∧ t.home.txns = [] ∧ t.home.refills = [] ∧ t.resLine line = none ∧
        t.fld (.HB_STATUS (line / 256 % 8)) F.HB_STATUS_UE = 1 ∧ KeepsBytes s t ∧ OnlyHome s t hb)))) ∧
  (∀ (s : State) (n : SliceId) (m : CohMsg), ∀ l, s.resLine (localOf m.line) = some l → l.parity = false → HomeOpen s n m 4 → s.dirFind (localOf m.line) = none →
    (s.home.retry = [m] → Gives (.retryQueueServe n) s (fun t => Grants s t m 0 l.bytes ∧ t.home.retry = [] ∧ KeepsBytes s t ∧ OnlyHome s t [])) ∧
    (∀ e, s.home.ownerWait = [(e, m)] →
      let filled (t : State) : Prop := (n, e) ∈ t.home.owners ∧ t.home.ownerWait = [] ∧
        (t.home.owners.filter (fun o => o.1 == n)).length ≤ 1024 ∧ KeepsBytes s t
      (s.ownerOk m.ctx (localOf m.line) false = true → Gives (.ownerCacheFill n e) s (fun t => Grants s t m 0 l.bytes ∧ filled t ∧ OnlyHome s t [])) ∧
      (s.ownerOk m.ctx (localOf m.line) false = false → Gives (.ownerCacheFill n e) s (fun t =>
        SendsCoh s t (fun a => Answers m a 0x4A ∧ a.status = 1) ∧ t.home.txns = [] ∧ filled t)))) ∧
  (∀ (s : State) (n : SliceId) (e : Nat), Runs s → s.home.held = [] →
    (s.home.retry = [] → Gives (.retryQueueServe n) s (fun t => t = s)) ∧
    (s.home.ownerWait = [] → Gives (.ownerCacheFill n e) s (fun t => (n, e) ∈ t.home.owners ∧ { t.home with owners := s.home.owners } = s.home ∧
      (∀ o, o.1 ≠ n → (o ∈ t.home.owners ↔ o ∈ s.home.owners)) ∧ (t.home.owners.filter (fun o => o.1 == n)).length ≤ 1024 ∧
      OnlyHome s t [] ∧ KeepsBytes s t))) ∧
  (∀ (s : State) (slice : Option SliceId) (m : CohMsg), Runs s →
    Gives (.cohProtocolError slice m) s (fun t => t = { s with wmEvents := s.wmEvents ++ [⟨18, [m.ctx], slice.map (fun n => n.val)⟩] }))

/-- No two directory entries have one line, none of them belongs to an open transaction, and no request waits in the mesh. -/
def Sys2Proof.Claims.PlainDir (s : State) : Prop := (s.home.dir.map (fun e => e.line)).Nodup ∧ s.home.txns = [] ∧ s.home.held = []

/-- An agent has died: its bit, the reclaim walk, the lines that it owned LOST, its presence gone, and every other entry as before. -/
def Sys2Proof.Claims.AgentDied (s t : State) (a : Nat) : Prop :=
  t.rd (.COH_DEAD (a / 32)) = s.rd (.COH_DEAD (a / 32)) ||| BitVec.ofNat 64 (2 ^ (a % 32)) ∧ t.fld .COH_RECLAIM F.COH_RECLAIM_BUSY = 1 ∧
    (∀ e ∈ s.home.dir,
      (BitVec.ofNat 8 a ∈ e.presence → e.state = .owned → t.dirFind e.line = some { e with state := .lost, presence := [] }) ∧
      (BitVec.ofNat 8 a ∈ e.presence → e.state = .shared →
        let p := e.presence.filter (fun x => x != BitVec.ofNat 8 a)
        t.dirFind e.line = if p = [] then none else some { e with presence := p }) ∧
      (BitVec.ofNat 8 a ∉ e.presence → t.dirFind e.line = some e)) ∧
    KeepsBytes s t

/-- A command of the bias unit has ended with a result. -/
def Sys2Proof.Claims.BiasEnds (s t : State) (r : Nat) (rs : List Reg) : Prop :=
  t.fld .BIAS_STATUS F.BIAS_STATUS_RESULT = r ∧ t.fld .BIAS_STATUS F.BIAS_STATUS_BUSY = 0 ∧ OnlyRegs s t (.BIAS_STATUS :: rs)

/-- A command of the bias unit runs. -/
def Sys2Proof.Claims.BiasRuns (s t : State) (b : BiasOp) : Prop :=
  t.fld .BIAS_STATUS F.BIAS_STATUS_BUSY = 1 ∧ t.fld .BIAS_STATUS F.BIAS_STATUS_RESULT = 0 ∧ t.home = { s.home with bias := some b } ∧
    OnlyHome s t [.BIAS_STATUS] ∧ KeepsBytes s t ∧ t.out = s.out

/-- Bias commands, locks of granules, flips to host bias, agents that die, the reclaim walk and the directory probe. A busy
bias unit answers BUSY. SET_DEVICE and LOCK refuse a bad range, and LOCK an armed rotation, an overlap or the culvert's
window, enabled or not (log 124); otherwise they run, and end when nothing of their granules is held: the granules lose host
bias, or the entry of the lock becomes valid. UNLOCK clears its entry while the rotation is idle. A flip ends once no
transaction is open on its granule, unless the granule is being returned. An agent that dies, by a death, a snoop that it
owes too long or COH_RECLAIM.START, loses its copies: the lines that it owned become LOST and its presence ends; its bit of
COH_DEAD and BUSY are set. A dead agent does not die again. The end of the walk clears BUSY. DIR_PROBE reads the entry at a
set and way; NEXT_LOST finds the next LOST entry, or says that there is none. -/
def Obligations.BiasAndLocks : Prop :=
  (
    (∀ s : State, Runs s → s.home.held = [] →
      let start := s.fld .BIAS_ARG F.BIAS_ARG_START
      let count := s.fld .BIAS_ARG F.BIAS_ARG_COUNT
      let entry := s.fld .BIAS_ARG F.BIAS_ARG_ENTRY
      let busy := s.fld .BIAS_STATUS F.BIAS_STATUS_BUSY
      let overlaps (n : Nat) : Prop := s.fld (.LOCK n) F.LOCK_VALID = 1 ∧ s.fld (.LOCK n) F.LOCK_START < start + count ∧
        start < s.fld (.LOCK n) F.LOCK_START + s.fld (.LOCK n) F.LOCK_COUNT
      let base := s.fld .CUL_BASE F.CUL_BASE_GIB * 2 ^ 14
      let covered : Prop := base < start + count ∧ start < base + 2 ^ 20
      let bad : Prop := count = 0 ∨ 0x900000 < start + count
      let turned (t : State) : Prop := t.fld .BIAS_STATUS F.BIAS_STATUS_RESULT = 1 ∧ t.fld .BIAS_STATUS F.BIAS_STATUS_BUSY = 1 ∧
        OnlyRegs s t [.BIAS_STATUS]
      (busy = 1 → Gives .setDevice s turned ∧ Gives .lock s turned ∧ Gives .unlock s turned) ∧
      (busy = 0 →
        (count = 0 ∨ 2 ^ 20 < start + count → Gives .setDevice s (fun t => BiasEnds s t 2 [])) ∧
        (¬ (count = 0 ∨ 2 ^ 20 < start + count) → s.home.dir = [] → Gives .setDevice s (fun t => BiasRuns s t (.setDevice start count))) ∧
        (s.rotState ≠ 0 → Gives .lock s (fun t => BiasEnds s t 3 []) ∧ Gives .unlock s (fun t => BiasEnds s t 3 [])) ∧
        (s.rotState = 0 → s.home.culvert = none →
          (bad → Gives .lock s (fun t => BiasEnds s t 2 [])) ∧
          (¬ bad → (∃ n ∈ List.range 64, overlaps n) → Gives .lock s (fun t => BiasEnds s t 4 [])) ∧
          (¬ bad → (∀ n ∈ List.range 64, ¬ overlaps n) → covered → Gives .lock s (fun t => BiasEnds s t 5 [])) ∧
          (¬ bad → (∀ n ∈ List.range 64, ¬ overlaps n) → ¬ covered → s.home.dir = [] → s.home.resv = [] →
            Gives .lock s (fun t => BiasRuns s t (.lock entry start count)))) ∧
        (s.rotState = 0 → Gives .unlock s (fun t => t.rd (.LOCK entry) = 0 ∧ BiasEnds s t 0 [.LOCK entry]))) ∧
      (s.home.bias = none → Gives .biasCmdDone s (fun t => t = s))) ∧
    (∀ (s : State) (start count entry : Nat), Runs s → s.home.held = [] → s.home.dir = [] → s.home.resv = [] →
      (s.home.bias = some (.setDevice start count) → Gives .biasCmdDone s (fun t =>
        t.home.hostBias = s.home.hostBias.filter (fun g => !(start ≤ g && g < start + count)) ∧ t.home.bias = none ∧
        t.fld .BIAS_STATUS F.BIAS_STATUS_HOST_GRANULES = t.home.hostBias.length % 2 ^ 21 ∧
        { t.home with bias := s.home.bias, hostBias := s.home.hostBias } = s.home ∧ BiasEnds s { t with home := s.home } 0 [])) ∧
      (s.home.bias = some (.lock entry start count) → s.home.txns = [] → entry < 64 → count < 2 ^ 24 → start < 2 ^ 24 → Gives .biasCmdDone s (fun t =>
        t.fld (.LOCK entry) F.LOCK_VALID = 1 ∧ t.fld (.LOCK entry) F.LOCK_START = start ∧ t.fld (.LOCK entry) F.LOCK_COUNT = count ∧
        t.home = { s.home with bias := none } ∧ BiasEnds s { t with home := s.home } 0 [.LOCK entry]))) ∧
    (∀ (s : State) (g : Nat), Runs s → s.home.held = [] →
      ((∀ f ∈ s.home.flips, f.granule ≠ g) → Gives (.biasFlipDone g) s (fun t => t = s)) ∧
      (∀ f, s.home.flips.find? (fun f => f.granule == g) = some f →
        ((∃ x ∈ s.home.txns, s.granuleOf x.line = some g) → Gives (.biasFlipDone g) s (fun t => t = s)) ∧
        ((∀ x ∈ s.home.txns, s.granuleOf x.line ≠ some g) → s.home.bias = none → f.host = [] → f.waiting = [] →
          Gives (.biasFlipDone g) s (fun t => g ∈ t.home.hostBias ∧ (∀ x, x ≠ g → (x ∈ t.home.hostBias ↔ x ∈ s.home.hostBias)) ∧
            t.home.flips = s.home.flips.filter (fun x => x.granule != g) ∧
            t.fld .BIAS_STATUS F.BIAS_STATUS_HOST_GRANULES = t.home.hostBias.length % 2 ^ 21 ∧
            { t.home with hostBias := s.home.hostBias, flips := s.home.flips } = s.home ∧
            OnlyRegs s { t with home := s.home } [.BIAS_STATUS] ∧ KeepsBytes s t))))) ∧
  (
    (∀ (s : State) (a : Fin 74), Runs s → PlainDir s → s.fld .LL_CTRL F.LL_CTRL_ENABLE = 0 →
      let dead := (s.rd (.COH_DEAD (a.val / 32))).getLsbD (a.val % 32)
      (dead = true → Gives (.agentDeath a) s (fun t => t = s)) ∧
      (dead = false → Gives (.agentDeath a) s (fun t => AgentDied s t a.val ∧
        (a.val < 48 ∨ 56 ≤ a.val → t.home.riderLines = s.home.riderLines) ∧
        KeepsRegs s t ([.COH_RECLAIM, .COH_DEAD (a.val / 32), .LL_OVERFLOW]))) ∧
      Gives (.snoopTimeout a) s (fun t => t = s) ∧
      Gives (.reclaimStart (BitVec.ofNat 8 a.val)) s (fun t => AgentDied s t a.val ∧ t.fld .COH_RECLAIM F.COH_RECLAIM_AGENT = a.val)) ∧
    (∀ (s : State) (a : Byte), Runs s → s.home.held = [] → 74 ≤ a.toNat → Gives (.reclaimStart a) s (fun t =>
      t.fld .COH_RECLAIM F.COH_RECLAIM_AGENT = a.toNat ∧ OnlyRegs s t [.COH_RECLAIM])) ∧
    (∀ s : State, Runs s → Gives .reclaimDone s (fun t => t.fld .COH_RECLAIM F.COH_RECLAIM_BUSY = 0 ∧ OnlyRegs s t [.COH_RECLAIM])) ∧
    (∀ (s : State) (a : Fin 74), Runs s → s.home.held = [] → (a.val < 56 ∨ 72 ≤ a.val) → (s.rd (.COH_DEAD (a.val / 32))).getLsbD (a.val % 32) = false →
      ∀ x, s.home.txns.head? = some x → s.home.txns.length = 1 → BitVec.ofNat 8 a.val ∈ x.owed → Gives (.snoopTimeout a) s (fun t =>
        t.wmEvents.take (s.wmEvents.length + 1) = s.wmEvents ++ [⟨19, [], some (homeSlice x.line).val⟩] ∧
        (t.rd (.COH_DEAD (a.val / 32))).getLsbD (a.val % 32) = true ∧ t.fld .COH_RECLAIM F.COH_RECLAIM_BUSY = 1)) ∧
    (∀ (s : State) (n : SliceId) (set : BitVec 12) (way : BitVec 4), Runs s →
      let r := Reg.DIR_PROBE n.val
      let only (t : State) : Prop := OnlyRegs s t [r, .DIR_PROBE_DATA n.val 0, .DIR_PROBE_DATA n.val 1, .DIR_PROBE_DATA n.val 2, .DIR_PROBE_DATA n.val 3]
      let names (t : State) (a b c : Nat) : Prop := t.fld r F.DIR_PROBE_SET = a ∧ t.fld r F.DIR_PROBE_WAY = b ∧ t.fld r F.DIR_PROBE_NONE = c
      let free (t : State) : Prop := ∀ k, k < 4 → t.rd (.DIR_PROBE_DATA n.val k) = 0
      let key (e : DirEntry) := 16 * dirSet e.line + e.way
      let shows (t : State) (e : DirEntry) : Prop :=
        (∀ k, k < 3 → ∀ i, i < 32 → ((t.rd (.DIR_PROBE_DATA n.val k)).getLsbD i = true ↔ BitVec.ofNat 8 (32 * k + i) ∈ e.presence)) ∧
        (t.rd (.DIR_PROBE_DATA n.val 3)).toNat = e.line / 64 / 2 ^ 17 % 2 ^ 20 + 2 ^ 20 * (match e.state with
          | .shared => 1
          | .owned => 2
          | .lost => 3)
      let here (e : DirEntry) : Prop := homeSlice e.line = n ∧ dirSet e.line = set.toNat ∧ e.way = way.toNat
      let later (e : DirEntry) : Prop := homeSlice e.line = n ∧ e.state = .lost ∧ 16 * set.toNat + way.toNat < key e
      ((∀ e ∈ s.home.dir, ¬ here e) → Gives (.dirProbeRead n set way) s (fun t => names t set.toNat way.toNat 0 ∧ free t ∧ only t)) ∧
      (∀ e, s.home.dir.find? (fun e => homeSlice e.line == n && dirSet e.line == set.toNat && e.way == way.toNat) = some e →
        Gives (.dirProbeRead n set way) s (fun t => names t set.toNat way.toNat 0 ∧ shows t e ∧ only t)) ∧
      ((∀ e ∈ s.home.dir, ¬ later e) → Gives (.nextLost n set way) s (fun t => names t set.toNat way.toNat 1 ∧ free t ∧ only t)) ∧
      (∀ e ∈ s.home.dir, later e → e.way < 16 → (∀ f ∈ s.home.dir, later f → f ≠ e → key e < key f) → Gives (.nextLost n set way) s (fun t =>
        names t (dirSet e.line) e.way 0 ∧ shows t e ∧ only t))))

/-- Nothing but registers of a list, what the observation unit holds, memory, the words with errors and events has changed. -/
def Sys2Proof.Claims.OnlyObs (s t : State) (rs : List Reg) : Prop :=
  KeepsRegs s t rs ∧ { t with regs := s.regs, mem := s.mem, memUE := s.memUE, keyTags := s.keyTags, wmEvents := s.wmEvents, obs := s.obs } = s

/-- How many records the trace ring holds when full, and where its next record goes. -/
def Sys2Proof.Claims.traceSize (s : State) : Nat := 2 ^ (max 21 (min 30 (s.fld .TR_CTRL F.TR_CTRL_LOG2SIZE)) - 5)

def Sys2Proof.Claims.traceAt (s : State) (i : Nat) : Nat :=
  s.fld .TR_BASE F.TR_BASE_REGION * 2 ^ 21 + 32 * ((s.fld .TR_TAIL F.TR_TAIL_VALUE + i) % traceSize s)

/-- The next n records of the ring lie in regions of tier 1 that its unit may write, and the ring's tail is one of its records. -/
def Sys2Proof.Claims.RingOpen (s : State) (n : Nat) : Prop :=
  s.home.resv = [] ∧ s.fld .TR_TAIL F.TR_TAIL_VALUE < traceSize s ∧
    ∀ i ∈ List.range n, placeOf (traceAt s i) = .tier1 ∧ s.ownerOk 0 (traceAt s i) true = true

/-- One record enters the trace ring: its bytes at the tail, which moves on; a full ring gives up its oldest record. -/
def Sys2Proof.Claims.RingTakes (s t : State) (bs : List Byte) : Prop :=
  let n := traceSize s
  let count := s.fld .TR_COUNT F.TR_COUNT_VALUE
  let head := s.fld .TR_HEAD F.TR_HEAD_VALUE
  WritesAt s t (traceAt s 0) bs ∧ t.fld .TR_TAIL F.TR_TAIL_VALUE = (s.fld .TR_TAIL F.TR_TAIL_VALUE + 1) % n ∧
    t.rd .TR_TOTAL = s.rd .TR_TOTAL + 1 ∧
    t.fld .TR_COUNT F.TR_COUNT_VALUE = (if count < n then count + 1 else count) ∧
    t.fld .TR_HEAD F.TR_HEAD_VALUE = if count < n then head else (head + 1) % n

/-- After the trigger, one record fewer is still to come; with the last one the ring freezes. -/
def Sys2Proof.Claims.TriggerCounts (s t : State) (left : Option Nat) : Prop :=
  t.obs.trigLeft = left.bind (fun k => if k ≤ 1 then none else some (k - 1)) ∧
    t.fld .TRACE_STATUS F.TRACE_STATUS_FROZEN = if left = some 0 ∨ left = some 1 then 1 else s.fld .TRACE_STATUS F.TRACE_STATUS_FROZEN

/-- One record more is counted as dropped. -/
def Sys2Proof.Claims.Drops (s t : State) : Prop :=
  t.fld .TR_DROP F.TR_DROP_COUNT = min (2 ^ 32 - 1) (s.fld .TR_DROP F.TR_DROP_COUNT + 1)

/-- Counters cleared and sampled, and what the trace ring takes, drops and gives. CLEAR sets the full counters to 0. SMP_CTRL
with ENABLE starts the sample ring again. A due sample is written where the ring has room, its header first, and skipped
otherwise. TR_CTRL with ENABLE empties a ring that was off; REARM ends the trigger. A wanted record is dropped without TRACE
on its field, in a frozen ring, and with KEEP in a ring seven eighths full; otherwise it is written at the tail with the tag
of its tile, after the GAP record that is due. FIRE, the armed trigger, the time trigger and TR_HEAD do what R584 to R587
say. How a unit's field is found is the model's reading (log). -/
def Obligations.SamplesAndTheTraceRing : Prop :=
  (∀ s : State, Runs s → Gives (.clear) s (fun t => (∀ o, t.counter o = if 0x1D4000 ≤ o then 0 else s.counter o) ∧
    KeepsBytes s t ∧ { t with obs := s.obs } = s ∧
    { t.obs with counts := s.obs.counts, boundary := s.obs.boundary, boundaryAt := s.obs.boundaryAt } = s.obs)) ∧
  (∀ (s : State) (v : Word32), Runs s → Gives (.smpEnable v) s (fun t =>
    t.fld .SMP_CTRL F.SMP_CTRL_ENABLE = 1 ∧ t.fld .SMP_CTRL F.SMP_CTRL_MODE = bitsOf v 30 30 ∧
    t.fld .SMP_CTRL F.SMP_CTRL_GROUPS = bitsOf v 29 27 ∧ t.fld .SMP_CTRL F.SMP_CTRL_LOG2SIZE = bitsOf v 26 22 ∧
    t.fld .SMP_CTRL F.SMP_CTRL_PERIOD = bitsOf v 19 0 ∧ t.rd .SMP_TAIL = 0 ∧ t.rd .SMP_HEAD = 0 ∧
    t.obs = { s.obs with smpSeq := 0, smpSkipped := 0, smpStart := s.rd .TB_RAW } ∧
    OnlyRegs s { t with obs := s.obs } [.SMP_CTRL, .SMP_TAIL, .SMP_HEAD])) ∧
  (∀ s : State, Runs s →
    let period := max 1 (s.fld .SMP_CTRL F.SMP_CTRL_PERIOD)
    let groups := s.fld .SMP_CTRL F.SMP_CTRL_GROUPS
    let due : Prop := s.fld .SMP_CTRL F.SMP_CTRL_ENABLE = 1 ∧
      (s.fld .SMP_CTRL F.SMP_CTRL_MODE = 0 → s.cycle = 0 ∧ s.turnNo.toNat % period = 0) ∧
      (s.fld .SMP_CTRL F.SMP_CTRL_MODE = 1 → (s.rd .TB_RAW - s.obs.smpStart).toNat % period = 0)
    let words := (if groups % 2 = 1 then 768 else 0) + (if groups / 2 % 2 = 1 then 232 else 0) + (if groups / 4 = 1 then 512 else 0)
    let len := 1 + words / 8
    let ring := 2 ^ (max 21 (min 30 (s.fld .SMP_CTRL F.SMP_CTRL_LOG2SIZE)) - 6)
    let tail := s.fld .SMP_TAIL F.SMP_TAIL_INDEX
    let used := (tail + ring - s.fld .SMP_HEAD F.SMP_HEAD_INDEX % ring) % ring
    let at_ (i : Nat) := s.fld .SMP_BASE F.SMP_BASE_REGION * 2 ^ 21 + (tail + i) % ring * 64
    (¬ due → Gives (.sampleLatch) s (fun t => t = s)) ∧
    (due → used + len < ring → s.home.resv = [] →
      (∀ i ∈ List.range len, placeOf (at_ i) = .tier1 ∧ s.ownerOk 0 (at_ i) true = true) →
      Gives (.sampleLatch) s (fun t => t.rdBytes (at_ 0) 8 = leBytes 8 (s.obs.smpSeq + 1) ∧
        t.rdBytes (at_ 0 + 8) 8 = leBytes 8 s.timestamp.toNat ∧ t.rdBytes (at_ 0 + 16) 8 = leBytes 8 s.turnNo.toNat ∧
        t.rdBytes (at_ 0 + 24) 2 = leBytes 2 len ∧ (t.rdByte (at_ 0 + 26)).toNat % 8 = groups ∧ t.rdByte (at_ 0 + 27) = 0 ∧
        (s.obs.boundaryAt ≠ s.rd .TB_RAW → ∀ x ∈ (sampleWords groups).zipIdx, s.gatedCount x.1 = false →
          t.rdBytes (at_ (1 + x.2 / 8) + 8 * (x.2 % 8)) 8 =
            leBytes 8 ((s.counter x.1).toNat / 2 ^ 63 * 2 ^ 63 + (s.counter x.1).toNat % 2 ^ 48)) ∧
        t.rdBytes (at_ 0 + 28) 4 = leBytes 4 s.obs.smpSkipped ∧ t.rdBytes (at_ 0 + 34) 30 = leBytes 30 0 ∧
        (groups = 0 → ∀ x, (x < at_ 0 ∨ at_ 0 + 64 ≤ x) → t.rdByte x = s.rdByte x) ∧
        t.fld .SMP_TAIL F.SMP_TAIL_INDEX = (tail + len) % ring ∧
        { t.obs with counts := s.obs.counts } = { s.obs with smpSeq := s.obs.smpSeq + 1, smpSkipped := 0 } ∧
        OnlyObs s t [.SMP_TAIL, .OBS_STATUS])) ∧
    (due → ring ≤ used + len → Gives (.sampleLatch) s (fun t =>
      t.fld .SMP_SKIP F.SMP_SKIP_COUNT = min (2 ^ 32 - 1) (s.fld .SMP_SKIP F.SMP_SKIP_COUNT + 1) ∧
      t.obs = { s.obs with smpSeq := s.obs.smpSeq + 1, smpSkipped := min (2 ^ 32 - 1) (s.obs.smpSkipped + 1) } ∧
      KeepsBytes s t ∧ OnlyRegs s { t with obs := s.obs } [.SMP_SKIP, .OBS_STATUS]))) ∧
  (∀ (s : State) (r : TraceRecord), Runs s →
    let sync (i : Nat) : Prop := s.fld .TR_CTRL F.TR_CTRL_SYNC / 2 ^ i % 2 = 1
    let wanted : Prop := (r.typ = 1 ∧ s.fld .TR_MIN F.TR_MIN_MIN ≤ (r.t1 - r.t0).toNat ∧
        ((r.unitClass = 0 ∧ sync 0) ∨ (r.unitClass = 1 ∧ sync 2) ∨ (r.unitClass = 2 ∧ sync 1) ∨ (r.unitClass = 4 ∧ sync 3))) ∨
      (r.typ = 2 ∧ s.fld .TR_CTRL F.TR_CTRL_KERNEL = 1) ∨ (r.typ = 3 ∧ s.fld .TR_CTRL F.TR_CTRL_COMMAND = 1)
    let enabled : Prop := s.fld .TR_CTRL F.TR_CTRL_ENABLE = 1
    let gated : Prop := (s.unitField r).any (fun f => !s.capOn Cap.TRACE f) = true
    let frozen : Prop := s.fld .TRACE_STATUS F.TRACE_STATUS_FROZEN = 1
    let kept : Prop := s.fld .TR_CTRL F.TR_CTRL_KEEP = 1 ∧ s.obs.trigLeft = none ∧
      traceSize s - traceSize s / 8 ≤ s.fld .TR_COUNT F.TR_COUNT_VALUE
    let ring := [Reg.TR_TAIL, .TR_HEAD, .TR_COUNT, .TR_TOTAL, .TRACE_STATUS]
    (¬ wanted → r.typ ≠ 5 → Gives (.traceRecord r) s (fun t => t = s)) ∧
    (¬ enabled → r.typ ≠ 5 → Gives (.traceRecord r) s (fun t => t = s)) ∧
    (wanted → enabled → gated → Gives (.traceRecord r) s (fun t => Drops s t ∧ t.fld .OBS_STATUS F.OBS_STATUS_REFUSED = 1 ∧
      Sends s t [⟨148, [], none⟩] ∧ OnlyRegsEvents s t [.TR_DROP, .OBS_STATUS])) ∧
    (wanted → enabled → ¬ gated →
      (frozen → Gives (.traceRecord r) s (fun t => Drops s t ∧ OnlyRegs s t [.TR_DROP])) ∧
      (¬ frozen → kept → Gives (.traceRecord r) s (fun t => Drops s t ∧ t.obs.gaps.map (fun g => (g.2.1, g.2.2.2)) = [((s.obs.gaps.head?.map (fun g => g.2.1)).getD 0 + 1, s.timestamp)] ∧
        { t.obs with gaps := s.obs.gaps } = s.obs ∧ OnlyRegs s { t with obs := s.obs } [.TR_DROP])) ∧
      (¬ frozen → ¬ kept → RingOpen s 2 →
        (s.obs.gaps = [] → Gives (.traceRecord r) s (fun t => RingTakes s t (traceBytes (s.tagged r)) ∧ TriggerCounts s t s.obs.trigLeft ∧
          Sends s t [] ∧ { t.obs with counts := s.obs.counts, trigLeft := s.obs.trigLeft } = s.obs ∧ OnlyObs s t ring)) ∧
        (∀ g ∈ s.obs.gaps, s.obs.gaps.length = 1 → s.obs.trigLeft = none → Gives (.traceRecord r) s (fun t =>
          t.obs.gaps = [] ∧ Sends s t [⟨145, [], none⟩] ∧ t.rd .TR_TOTAL = s.rd .TR_TOTAL + 2 ∧ t.rdByte (traceAt s 0) = 5 ∧
          t.rdBytes (traceAt s 0 + 8) 24 = leBytes 8 g.2.2.1.toNat ++ leBytes 8 g.2.2.2.toNat ++ leBytes 8 (g.2.1 % 2 ^ 32) ∧
          t.rdBytes (traceAt s 1) 32 = traceBytes (s.tagged r) ∧ OnlyObs s t ring)))) ∧
    (r.typ = 5 → enabled → ¬ gated → ¬ frozen → ¬ kept → RingOpen s 1 → s.obs.gaps = [] → Gives (.traceRecord r) s (fun t =>
      RingTakes s t (traceBytes (s.tagged r)) ∧ Sends s t [⟨145, [], none⟩] ∧
      t.fld .TR_DROP F.TR_DROP_COUNT = min (2 ^ 32 - 1) (s.fld .TR_DROP F.TR_DROP_COUNT + r.data.toNat % 2 ^ 32) ∧
      OnlyObs s t (.TR_DROP :: ring)))) ∧
  (∀ s : State, Runs s →
    let armed (k : Nat) : Prop := s.fld .TR_TRIG F.TR_TRIG_ARM = 1 ∧ s.fld .TR_TRIG F.TR_TRIG_KIND = k
    (armed 0 → Gives (.fire) s (fun t => t = { s with obs := { s.obs with triggers := s.obs.triggers ++ [(0, 0, s.timestamp)] } })) ∧
    (¬ armed 0 → Gives (.fire) s (fun t => t = s)) ∧
    (∀ (kind : BitVec 3) (source : Byte),
      let first : Prop := if kind = 4 then armed 4 ∧ s.rd .TR_TRIGTIME ≤ s.timestamp
        else ∃ x, s.obs.triggers.head? = some x ∧ x.1 = kind.toNat ∧ (kind = 1 → x.2.1 = source.toNat)
      let when_ := if kind = 4 then s.timestamp else ((s.obs.triggers.head?).map (fun x => x.2.2)).getD 0
      let code := kind.toNat + if kind = 1 then 256 * source.toNat else 0
      let on : Prop := s.fld .TR_CTRL F.TR_CTRL_ENABLE = 1
      let frozen : Prop := s.fld .TRACE_STATUS F.TRACE_STATUS_FROZEN = 1
      let taken (t : State) : Prop := t.fld .TR_TRIG F.TR_TRIG_ARM = 0 ∧ t.obs.triggers = [] ∧
        t.fld .TRACE_STATUS F.TRACE_STATUS_TRIGGERED = 1 ∧
        t.fld .TRACE_STATUS F.TRACE_STATUS_TRIGIDX = s.fld .TR_TAIL F.TR_TAIL_VALUE % 2 ^ 25
      (¬ first → Gives (.trigger kind source) s (fun t => t = s)) ∧
      (first → ¬ on → Gives (.trigger kind source) s (fun t => taken t ∧ { t.obs with triggers := s.obs.triggers } = s.obs ∧
        OnlyRegs s { t with obs := s.obs } [.TR_TRIG, .TRACE_STATUS])) ∧
      (first → on → frozen → Gives (.trigger kind source) s (fun t => taken t ∧ Drops s t ∧
        OnlyRegs s { t with obs := s.obs } [.TR_TRIG, .TRACE_STATUS, .TR_DROP])) ∧
      (first → on → ¬ frozen → RingOpen s 1 → Gives (.trigger kind source) s (fun t => taken t ∧
        RingTakes s t (leBytes 1 4 ++ leBytes 1 0 ++ leBytes 2 0xE000 ++ leBytes 4 0xFFFFFFFF ++ leBytes 8 when_.toNat ++ leBytes 8 0 ++
          leBytes 8 code) ∧
        TriggerCounts s t (if s.obs.trigLeft = none then some (traceSize s / 8) else s.obs.trigLeft) ∧
        OnlyObs s t [.TR_TRIG, .TRACE_STATUS, .TR_TAIL, .TR_HEAD, .TR_COUNT, .TR_TOTAL]))) ∧
    (Gives (.rearm) s (fun t => t.fld .TRACE_STATUS F.TRACE_STATUS_TRIGGERED = 0 ∧ t.fld .TRACE_STATUS F.TRACE_STATUS_FROZEN = 0 ∧
      t.obs = { s.obs with trigLeft := none } ∧ OnlyRegs s { t with obs := s.obs } [.TRACE_STATUS])) ∧
    (∀ v : Word32,
      let ends : Prop := s.fld .TR_CTRL F.TR_CTRL_ENABLE = 0 ∨ v.getLsbD 28 = true
      Gives (.trEnable v) s (fun t => t.fld .TR_CTRL F.TR_CTRL_ENABLE = 1 ∧ t.fld .TR_CTRL F.TR_CTRL_KEEP = bitsOf v 30 30 ∧
        t.fld .TR_CTRL F.TR_CTRL_DRAIN = bitsOf v 29 29 ∧ t.fld .TR_CTRL F.TR_CTRL_LOG2SIZE = bitsOf v 27 23 ∧
        t.fld .TR_CTRL F.TR_CTRL_COMMAND = bitsOf v 5 5 ∧ t.fld .TR_CTRL F.TR_CTRL_KERNEL = bitsOf v 4 4 ∧
        t.fld .TR_CTRL F.TR_CTRL_SYNC = bitsOf v 3 0 ∧
        (s.fld .TR_CTRL F.TR_CTRL_ENABLE = 0 → t.rd .TR_TAIL = 0 ∧ t.rd .TR_HEAD = 0 ∧ t.rd .TR_COUNT = 0 ∧ t.rd .TR_TOTAL = 0 ∧ t.obs.gaps = []) ∧
        (ends → t.fld .TRACE_STATUS F.TRACE_STATUS_TRIGGERED = 0 ∧ t.fld .TRACE_STATUS F.TRACE_STATUS_FROZEN = 0 ∧ t.obs.trigLeft = none) ∧
        { t.obs with gaps := s.obs.gaps, trigLeft := s.obs.trigLeft } = s.obs ∧
        OnlyRegs s { t with obs := s.obs } [.TR_CTRL, .TR_TAIL, .TR_HEAD, .TR_COUNT, .TR_TOTAL, .TRACE_STATUS])) ∧
    (∀ v : Word32,
      let n := traceSize s
      let new := v.toNat % 2 ^ 26
      let count := s.fld .TR_COUNT F.TR_COUNT_VALUE
      let forward := (new + n - s.fld .TR_HEAD F.TR_HEAD_VALUE % n) % n
      let refused : Prop := s.fld .TR_CTRL F.TR_CTRL_DRAIN = 1 ∨ n ≤ new ∨ count < forward
      (refused → Gives (.trHeadWrite v) s (fun t => t = s)) ∧
      (¬ refused → Gives (.trHeadWrite v) s (fun t => t.fld .TR_HEAD F.TR_HEAD_VALUE = new ∧
        t.fld .TR_COUNT F.TR_COUNT_VALUE = count - forward ∧ OnlyRegs s t [.TR_HEAD, .TR_COUNT]))))

/-- A halt or resume word has gone out on every canal link that is UP but links 34 and 35 and the one it came from, in its signal queue. -/
def Sys2Proof.Claims.HaltSent (s t : State) (from_ : Option LinkId) (v : Word64) : Prop :=
  ∀ l : LinkId, t.link l = if l.val < 34 ∧ s.linkUp l = true ∧ from_ ≠ some l then { s.link l with sigOut := (s.link l).sigOut ++ [(63, v)] }
    else s.link l

/-- Nothing but registers of a list, links and what the observation unit holds has changed. -/
def Sys2Proof.Claims.OnlyObsLinks (s t : State) (rs : List Reg) : Prop :=
  KeepsRegs s t rs ∧ { t with regs := s.regs, links := s.links, obs := s.obs } = s

/-- A halt has begun with a cause, an origin and a number. -/
def Sys2Proof.Claims.HaltBegins (s t : State) (cause origin number : Nat) : Prop :=
  t.obs.halt = some ⟨cause, origin, number, s.timestamp, s.turnNo, false, none⟩ ∧
    t.fld .OBS_STATUS F.OBS_STATUS_CAUSE = cause ∧ t.fld .OBS_STATUS F.OBS_STATUS_ORIGIN = origin ∧ t.obs.seen = (origin, number) :: s.obs.seen.filter (fun x => x.1 != origin) ∧
    t.obs.triggers = s.obs.triggers ++ if s.fld .TR_TRIG F.TR_TRIG_ARM = 1 ∧ s.fld .TR_TRIG F.TR_TRIG_KIND = 3 then [(3, 0, s.timestamp)] else []

/-- The halt of this block: its number is one higher, and the halt word names chip and number. -/
def Sys2Proof.Claims.OwnHalt (s t : State) (cause : Nat) : Prop :=
  let n := (s.fld .OBS_HALT F.OBS_HALT_NUMBER + 1) % 2 ^ 16
  HaltBegins s t cause s.chipId n ∧ t.fld .OBS_HALT F.OBS_HALT_NUMBER = n ∧ HaltSent s t none (BitVec.ofNat 64 (s.chipId + n * 2 ^ 16))

/-- A word that halts other blocks, or resumes them, has arrived over a link. -/
def Sys2Proof.Claims.HaltArrives (c : Instr) (s : State) (l : LinkId) (v : Word64) : Prop :=
  let origin := bitsOf v 8 0
  let number := bitsOf v 31 16
  let low := bitsOf v 63 32
  let ahead := (low + 2 ^ 32 - s.turnNo.toNat % 2 ^ 32) % 2 ^ 32
  let soon : Prop := 0 < ahead ∧ ahead < 2 ^ 31
  (v.getLsbD 9 = false →
    (s.twinActive = true ∨ (origin, number) ∈ s.obs.seen → Gives c s (fun t => t = s)) ∧
    (s.twinActive = false → (origin, number) ∉ s.obs.seen →
      (s.obs.halt = none → Gives c s (fun t => HaltBegins s t 2 origin number ∧ HaltSent s t (some l) v ∧ OnlyObsLinks s t [.OBS_STATUS])) ∧
      (s.obs.halt ≠ none → Gives c s (fun t => HaltSent s t (some l) v ∧ t.obs.seen = (origin, number) :: s.obs.seen.filter (fun x => x.1 != origin) ∧ t.obs.halt = s.obs.halt ∧
        OnlyObsLinks s t [])))) ∧
  (v.getLsbD 9 = true →
    (s.obs.halt = none → Gives c s (fun t => t = s)) ∧
    (∀ h, s.obs.halt = some h →
      let new : Prop := s.twinActive = false ∧ h.resume = none ∧ h.origin = origin ∧ h.number = number
      (¬ new → Gives c s (fun t => t = s)) ∧
      (new → soon → Gives c s (fun t => HaltSent s t (some l) v ∧
        t.obs = { s.obs with halt := some { h with resume := some (s.turnNo + BitVec.ofNat 64 ahead) } } ∧ OnlyObsLinks s t [])) ∧
      (new → ¬ soon → Gives c s (fun t => HaltSent s t (some l) v ∧ t.fld .OBS_STATUS F.OBS_STATUS_RESUME_LATE = 1 ∧
        t.obs = { s.obs with halt := some { h with resume := some (s.turnNo + 1) } } ∧ OnlyObsLinks s t [.OBS_STATUS]))))

/-- Breakpoint hits, halts of this block and of others, and resumes. A sequencer that reaches its breakpoint stops before
that instruction and halts the block, unless it is halted. OBS_HALT.GO halts it too; with twin checking active it is refused.
A HALT word that is new goes on to the other links and halts the block; a RESUME word is taken while the block is halted
under its origin and number, and names the turn of resumption, or is late. OBS_RESUME names a turn at least 2 ahead of a
block that is HALTED. A WORD for a tile joins its queue of signals; one for destination 63 is a halt or resume word. -/
def Obligations.BreakpointsAndHalts : Prop :=
  (∀ (s : State) (k : TileId), Runs s →
    let hit : Prop := s.seqReady k = true ∧ s.atBreak k = true
    (¬ hit → Gives (.breakpointHit k) s (fun t => t = s)) ∧
    (hit → s.obs.halt ≠ none → Gives (.breakpointHit k) s (fun t => t.tile k = { s.tile k with held := true } ∧
      t.fld (.OBS_BP k.val) F.OBS_BP_HALTED = 1 ∧ t.obs = { s.obs with bpHeld := s.obs.bpHeld ++ [k] } ∧
      (∀ j, j ≠ k → t.tile j = s.tile j) ∧ OnlyRegs s { t with tiles := s.tiles, obs := s.obs } [.OBS_BP k.val])) ∧
    (hit → s.obs.halt = none → Gives (.breakpointHit k) s (fun t => t.tile k = { s.tile k with held := true } ∧
      t.fld (.OBS_BP k.val) F.OBS_BP_HALTED = 1 ∧ t.obs.bpHeld = s.obs.bpHeld ++ [k] ∧ OwnHalt s t 0 ∧
      (∀ j, j ≠ k → t.tile j = s.tile j) ∧ OnlyObsLinks s { t with tiles := s.tiles } [.OBS_BP k.val, .OBS_HALT, .OBS_STATUS]))) ∧
  (∀ s : State, Runs s →
    (s.twinActive = true → Gives (.obsHaltGo) s (fun t => t.fld .OBS_STATUS F.OBS_STATUS_REFUSED = 1 ∧ Sends s t [⟨148, [], none⟩] ∧
      OnlyRegsEvents s t [.OBS_STATUS])) ∧
    (s.twinActive = false → s.obs.halt ≠ none → Gives (.obsHaltGo) s (fun t => t = s)) ∧
    (s.twinActive = false → s.obs.halt = none → Gives (.obsHaltGo) s (fun t => OwnHalt s t 1 ∧ OnlyObsLinks s t [.OBS_HALT, .OBS_STATUS]))) ∧
  (∀ (s : State) (l : LinkId) (v : Word64), Runs s →
    (v.getLsbD 9 = true → Gives (.haltWord l v) s (fun t => t = s)) ∧ (v.getLsbD 9 = false → HaltArrives (.haltWord l v) s l v) ∧
    (v.getLsbD 9 = false → Gives (.resumeWord l v) s (fun t => t = s)) ∧ (v.getLsbD 9 = true → HaltArrives (.resumeWord l v) s l v)) ∧
  (∀ (s : State) (turn : Word64), Runs s →
    let ready : Prop := s.fld .OBS_STATUS F.OBS_STATUS_HALTED = 1 ∧ s.turnNo.toNat + 2 ≤ turn.toNat
    let refused (t : State) : Prop := t.fld .OBS_STATUS F.OBS_STATUS_REFUSED = 1 ∧ OnlyRegs s t [.OBS_STATUS]
    (¬ ready ∨ s.obs.halt = none → Gives (.obsResume turn) s refused) ∧
    (ready → ∀ h, s.obs.halt = some h → Gives (.obsResume turn) s (fun t => t.obs = { s.obs with halt := some { h with resume := some turn } } ∧
      HaltSent s t none (BitVec.ofNat 64 (h.origin % 2 ^ 9 + 2 ^ 9 + h.number % 2 ^ 16 * 2 ^ 16 + turn.toNat % 2 ^ 32 * 2 ^ 32)) ∧
      OnlyObsLinks s t []))) ∧
  (∀ (s : State) (m : CohMsg) (l : LinkId), Runs s →
    let dest := m.opB.toNat % 64
    (m.cls ≠ 3 ∨ m.srcAgent.toNat < 134 ∨ 170 ≤ m.srcAgent.toNat → Gives (.word m) s (fun t => t = s)) ∧
    (m.cls = 3 → m.srcAgent.toNat = 134 + l.val →
      (s.linkUp l = false → Gives (.word m) s (fun t => t = s)) ∧
      (s.linkUp l = true → (∀ k : TileId, k.val = dest → Gives (.word m) s (fun t =>
        t.link l = { s.link l with sigHeld := (s.link l).sigHeld ++ [(k, m.opA)] } ∧ OnlyLink s t l [] ∧ t.wmEvents = s.wmEvents))) ∧
      (s.linkUp l = true → 48 ≤ dest → dest ≠ 63 → Gives (.word m) s (fun t => t = s)) ∧
      (s.linkUp l = true → dest = 63 → HaltArrives (.word m) s l m.opA)))

/-- A dump of a tile has ended: the results of the tile and of its request, and no dump under way. -/
def Sys2Proof.Claims.DumpEnds (s t : State) (k : TileId) (request : Option Nat) (r : Nat) : Prop :=
  t.fld (.OBS_DP_CTRL k.val) F.OBS_DP_CTRL_BUSY = 0 ∧ t.fld (.OBS_DP_CTRL k.val) F.OBS_DP_CTRL_RESULT = r ∧ t.dump k = none ∧
    (∀ j, j ≠ k → t.dump j = s.dump j) ∧ ∀ n, request = some n → n < 16 → t.fld (.DUMP_CTRL n) F.DUMP_CTRL_RESULT = r

/-- What a dump point has started. -/
def Sys2Proof.Claims.DumpBegins (s t : State) (k : TileId) (request : Option Nat) (sched : Bool) (result : Option Nat) : Prop :=
  let n := request.getD 0
  let lines := s.fld (.OBS_DP_CTRL k.val) F.OBS_DP_CTRL_LINES
  t.fld (.OBS_DP_CTRL k.val) F.OBS_DP_CTRL_BUSY = 1 ∧ (∀ j, j ≠ k → t.dump j = s.dump j) ∧
    t.dump k = some ⟨request, sched, s.fld (.OBS_DP_SRC k.val) F.OBS_DP_SRC_LINE * 256, s.fld (.DUMP_DEST n) F.DUMP_DEST_LINE * 256,
      lines, min lines (s.fld (.DUMP_MAX n) F.DUMP_MAX_LINES), 0, s.turnNo.toNat * 1800 + min s.cycle 1799, s.timestamp, s.timestamp,
      s.fld (.OBS_DP_TAG k.val) F.OBS_DP_TAG_TAG, s.fld (.OBS_DP_STEP k.val) F.OBS_DP_STEP_STEP, (s.tile k).layer, (s.tile k).operator,
      result⟩

/-- Dump points, the flits of a dump and its end; hang snapshots. GO starts a dump with the lowest-numbered armed request
that its tag and step match, which it disarms; without one the result is NONE, without DUMP on the tile's field GATED and
refused, and a scheduled dump to lines that are not locked is ERROR. A flit writes the next line of the slab behind the
header's line, or the header last; a collision is MISS, a write that tier 1 refuses ERROR, and flits after a result or past
MAX leave nothing. DUMP_DONE ends it. A snapshot is refused while BUSY or outside context 0; it captures once, without the
fields that lack DUMP, and is written. -/
def Obligations.DumpsAndSnapshots : Prop :=
  (∀ (s : State) (k : TileId), Runs s →
    let dp := Reg.OBS_DP_CTRL k.val
    let tag := s.fld (.OBS_DP_TAG k.val) F.OBS_DP_TAG_TAG
    let step := s.fld (.OBS_DP_STEP k.val) F.OBS_DP_STEP_STEP
    let matches_ (n : Nat) : Prop := s.fld (.DUMP_CTRL n) F.DUMP_CTRL_ARM = 1 ∧ s.fld (.DUMP_CTRL n) F.DUMP_CTRL_TAG = tag ∧
      (s.fld (.DUMP_CTRL n) F.DUMP_CTRL_ANYSTEP = 1 ∨ s.fld (.DUMP_STEP n) F.DUMP_STEP_STEP = step)
    let allowed : Prop := s.capOn Cap.DUMP (s.leveeNibble .LV_TILE k.val) = true
    let sched := s.schedMode k
    let refused (t : State) : Prop := t.fld .OBS_STATUS F.OBS_STATUS_REFUSED = 1 ∧ Sends s t [⟨148, [], none⟩]
    let only (t : State) (rs : List Reg) : Prop := OnlyRegsEvents s { t with obs := s.obs } rs ∧ KeepsBytes s t ∧ { t.obs with dumps := s.obs.dumps } = s.obs
    (s.fld dp F.OBS_DP_CTRL_BUSY = 1 → Gives (.go k) s (fun t => t = s)) ∧
    (s.fld dp F.OBS_DP_CTRL_BUSY = 0 →
      ((∀ n ∈ List.range 16, ¬ matches_ n) →
        (sched = false → Gives (.go k) s (fun t => DumpEnds s t k none 0 ∧ only t [dp] ∧ Sends s t [])) ∧
        (sched = true → Gives (.go k) s (fun t => DumpBegins s t k none true (some 0) ∧ only t [dp] ∧ Sends s t []))) ∧
      (∀ n ∈ List.range 16, matches_ n → (∀ i ∈ List.range n, ¬ matches_ i) →
        let count := min (s.fld dp F.OBS_DP_CTRL_LINES) (s.fld (.DUMP_MAX n) F.DUMP_MAX_LINES)
        let locked : Prop := ∀ i ∈ List.range (count + 1), let a := s.fld (.DUMP_DEST n) F.DUMP_DEST_LINE * 256 + 256 * i
          placeOf a = .tier1 ∧ s.rotLocked a = true
        let disarmed (t : State) : Prop := t.fld (.DUMP_CTRL n) F.DUMP_CTRL_ARM = 0
        (sched = false → allowed → Gives (.go k) s (fun t => disarmed t ∧ DumpBegins s t k (some n) false none ∧ only t [dp, .DUMP_CTRL n] ∧
          Sends s t [])) ∧
        (sched = false → ¬ allowed → s.fld .TR_CTRL F.TR_CTRL_ENABLE = 0 → Gives (.go k) s (fun t => disarmed t ∧ refused t ∧
          DumpEnds s t k (some n) 4 ∧ only t [dp, .DUMP_CTRL n, .OBS_STATUS])) ∧
        (sched = true → ¬ allowed → Gives (.go k) s (fun t => disarmed t ∧ refused t ∧ DumpBegins s t k (some n) true (some 4) ∧
          only t [dp, .DUMP_CTRL n, .OBS_STATUS])) ∧
        (sched = true → allowed → ¬ locked → Gives (.go k) s (fun t => disarmed t ∧ DumpBegins s t k (some n) true (some 5) ∧
          only t [dp, .DUMP_CTRL n] ∧ Sends s t [])) ∧
        (sched = true → allowed → locked → Gives (.go k) s (fun t => disarmed t ∧ DumpBegins s t k (some n) true none ∧
          only t [dp, .DUMP_CTRL n] ∧ Sends s t []))))) ∧
  (∀ (s : State) (k : TileId) (collision : Bool), Runs s → s.memUE = [] → s.home.resv = [] →
    (s.dump k = none → Gives (.dumpFlitIssue k collision) s (fun t => t = s) ∧ Gives (.dumpDone k) s (fun t => t = s)) ∧
    (∀ d, s.dump k = some d →
      let i := d.next
      let line := d.dest + 256 + 256 * i
      let data := s.rdBytes (slabAddr k (d.src + 256 * i)) 256
      let code := if d.count < d.lines then 3 else 1
      let header := leBytes 3 d.tag ++ leBytes 1 code ++ leBytes 4 d.step ++ leBytes 2 k.val ++ leBytes 2 s.chipId ++
        leBytes 2 d.layer.toNat ++ leBytes 2 d.operator.toNat ++ leBytes 8 d.time.toNat ++ leBytes 4 d.count ++ leBytes 228 0
      let when_ := d.go + 8 + i * (s.fld (.OBS_DP_CTRL k.val) F.OBS_DP_CTRL_PACE + 1)
      let is (t : State) (last : Word64) (r : Option Nat) : Prop := t.dump k = some { d with next := i + 1, last := last, result := r } ∧
        (∀ j, j ≠ k → t.dump j = s.dump j) ∧ { t.obs with dumps := s.obs.dumps, counts := s.obs.counts } = s.obs
      let waits : Prop := d.lines < i ∨ (d.sched = true ∧ s.turnNo.toNat < when_ / 1800)
      let nothing : Prop := d.result ≠ none ∨ (d.count ≤ i ∧ i < d.lines)
      let to1 (a : Nat) : Prop := placeOf a = .tier1 ∧ s.ownerOk 0 a true = true
      (waits → Gives (.dumpFlitIssue k collision) s (fun t => t = s)) ∧
      (¬ waits → d.sched = false → nothing → Gives (.dumpFlitIssue k collision) s (fun t => is t d.last d.result ∧ OnlyObs s t [] ∧ KeepsBytes s t)) ∧
      (¬ waits → d.sched = false → ¬ nothing → i < d.count →
        (d.src + 256 * i < 0x600000 → to1 line → Gives (.dumpFlitIssue k collision) s (fun t => WritesAt s t line data ∧
          is t s.timestamp none ∧ OnlyObs s t [])) ∧
        (d.src + 256 * i < 0x600000 → ¬ to1 line → Gives (.dumpFlitIssue k collision) s (fun t => is t s.timestamp (some 5) ∧ OnlyObs s t [] ∧
          KeepsBytes s t)) ∧
        (0x600000 ≤ d.src + 256 * i → Gives (.dumpFlitIssue k collision) s (fun t => is t d.last (some 5) ∧ OnlyObs s t [] ∧ KeepsBytes s t))) ∧
      (¬ waits → d.sched = false → ¬ nothing → d.count ≤ i → to1 d.dest → Gives (.dumpFlitIssue k collision) s (fun t =>
        WritesAt s t d.dest header ∧ is t s.timestamp (some code) ∧ OnlyObs s t [])) ∧
      (¬ waits → d.sched = true → s.turnNo.toNat = when_ / 1800 → s.cycle ≤ when_ % 1800 →
        let only (t : State) : Prop := KeepsBytes s t ∧ t.cycle = when_ % 1800 ∧ OnlyObs { s with out := t.out } t [.TB_RAW, .TB_CYCLE]
        let leaves (t : State) (a : Nat) (bs : List Byte) : Prop := t.out = s.out ++ [.schedFlit ⟨schedStop a, 0, a, bs, none, true, false⟩]
        (nothing → Gives (.dumpFlitIssue k collision) s (fun t => is t d.last d.result ∧ only t ∧ t.out = s.out)) ∧
        (¬ nothing → collision = true → Gives (.dumpFlitIssue k collision) s (fun t => is t d.last (some 2) ∧ only t ∧ t.out = s.out ∧
          Sends s t [⟨146, [], none⟩])) ∧
        (¬ nothing → collision = false → i < d.count → d.src + 256 * i < 0x600000 → Gives (.dumpFlitIssue k collision) s (fun t =>
          leaves t line data ∧ is t t.timestamp none ∧ only t)) ∧
        (¬ nothing → collision = false → d.count ≤ i → Gives (.dumpFlitIssue k collision) s (fun t =>
          leaves t d.dest header ∧ is t t.timestamp (some code) ∧ only t))) ∧
      (let over_ : Prop := d.lines < d.next ∨ (d.sched = false ∧ d.result ≠ none)
      (¬ over_ → Gives (.dumpDone k) s (fun t => t = s)) ∧
      (over_ → s.fld .TR_CTRL F.TR_CTRL_ENABLE = 0 → d.result.getD 0 < 6 → (∀ n, d.request = some n → n < 16) →
        Gives (.dumpDone k) s (fun t => DumpEnds s t k d.request (d.result.getD 0) ∧ KeepsBytes s t ∧
          OnlyObs s t (.OBS_DP_CTRL k.val :: d.request.toList.map (fun n => .DUMP_CTRL n)))) ∧
      (over_ → s.fld .TR_CTRL F.TR_CTRL_ENABLE = 1 → (s.leveeNibble .LV_TILE k.val < 16 ∧ s.lifecycle = 0) → RingOpen s 1 → s.obs.gaps = [] →
        s.fld .TRACE_STATUS F.TRACE_STATUS_FROZEN = 0 → s.fld .TR_CTRL F.TR_CTRL_KEEP = 0 → ∀ n, d.request = some n → n < 16 → d.result.getD 0 < 6 →
        Gives (.dumpDone k) s (fun t => DumpEnds s t k d.request (d.result.getD 0) ∧ RingTakes s t (leBytes 1 6 ++ leBytes 1 0 ++
          leBytes 2 (3 * 2 ^ 13 + k.val * 128) ++ leBytes 2 d.layer.toNat ++ leBytes 2 d.operator.toNat ++ leBytes 8 d.time.toNat ++
          leBytes 8 d.last.toNat ++ leBytes 8 (d.tag + d.result.getD 0 * 2 ^ 24 + d.step * 2 ^ 32)))))) ) ∧
  (∀ s : State, Runs s →
    let base := s.fld .SNAP_BASE F.SNAP_BASE_REGION * 2 ^ 20
    let busy : Prop := s.fld .SNAP_CTRL F.SNAP_CTRL_BUSY = 1
    let gives (r : Nat) (t : State) : Prop := t.fld .SNAP_CTRL F.SNAP_CTRL_RESULT = r ∧ OnlyRegs s t [.SNAP_CTRL]
    let own : Prop := placeOf base = .tier1 ∧ (ownerIndex base).any (fun e => s.ownerEntry e % 256 == 0) = true
    (busy → Gives (.snapGo) s (gives 1)) ∧
    (¬ busy → ¬ own → Gives (.snapGo) s (gives 2)) ∧
    (¬ busy → own → Gives (.snapGo) s (fun t => t.fld .SNAP_CTRL F.SNAP_CTRL_BUSY = 1 ∧ t.obs = { s.obs with snap := true } ∧
      gives 0 { t with obs := s.obs })) ∧
    (s.obs.snap = false → Gives (.snapCapture) s (fun t => t = s)) ∧
    (s.obs.snap = true → Gives (.snapCapture) s (fun t => t.fresh = s.fresh + 1 ∧
      { t with fresh := s.fresh, obs := s.obs } = s ∧ ∃ c, t.obs.captured = some c ∧
      t.obs = { s.obs with snap := false, captured := some c } ∧ c.stamp = s.fresh ∧
      (List.range 18).map c.byte = leBytes 8 s.timestamp.toNat ++ leBytes 8 s.turnNo.toNat ++
        leBytes 2 (s.chipId + 512 * s.fld .TB_CHIP F.TB_CHIP_SIDE) ∧
      ∀ k : TileId,
        (s.capOn Cap.DUMP (s.leveeNibble .LV_TILE k.val) = true → ∀ n ∈ List.range 64,
          (List.range 8).map (fun i => c.byte (0x1000 + 0x4000 * k.val + 0x2800 + 8 * n + i)) = leBytes 8 (s.rd (.SQ_SIG k.val n)).toNat) ∧
        (s.capOn Cap.DUMP (s.leveeNibble .LV_TILE k.val) = false → ∀ i ∈ List.range 0x4000, c.byte (0x1000 + 0x4000 * k.val + i) = 0))) ∧
    (s.obs.captured = none → Gives (.snapDone) s (fun t => t = s)) ∧
    (∀ c, s.obs.captured = some c → placeOf base = .tier1 → s.ownerOk 0 base true = true → s.home.resv = [] → Gives (.snapDone) s (fun t =>
      (∀ i ∈ List.range 0x100000, t.rdByte (base + i) =
        if c.zeros.any (fun z => z.1 ≤ i && i < z.1 + z.2) = true then 0
        else (Assoc.get? c.bytes i).getD (BitVec.ofNat 8 (Config.freeBits c.stamp i))) ∧
      (∀ a, (a < base ∨ base + 0x100000 ≤ a) → t.rdByte a = s.rdByte a) ∧ t.fld .SNAP_CTRL F.SNAP_CTRL_BUSY = 0 ∧
      { t.obs with counts := s.obs.counts } = { s.obs with captured := none } ∧ OnlyObs s t [.SNAP_CTRL])))

/-- Only a stream of the headrace, registers of a list and events have changed. -/
def Sys2Proof.Claims.OnlyStream (s t : State) (n : Fin 16) (rs : List Reg) : Prop :=
  (∀ j, j ≠ n → t.stream j = s.stream j) ∧ { t.obs with streams := s.obs.streams } = s.obs ∧ OnlyRegsEvents s { t with obs := s.obs } rs

/-- A frame is discarded, with an error. -/
def Sys2Proof.Claims.FrameFails (s t : State) (n : Fin 16) : Prop :=
  t.stream n = { s.stream n with part := none, bad := true } ∧ t.fld .RACE_STATUS F.RACE_STATUS_FRAME_ERR = 1 ∧
    t.fld .HR_ERRORS F.HR_ERRORS_COUNT = min (2 ^ 32 - 1) (s.fld .HR_ERRORS F.HR_ERRORS_COUNT + 1) ∧ Sends s t [⟨147, [], none⟩] ∧
    OnlyStream s t n [.RACE_STATUS, .HR_ERRORS]

/-- The frame of a stream is as it was, with a packet more: it is assembled further, is complete, or is discarded for its length. -/
def Sys2Proof.Claims.FrameGrows (c : Instr) (s : State) (n : Fin 16) (f : Frame) (p : FramePacket) : Prop :=
  let g : Frame := ⟨f.number, f.bytes ++ p.payload, s.timestamp⟩
  let x := s.stream n
  (p.last = false → Gives c s (fun t => t.stream n = { x with part := some g, bad := false } ∧ OnlyStream s t n [] ∧ Sends s t [])) ∧
    (p.last = true → g.bytes.length = s.fld (.HR_SLEN n.val) F.HR_SLEN_LINES * 256 → Gives c s (fun t =>
      t.stream n = { x with part := none, bad := false, ready := x.ready ++ [g] } ∧ OnlyStream s t n [] ∧ Sends s t [])) ∧
    (p.last = true → g.bytes.length ≠ s.fld (.HR_SLEN n.val) F.HR_SLEN_LINES * 256 → Gives c s (fun t => FrameFails s t n))

/-- A delivery that goes wrong is counted, and raises the headrace's source. -/
def Sys2Proof.Claims.deliveryFails (s : State) : Nat := min (2 ^ 32 - 1) (s.fld .HR_ERRORS F.HR_ERRORS_COUNT + 1)

/-- The race port: modes, packets of records, frames, deliveries and the headrace map. MODE changes only to or from OFF. A
packet of up to 32 records leaves while TAILRACE lanes are aligned, DRAIN is set and TRACE is enabled everywhere; it frees
them. A packet of a frame extends the stream's frame; a bad CRC, a gap or a wrong length discards it, and so does a full
buffer, with OVERRUN. At a start turn the stream's first slot begins a delivery of its oldest frame, or one counted MISSING.
Its slots write the frame's lines to its buffer, then the status line, in a tile in scheduled mode that its context owns. Map
entries are written while the rotation is IDLE. -/
def Obligations.TheRacePort : Prop :=
  (∀ (s : State) (mode : BitVec 2), Runs s →
    let now := s.fld .RACE_CTRL F.RACE_CTRL_MODE
    let off (m : Nat) : Prop := m = 0 ∨ m = 3
    (¬ off now → ¬ off mode.toNat → Gives (.raceMode mode) s (fun t => t = s)) ∧
    (off now ∨ off mode.toNat → Gives (.raceMode mode) s (fun t => t.fld .RACE_CTRL F.RACE_CTRL_MODE = mode.toNat ∧
      t.fld .RACE_STATUS F.RACE_STATUS_LSTATE = (if off mode.toNat then 0 else 1) ∧ OnlyRegs s t [.RACE_CTRL, .RACE_STATUS])) ∧
    (∀ aligned : Bool,
      (off now → Gives (.raceLanesAligned aligned) s (fun t => t = s)) ∧
      (¬ off now → Gives (.raceLanesAligned aligned) s (fun t => t.fld .RACE_STATUS F.RACE_STATUS_LSTATE = (if aligned then 2 else 1) ∧
        OnlyRegs s t [.RACE_STATUS])))) ∧
  (∀ (s : State) (count : Nat), Runs s →
    let open_ : Prop := s.fld .RACE_CTRL F.RACE_CTRL_MODE = 1 ∧ s.fld .RACE_STATUS F.RACE_STATUS_LSTATE = 2 ∧ s.fld .TR_CTRL F.TR_CTRL_DRAIN = 1
    let allowed : Prop := s.lifecycle = 0 ∨ ∀ f ∈ List.range 16, s.capOn Cap.TRACE f = true
    let held := s.fld .TR_COUNT F.TR_COUNT_VALUE
    let head := s.fld .TR_HEAD F.TR_HEAD_VALUE
    let n := min (min count 32) held
    let base := s.fld .TR_BASE F.TR_BASE_REGION * 2 ^ 21
    let packet := leBytes 1 1 ++ leBytes 1 0 ++ leBytes 2 (32 * n) ++ leBytes 2 0 ++ leBytes 2 (s.chipId + 512 * s.fld .TB_CHIP F.TB_CHIP_SIDE) ++
      leBytes 8 ((s.rd .TR_TOTAL).toNat - held) ++ (List.range n).flatMap (fun i => s.rdBytes (base + 32 * ((head + i) % traceSize s)) 32)
    (¬ open_ → Gives (.tracePacketSend count) s (fun t => t = s)) ∧
    (open_ → ¬ allowed → Gives (.tracePacketSend count) s (fun t => t.fld .OBS_STATUS F.OBS_STATUS_REFUSED = 1 ∧ OnlyRegs s t [.OBS_STATUS])) ∧
    (open_ → allowed → n = 0 → Gives (.tracePacketSend count) s (fun t => t = s)) ∧
    (open_ → allowed → n ≠ 0 → Gives (.tracePacketSend count) s (fun t => t.out = s.out ++ [.race (packet ++ leBytes 4 (crc32 packet))] ∧
      t.fld .TR_HEAD F.TR_HEAD_VALUE = (head + n) % traceSize s ∧ t.fld .TR_COUNT F.TR_COUNT_VALUE = held - n ∧
      OnlyRegs s { t with out := s.out } [.TR_HEAD, .TR_COUNT]))) ∧
  (∀ (s : State) (p : FramePacket), Runs s →
    let c := Instr.framePacket p
    let n := p.stream
    let x := s.stream n
    let on : Prop := s.fld .RACE_CTRL F.RACE_CTRL_MODE = 2 ∧ s.fld .RACE_STATUS F.RACE_STATUS_LSTATE = 2 ∧ s.fld (.HR_SCFG n.val) F.HR_SCFG_ENABLE = 1
    let buffered := s.arrivalBytes + p.payload.length
    let overrun (t : State) : Prop := FrameFails s t n ∧ t.fld .RACE_STATUS F.RACE_STATUS_OVERRUN = 1
    (¬ on → Gives c s (fun t => t = s)) ∧
    (on → p.crcOk = false → (x.bad = true → Gives c s (fun t => t = s)) ∧ (x.bad = false → Gives c s (fun t => FrameFails s t n))) ∧
    (on → p.crcOk = true → p.first = true → x.part = none →
      (p.offset ≠ 0 → Gives c s (fun t => FrameFails s t n)) ∧
      (p.offset = 0 → 4194304 < buffered → Gives c s overrun) ∧
      (p.offset = 0 → buffered ≤ 4194304 → FrameGrows c s n ⟨p.frame, [], 0⟩ p)) ∧
    (on → p.crcOk = true → p.first = true → x.part ≠ none → p.offset = 0 → p.last = false → s.arrivalBytes + p.payload.length ≤ 4194304 →
      Gives c s (fun t => t.stream n = { x with part := some ⟨p.frame, p.payload, s.timestamp⟩, bad := false } ∧
        t.fld .HR_ERRORS F.HR_ERRORS_COUNT = deliveryFails s ∧ t.fld .RACE_STATUS F.RACE_STATUS_FRAME_ERR = 1 ∧ Sends s t [⟨147, [], none⟩] ∧
        OnlyStream s t n [.RACE_STATUS, .HR_ERRORS])) ∧
    (on → p.crcOk = true → p.first = false → x.part = none →
      (x.bad = true → Gives c s (fun t => t = s)) ∧ (x.bad = false → Gives c s (fun t => FrameFails s t n))) ∧
    (on → p.crcOk = true → p.first = false → ∀ f, x.part = some f →
      let next : Prop := p.offset = f.bytes.length ∧ p.frame = f.number
      (¬ next → Gives c s (fun t => FrameFails s t n)) ∧
      (next → 4194304 < buffered → Gives c s overrun) ∧
      (next → buffered ≤ 4194304 → x.bad = false → FrameGrows c s n f p))) ∧
  (∀ (s : State) (n : Fin 16), Runs s →
    let c := Instr.headraceDeliveryStart n
    let x := s.stream n
    let index := (s.turnNo - s.rot.start).toNat % (s.fld .ROT_PERIOD F.ROT_PERIOD_PERIOD_M1 + 1)
    let on : Prop := s.fld .RACE_CTRL F.RACE_CTRL_MODE = 2 ∧ s.rotRunning = true ∧ s.fld (.HR_SCFG n.val) F.HR_SCFG_ENABLE = 1
    let starts : Prop := ∃ j ∈ List.range (s.fld (.HR_SCFG n.val) F.HR_SCFG_NSTART_M1 + 1), s.fld (.HR_SSTART n.val j) F.HR_SSTART_INDEX = index
    let due : Prop := on ∧ starts ∧ x.started ≠ some s.turnNo ∧ s.hrSlots n ≠ []
    (¬ due → Gives c s (fun t => t = s)) ∧
    (due → ∀ slot, (s.hrSlots n).head? = some slot → s.cycle ≤ 5 * slot → Gives c s (fun t =>
      t.cycle = 5 * slot ∧ t.rd .TB_RAW = s.rd .TB_RAW + BitVec.ofNat 64 (5 * slot - s.cycle) ∧
      t.stream n = { x with ready := x.ready.drop 1, count := x.count + 1, started := some s.turnNo,
                            delivery := some ⟨x.count, x.ready.head?, 0, s.turnNo⟩ } ∧
      (x.delivery ≠ none → t.fld .HR_ERRORS F.HR_ERRORS_COUNT = deliveryFails s) ∧
      (x.delivery = none → t.rd .HR_ERRORS = s.rd .HR_ERRORS) ∧
      (x.ready = [] → t.fld .HR_MISSING F.HR_MISSING_COUNT = min (2 ^ 32 - 1) (s.fld .HR_MISSING F.HR_MISSING_COUNT + 1)) ∧
      (x.ready ≠ [] → t.rd .HR_MISSING = s.rd .HR_MISSING) ∧
      Sends s t ((if x.delivery = none then [] else [⟨147, [], none⟩]) ++ (if x.ready = [] then [⟨147, [], none⟩] else [])) ∧
      OnlyStream s t n [.TB_RAW, .TB_CYCLE, .HR_ERRORS, .HR_MISSING]))) ∧
  (∀ (s : State) (n : Fin 16), Runs s → s.home.resv = [] → s.memUE = [] →
    let c := Instr.headraceFlit n
    let slots := s.hrSlots n
    let lines := s.fld (.HR_SLEN n.val) F.HR_SLEN_LINES
    ((s.stream n).delivery = none → Gives c s (fun t => t = s)) ∧
    (∀ d, (s.stream n).delivery = some d →
      let turn := d.turn.toNat + d.next / max 1 slots.length
      let slot := slots.getD (d.next % slots.length) 0
      let buf := s.fld (.HR_SBASE n.val) F.HR_SBASE_LINE * 256 + d.number % (s.fld (.HR_SCFG n.val) F.HR_SCFG_NBUF_M1 + 1) * (lines + 1) * 256
      let off := if d.next < lines then buf + 256 + 256 * d.next else buf
      let waits : Prop := s.fld .RACE_CTRL F.RACE_CTRL_MODE ≠ 2 ∨ slots = [] ∨ s.turnNo.toNat < turn
      let ctx := BitVec.ofNat 8 (s.fld (.HR_SCFG n.val) F.HR_SCFG_CTX)
      let head := match d.frame with
        | some f => leBytes 2 f.number.toNat ++ leBytes 1 0 ++ leBytes 1 0 ++ leBytes 8 f.time.toNat
        | none => leBytes 2 0 ++ leBytes 1 1 ++ leBytes 1 0 ++ leBytes 8 0
      let status := leBytes 4 d.number ++ head ++ leBytes 8 d.turn.toNat ++ leBytes 232 0
      let bytes := if d.next < lines then ((d.frame.map (fun f => (f.bytes.drop (256 * d.next)).take 256)).getD []) else status
      let after (t : State) (rs : List Reg) : Prop :=
        t.stream n = { s.stream n with delivery := if d.next < lines then some { d with next := d.next + 1 } else none } ∧
        (∀ j, j ≠ n → t.stream j = s.stream j) ∧ { t.obs with streams := s.obs.streams, counts := s.obs.counts } = s.obs ∧
        (d.next < lines → t.rd .HR_FRAMES = s.rd .HR_FRAMES) ∧
        (lines ≤ d.next → t.fld .HR_FRAMES F.HR_FRAMES_COUNT = if d.frame = none then s.fld .HR_FRAMES F.HR_FRAMES_COUNT
          else min (2 ^ 32 - 1) (s.fld .HR_FRAMES F.HR_FRAMES_COUNT + 1)) ∧
        OnlyObs s t ([.TB_RAW, .TB_CYCLE, .HR_FRAMES] ++ rs)
      let fails (t : State) (es : List WmEvent) (rs : List Reg) : Prop := t.fld .HR_ERRORS F.HR_ERRORS_COUNT = deliveryFails s ∧
        Sends s t (es ++ [⟨147, [], none⟩]) ∧ KeepsBytes s t ∧ after t (.HR_ERRORS :: rs)
      (waits → Gives c s (fun t => t = s)) ∧
      (¬ waits → s.turnNo.toNat = turn → s.cycle ≤ 5 * slot →
        (d.next < lines → d.frame = none → Gives c s (fun t => t.cycle = 5 * slot ∧ KeepsBytes s t ∧ Sends s t [] ∧ after t [])) ∧
        (¬ (d.next < lines ∧ d.frame = none) →
          (48 ≤ s.fld (.HR_SCFG n.val) F.HR_SCFG_TILE → Gives c s (fun t => t.cycle = 5 * slot ∧ fails t [] [])) ∧
          (∀ k : TileId, s.fld (.HR_SCFG n.val) F.HR_SCFG_TILE = k.val →
            (0x600000 ≤ off → Gives c s (fun t => t.cycle = 5 * slot ∧ fails t [] [])) ∧
            (off < 0x600000 → s.schedMode k = false → Gives c s (fun t => fails t [⟨9, [ctx], some k.val⟩] [])) ∧
            (off < 0x600000 → s.schedMode k = true → s.slabOwned k ctx off = false → Gives c s (fun t =>
              fails t [⟨21, [ctx], none⟩] [.OT_REFUSALS, .OT_FIRST])) ∧
            (off < 0x600000 → s.schedMode k = true → s.slabOwned k ctx off = true → Gives c s (fun t => t.cycle = 5 * slot ∧
              WritesAt s t (slabAddr k off) bytes ∧ Sends s t [] ∧ after t []))))))) ∧
  (∀ (s : State) (v : Word32), Runs s →
    let i := s.fld .HR_MAPADDR F.HR_MAPADDR_SLOT
    let idle : Prop := s.fld .ROT_STATUS F.ROT_STATUS_STATE = 0
    (¬ idle → Gives (.hrMapdataWrite v) s (fun t => t.fld .RACE_STATUS F.RACE_STATUS_MAP_WERR = 1 ∧ OnlyRegs s t [.RACE_STATUS])) ∧
    (idle → Gives (.hrMapdataWrite v) s (fun t =>
      (∀ j, (Assoc.get? t.obs.hrMap j).getD 0 = if j = i ∧ i < 360 then (v &&& 0x800F).setWidth 16 else (Assoc.get? s.obs.hrMap j).getD 0) ∧
      t.fld .HR_MAPADDR F.HR_MAPADDR_SLOT = (if s.fld .HR_MAPADDR F.HR_MAPADDR_AUTOINC = 0 then i else if 359 ≤ i then 0 else i + 1) ∧
      { t.obs with hrMap := s.obs.hrMap } = s.obs ∧ OnlyRegs s { t with obs := s.obs } [.HR_MAPADDR])))

/-- The line at a window offset, by local address. -/
def Sys2Proof.Claims.windowLine (s : State) (w : Nat) : Nat := s.fld .CUL_BASE F.CUL_BASE_GIB * 2 ^ 30 + w / 64 * 64

/-- The culvert shows the window to host port p, whose link is up, and the line at offset w lies in tier 1 in a granule in host bias; its
home is open, nothing holds the line, and the culvert's context may write it (R366, R414). -/
def Sys2Proof.Claims.HostSees (s : State) (p : HostPortId) (w : Nat) : Prop :=
  Runs s ∧ s.groupUp p.val = true ∧ s.ideBars p.val = false ∧ s.safe = false ∧ s.twinActive = false ∧ s.chipId = 0 ∧
    s.fld .CUL_CTRL F.CUL_CTRL_ENABLE = 1 ∧ s.fld .CUL_CTRL F.CUL_CTRL_CTX = 0 ∧ s.revoked 0 = false ∧ s.home.culvert = none ∧
    windowLine s w < 0x9000000000 ∧ w < 2 ^ 36 ∧ w / 2 ^ 16 ∈ s.home.hostBias ∧ s.home.flips = [] ∧ s.agentDead (72 + p.val) = false ∧
    s.fld (.RSV_WEIR (homeSlice (windowLine s w)).val) F.RSV_WEIR_CAP = 0 ∧ s.zeroing = [] ∧ s.rst.phase = .none ∧
    s.home.txns = [] ∧ s.home.held = [] ∧ s.home.dirUE = [] ∧ s.untracked (windowLine s w) = false ∧
    s.dirFind (windowLine s w) = none ∧ s.ownerOk 0 (windowLine s w) true = true ∧ s.rotLocked (windowLine s w) = false

/-- A refusal at host port p with a cause for a line is counted, recorded when it is the first, and raises the port's source (R423). -/
def Sys2Proof.Claims.PortRefuses (s t : State) (p : HostPortId) (cause line : Nat) : Prop :=
  t.fld .HP_REFUSE F.HP_REFUSE_COUNT = min (2 ^ 32 - 1) (s.fld .HP_REFUSE F.HP_REFUSE_COUNT + 1) ∧
    (s.fld .HP_REFFIRST F.HP_REFFIRST_VALID = 0 → t.fld .HP_REFFIRST F.HP_REFFIRST_VALID = 1 ∧
      t.fld .HP_REFFIRST F.HP_REFFIRST_PORT = p.val ∧ t.fld .HP_REFFIRST F.HP_REFFIRST_CAUSE = cause ∧
      t.fld .HP_REFFIRST F.HP_REFFIRST_LINE = line / 64 % 2 ^ 37) ∧
    (s.fld .HP_REFFIRST F.HP_REFFIRST_VALID = 1 → t.rd .HP_REFFIRST = s.rd .HP_REFFIRST) ∧
    Sends s t [⟨72 + 5 * p.val, [], none⟩]

/-- Host requests through the culvert, its registers and moves, host snoops and the answers of a host. A host read of a line
that nobody holds in a granule in host bias gets its data: without a copy, shared, or exclusive as its metaValue asks; a host
write is performed and completed. While the culvert is disabled a read gets all ones, a write Cmp, and the refusal is
recorded; during a move a request waits. CUL_CTRL.ENABLE is taken from rider cores 0 and 1 only, and not with CTX 0. A move
is refused as BUSY, BAD_ARG or LOCKED, or starts and ends with the new base and every granule in device bias; a disable ends
with ENABLE 0. A snoop is answered from the rider cluster's host lines; Cache Writeback and Invalidate writes the modified
ones and drops all. GO ends a write that has left. A peer read that times out is refused with PORT. -/
def Obligations.HostAccesses : Prop :=
  (∀ (s : State) (p : HostPortId) (off : BitVec 36), Runs s →
    let w := off.toNat / 64 * 64
    let line := windowLine s off.toNat
    let msg (op : Nat) (txn : BitVec 12) : CohMsg := s.hostMsg p op w txn
    (s.groupUp p.val = false → (∀ v, Gives (.hostMemRead p off v) s (fun t => t = s)) ∧
      (∀ m d, Gives (.hostMemWrite p off m d) s (fun t => t = s))) ∧
    (HostSees s p off.toNat →
      ∀ l, s.resLine line = some l → l.addr = line → l.bytes.length = 64 → l.parity = false → ∀ k, s.dirWay line = .way k →
      (Gives (.hostMemRead p off 0) s (fun t => Grants s t (msg 4 0) 0 l.bytes ∧ KeepsBytes s t ∧ OnlyHome s t [])) ∧
      (Gives (.hostMemRead p off 3) s (fun t => Grants s t (msg 1 0) 1 l.bytes ∧ KeepsBytes s t ∧ OnlyHome s t [])) ∧
      (Gives (.hostMemRead p off 2) s (fun t => Grants s t (msg 2 0) 2 l.bytes ∧ KeepsBytes s t ∧ OnlyHome s t [])) ∧
      (∀ (mask : Word64) (data : List Byte), data.length = 64 → Gives (.hostMemWrite p off mask data) s (fun t =>
        SendsCoh s t (fun a => Answers (msg 6 1) a 0x42) ∧ t.home.txns = [] ∧
        (∀ i, i < 64 → t.rdByte (line + i) = if mask.getLsbD i then data.getD i 0 else s.rdByte (line + i)) ∧
        (∀ a, (a < line ∨ line + 64 ≤ a) → t.rdByte a = s.rdByte a) ∧ OnlyHome s t []))) ∧
    (s.groupUp p.val = true → s.ideBars p.val = false → s.fld .CUL_CTRL F.CUL_CTRL_ENABLE = 0 →
      let regs : List Reg := [.HP_REFUSE, .HP_REFFIRST]
      (∀ v, Gives (.hostMemRead p off v) s (fun t => PortRefuses s t p 3 w ∧ KeepsRegs s t regs ∧ KeepsBytes s t ∧
        t.out = s.out ++ [.port p.val (.readData (List.replicate 64 0xFF))] ∧ t.home = s.home)) ∧
      (∀ m d, Gives (.hostMemWrite p off m d) s (fun t => PortRefuses s t p 3 w ∧ KeepsRegs s t regs ∧ KeepsBytes s t ∧
        t.out = s.out ++ [.port p.val .cmp] ∧ t.home = s.home))) ∧
    (s.groupUp p.val = true → s.hostBarred p true = none → s.home.culvert ≠ none → s.dirFind line = none →
      Gives (.hostMemRead p off 0) s (fun t => t = { s with hostWait := s.hostWait ++ [{ msg 4 0 with addr := BitVec.ofNat 64 w }] }))) ∧
  (∀ (s : State) (by_ : Requester) (ctx : Byte), Runs s →
    let manager : Prop := by_ = .rider 0 ∨ by_ = .rider 1
    let on : Prop := s.fld .CUL_CTRL F.CUL_CTRL_ENABLE = 1
    (¬ manager ∨ on → Gives (.culvertEnable by_ ctx) s (fun t => t = s)) ∧
    (manager → ¬ on → ctx = 0 → Gives (.culvertEnable by_ ctx) s (fun t =>
      t.fld .CUL_STATUS F.CUL_STATUS_ERR = 1 ∧ OnlyRegs s t [.CUL_STATUS])) ∧
    (manager → ¬ on → ctx ≠ 0 → s.pf0.hdmBase = 0 → s.companion.hdmBase = 0 → Gives (.culvertEnable by_ ctx) s (fun t =>
      t.fld .CUL_CTRL F.CUL_CTRL_ENABLE = 1 ∧ t.fld .CUL_CTRL F.CUL_CTRL_CTX = ctx.toNat ∧ OnlyRegs s t [.CUL_CTRL]))) ∧
  (∀ (s : State), Runs s → s.home.dir = [] →
    let g := s.fld .CUL_MOVE F.CUL_MOVE_TARGET
    let refused (result : Nat) (t : State) : Prop := t.fld .CUL_STATUS F.CUL_STATUS_RESULT = result ∧ OnlyRegs s t [.CUL_STATUS]
    (s.home.culvert ≠ none → Gives (.culvertMove) s (refused 1) ∧ Gives (.culvertDisable) s (fun t => t = s)) ∧
    (s.home.culvert = none → 576 < g + 64 → (∀ k, k < 4 → s.fld (.T2_STATUS k) F.T2_STATUS_STATE ≠ 1) →
      Gives (.culvertMove) s (refused 2)) ∧
    (s.home.culvert = none → g + 64 ≤ 576 →
      (∀ n, n < 64 → s.fld (.LOCK n) F.LOCK_VALID = 1 → s.fld (.LOCK n) F.LOCK_START < g * 2 ^ 14 + 2 ^ 20 →
        g * 2 ^ 14 < s.fld (.LOCK n) F.LOCK_START + s.fld (.LOCK n) F.LOCK_COUNT → Gives (.culvertMove) s (refused 3)) ∧
      (s.home.bias = none → (∀ n, n < 64 → s.fld (.LOCK n) F.LOCK_VALID = 0) → Gives (.culvertMove) s (fun t =>
        t.fld .CUL_STATUS F.CUL_STATUS_BUSY = 1 ∧ t.home = { s.home with culvert := some (some g) } ∧
        OnlyRegs s { t with home := s.home } [.CUL_STATUS]))) ∧
    (s.fld .CUL_CTRL F.CUL_CTRL_ENABLE = 0 → Gives (.culvertDisable) s (fun t => t = s)) ∧
    (s.fld .CUL_CTRL F.CUL_CTRL_ENABLE = 1 → s.home.culvert = none → Gives (.culvertDisable) s (fun t =>
      t.fld .CUL_STATUS F.CUL_STATUS_BUSY = 1 ∧ t.home = { s.home with culvert := some none } ∧
      OnlyRegs s { t with home := s.home } [.CUL_STATUS])) ∧
    (s.home.culvert = none → Gives (.culvertMoveDone) s (fun t => t = s)) ∧
    (s.home.flips = [] → s.home.txns = [] →
      (∀ x, s.home.culvert = some x → ∀ to_, x = some to_ → s.hostWait = [] → Gives (.culvertMoveDone) s (fun t =>
        t.fld .CUL_BASE F.CUL_BASE_GIB = to_ % 2 ^ 13 ∧ t.fld .CUL_STATUS F.CUL_STATUS_BUSY = 0 ∧ t.fld .CUL_STATUS F.CUL_STATUS_RESULT = 0 ∧
        t.home = { s.home with culvert := none, hostBias := [] } ∧
        OnlyRegs s { t with home := s.home } [.CUL_BASE, .CUL_STATUS, .BIAS_STATUS])) ∧
      (s.home.culvert = some none → s.hostWait = [] → Gives (.culvertMoveDone) s (fun t =>
        t.fld .CUL_CTRL F.CUL_CTRL_ENABLE = 0 ∧ t.fld .CUL_STATUS F.CUL_STATUS_BUSY = 0 ∧ t.home = { s.home with culvert := none } ∧
        OnlyRegs s { t with home := s.home } [.CUL_CTRL, .CUL_STATUS])) ∧
      (s.home.culvert = some none → ∀ m, s.hostWait.head? = some m → s.hostWait.length = 1 → m.txn = 0 → Gives (.culvertMoveDone) s (fun t =>
        PortRefuses s t (hostOf m.srcAgent) 3 m.addr.toNat ∧ t.hostWait = [] ∧ t.fld .CUL_CTRL F.CUL_CTRL_ENABLE = 0 ∧
        t.out = s.out ++ [.port (hostOf m.srcAgent).val (.readData (List.replicate 64 0xFF))] ∧ KeepsBytes s t)))) ∧
  (∀ (s : State) (p : HostPortId) (addr : Word64) (kind : HostSnoop), Runs s →
    let line := addr.toNat / 64 * 64
    let mine (x : HostPortId × RiderLine) : Bool := x.1 == p && x.2.addr == line
    (s.groupUp p.val = false → Gives (.h2dSnoop p addr kind) s (fun t => t = s)) ∧
    (s.groupUp p.val = true → s.boot.hostLines.find? mine = none → s.hostWrites = [] →
      Gives (.h2dSnoop p addr kind) s (fun t => t = { s with out := s.out ++ [.port p.val (.snoopRsp none)] })) ∧
    (s.groupUp p.val = true → ∀ x, s.boot.hostLines.find? mine = some x →
      Gives (.h2dSnoop p addr kind) s (fun t =>
        t.out = s.out ++ [.port p.val (.snoopRsp (if x.2.dirty then some x.2.bytes else none))] ∧
        (kind = .snpInv → t.boot.hostLines = s.boot.hostLines.filter (fun y => !mine y)) ∧
        (kind = .snpData → t.boot.hostLines.length = s.boot.hostLines.length ∧ ∀ y ∈ t.boot.hostLines, mine y = true → y.2.dirty = false) ∧
        (kind = .snpCur → t.boot = s.boot) ∧ { t with out := s.out, boot := s.boot } = s))) ∧
  (∀ (s : State) (p : HostPortId), Runs s → s.safe = false → (∀ x ∈ s.boot.hostLines, x.2.bytes ≠ []) →
    let f : FunctionId := if p.val = 0 then .pf0 else .companion
    Gives (.cacheWritebackInvalidate p) s (fun t =>
      t.boot.hostLines = s.boot.hostLines.filter (fun x => x.1 != p) ∧ t.func f = { s.func f with cacheInvalid := true } ∧
      t.hostWrites.map (fun x => (x.port, x.src, x.addr, x.bytes.map (fun b => b.2))) =
        s.hostWrites.map (fun x => (x.port, x.src, x.addr, x.bytes.map (fun b => b.2))) ++
          (s.boot.hostLines.filter (fun x => x.1 == p && x.2.dirty)).map (fun x => (p, HostSrc.rider x.2.core, x.2.addr, x.2.bytes)) ∧
      KeepsRegs s t [] ∧ KeepsBytes s t)) ∧
  (∀ (s : State) (p : HostPortId) (id : Nat), Runs s → s.msixWait = [] →
    (s.hostWrites.find? (fun w => w.id == id && w.port == p && w.released && !w.peer) = none →
      Gives (.hostGo p id) s (fun t => t = s)) ∧
    (∀ w, s.hostWrites.find? (fun w => w.id == id && w.port == p && w.released && !w.peer) = some w →
      let rest := s.hostWrites.filter (fun x => x.id != id)
      (w.src = .block → Gives (.hostGo p id) s (fun t => t = { s with hostWrites := rest })) ∧
      (∀ e : EngineId, w.src = .engine e → Gives (.hostGo p id) s (fun t =>
        t = { s with hostWrites := rest, out := s.out ++ [.engine e .goI] })))) ∧
  (∀ (s : State) (g : GroupId) (i : Nat), Runs s → s.tileHolds g.tile = false → ∀ gr, s.group g = some gr →
    ((s.core g.tile g.core).findLoad i = none → Gives (.peerReadTimeout g i) s (fun t => t = s)) ∧
    (∀ q, (s.core g.tile g.core).findLoad i = some q → q.1 = some g.slot → q.2.vd ≠ 255 → q.2.lanes ≠ [] →
      (∀ x ∈ q.2.lanes, x.tgt.cls = .peer ∧ x.sent = true ∧ x.val = none) →
      let r : LateRec := { q.2.late with cause := 3, addr := (q.2.lanes.head?.map (fun x => x.va)).getD q.2.late.addr }
      Gives (.peerReadTimeout g i) s (fun t => ∃ u, t.group g = some u ∧ u.loads = gr.loads.filter (fun x => x.id ≠ i) ∧
        u.marks = gr.marks ++ (q.2.live.filter (fun x => x.2 ≠ 0)).map (fun x => ⟨x.1, x.2, r⟩) ∧ u.late = gr.late ∧ u.v = gr.v ∧
        u.pc = gr.pc ∧ KeepsRegs s t [] ∧ KeepsBytes s t)))

/-- No unit but the block itself has writes toward a host, nothing is read from one, and no home has an open transaction. -/
def Sys2Proof.Claims.QuietPorts (s : State) : Prop :=
  (∀ w ∈ s.hostWrites, w.src = .block) ∧ s.msixWait = [] ∧ s.home.txns = [] ∧ (∀ e ∈ s.home.dir, e.state = .shared) ∧
    (∀ (k : TileId) (c : CoreId), (s.core k c).orphanLoads = [] ∧
      ∀ (i : SlotId) (gr : Group), (s.core k c).group i = some gr → gr.loads = []) ∧
    (∀ (k : TileId) (c : ChanId), (s.chan k c).flight = []) ∧ s.xl.faults = [] ∧ s.xl.refused = []

/-- Host port p, which nothing but the block uses, has detached with a cause (R456): AT_STATE says so, the attach generation and the
time are recorded, source 125 is raised, its agent is dead, the writes toward it are gone, and memory is as it was. -/
def Sys2Proof.Claims.Detaches (s t : State) (p : HostPortId) (cause : Nat) : Prop :=
  (if p.val = 0 then t.fld .AT_STATE F.AT_STATE_PORT0 = 1 ∧ t.fld .AT_STATE F.AT_STATE_CAUSE0 = cause
    else t.fld .AT_STATE F.AT_STATE_PORT1 = 1 ∧ t.fld .AT_STATE F.AT_STATE_CAUSE1 = cause) ∧
    t.fld .AT_GEN F.AT_GEN_GEN = (s.fld .AT_GEN F.AT_GEN_GEN + 1) % 2 ^ 32 ∧ t.rd .AT_TIME = s.timestamp ∧
    ⟨125, [], none⟩ ∈ t.wmEvents ∧ t.agentDead (72 + p.val) = true ∧ (∀ w ∈ t.hostWrites, w.port ≠ p) ∧ KeepsBytes s t

/-- Nothing but the functions of the host ports has changed. -/
def Sys2Proof.Claims.OnlyFuncs (s t : State) : Prop := { t with pf0 := s.pf0, vfs := s.vfs, companion := s.companion } = s

/-- Configuration writes, MSI-X, power states, function-level resets, detachment and links of the host ports. A configuration
write that the port takes sets its field of that function alone. A vector that can be sent is sent once, any other becomes
pending, and one that waits for its unit's writes is noted. D3hot entry with no write toward port 0 left holds the port; D0
ends it. An FLR of PF0 or of a shown VF revokes the contexts of the VFs, or of that VF, and runs until FLR_COMPLETE. A port
that detaches while nothing but the block uses it records it, its agent is dead and the writes toward it are lost; a hot
reset, viral, an IDE failure and a link that goes down do this with their own causes, bits and events, and a group of tier 2
loses its memory. A group with a role trains; a retraining only raises its event. IDE keys of both streams that go make the
group SECURE. -/
def Obligations.HostFunctionsAndPorts : Prop :=
  (∀ (s : State) (f : FunctionId), Runs s →
    let port : Nat := if f = .companion then 1 else 0
    let takes : Prop := s.groupUp port = true ∧ s.fld .LV_CTRL F.LV_CTRL_CLOSED = 1 ∧ s.boot.scrub = false ∧ s.funcShown f = true ∧
      (s.func f).flr = false ∧ s.pf0.flr = false
    let vf : Prop := f ≠ .pf0 ∧ f ≠ .companion
    let is (a : ConfigWrite) (x : Func) : Prop := Gives (.configWrite f a) s (fun t => t.func f = x ∧
      (∀ g, g ≠ f → t.func g = s.func g) ∧ OnlyFuncs s t)
    (¬ takes → ∀ a, Gives (.configWrite f a) s (fun t => t = s)) ∧
    (takes → (s.func f).pend = [] →
      (∀ v, is (.memorySpace v) { s.func f with memSpace := v } ∧ is (.busMaster v) { s.func f with busMaster := v }) ∧
      (∀ v, is (.completionTimeout v) { s.func f with cplTimeout := v }) ∧
      (¬ vf → (∀ v, is (.cacheEnable v) { s.func f with cacheEnable := v }) ∧ is .viralStatusClear { s.func f with viralStatus := false } ∧
        (∀ v, is (.hdmBase v) { s.func f with hdmBase := v }) ∧
        (∀ i v, (f = .pf0 ∨ i = 0) → is (.bar i v) { s.func f with bars := (s.func f).bars.set i.val v i.isLt })) ∧
      (f ≠ .companion → ∀ v, is (.msixEnable v) { s.func f with msixEnable := v } ∧ is (.msixFunctionMask v) { s.func f with msixMask := v }) ∧
      (f = .pf0 → (∀ v, is (.pmeEn v) { s.pf0 with pmeEn := v } ∧ is (.vfEnable v) { s.pf0 with vfEnable := v }) ∧
        is .pmeStatusClear { s.pf0 with pmeStatus := false } ∧ (∀ n, is (.numVfs n) { s.pf0 with numVfs := n.toNat })) ∧
      (f ≠ .pf0 → is (.powerState true) { s.func f with d3 := true }))) ∧
  (∀ (s : State) (f : FunctionId) (v : BitVec 11), Runs s → s.safe = false → s.twinActive = false →
    let x := s.func f
    let can : Prop := x.msixEnable = true ∧ x.msixMask = false ∧ x.d3 = false ∧ v.toNat ∈ x.unmasked
    let sent (t : State) : Prop := t.out = s.out ++ [.msix f v.toNat]
    (v.toNat ∈ x.pend → can → Gives (.msixUnmask f v) s (fun t => sent t ∧ t.func f = { x with pend := x.pend.erase v.toNat } ∧
      OnlyFuncs s { t with out := s.out })) ∧
    (v.toNat ∉ x.pend ∨ ¬ can → Gives (.msixUnmask f v) s (fun t => t = s)) ∧
    (f = .companion ∨ (f ≠ .pf0 ∧ 32 ≤ v.toNat) → Gives (.msixRequest f v) s (fun t => t = s)) ∧
    (f ≠ .companion → (f = .pf0 ∨ v.toNat < 32) →
      (s.hostWrites = [] →
        (v.toNat ∈ x.pend → Gives (.msixRequest f v) s (fun t => t = s)) ∧
        (v.toNat ∉ x.pend → can → Gives (.msixRequest f v) s (fun t => sent t ∧ { t with out := s.out } = s)) ∧
        (v.toNat ∉ x.pend → ¬ can → Gives (.msixRequest f v) s (fun t => t.func f = { x with pend := x.pend ++ [v.toNat] } ∧ OnlyFuncs s t))) ∧
      (∀ w, s.hostWrites.head? = some w → s.hostWrites.length = 1 → w.src = .block → Gives (.msixRequest f v) s (fun t =>
        t = { s with msixWait := s.msixWait ++ [⟨f, v.toNat, [w.id]⟩] })))) ∧
  (∀ (s : State), Runs s →
    (s.pf0.d3 = false → s.pf0.flr = false → (∀ w ∈ s.hostWrites, w.port ≠ 0) →
      Gives (.d3hotEntry) s (fun t => t.pf0 = { s.pf0 with d3 := true } ∧
        (s.fld .AT_STATE F.AT_STATE_PORT0 = 0 → t.fld .AT_STATE F.AT_STATE_PORT0 = 2 ∧ t.fld .AT_STATE F.AT_STATE_CAUSE0 = 5) ∧
        OnlyRegs s { t with pf0 := s.pf0, heads := s.heads } [.AT_STATE])) ∧
    (s.pf0.d3 = true ∨ s.pf0.flr = true → Gives (.d3hotEntry) s (fun t => t = s)) ∧
    (s.pf0.d3 = true → s.heads.list = [] → s.pf0.pend = [] → Gives (.d0Return) s (fun t => t = { s with pf0 := { s.pf0 with d3 := false } })) ∧
    (s.pf0.d3 = false → Gives (.d0Return) s (fun t => t = s))) ∧
  (∀ (s : State), Runs s →
    let owned (c : Byte) (p : FunctionId → Bool) : Prop := c ≠ 0 ∧ s.ctxValid c = true ∧ p (s.ctxFunction c) = true
    (s.pf0.flr = true → Gives (.pf0Flr) s (fun t => t = s)) ∧
    (s.pf0.flr = false → Gives (.pf0Flr) s (fun t => t.pf0.flr = true ∧ t.pf0.d3 = false ∧ t.pf0.vfEnable = false ∧ t.pf0.pend = [] ∧
      t.pf0.pmeEn = s.pf0.pmeEn ∧ t.pf0.pmeStatus = s.pf0.pmeStatus ∧ t.msixWait = [] ∧ (t.rd .RST_CAUSE).getLsbD 3 = true ∧
      (∀ k : Fin 64, t.func (.vf k) = Func.reset) ∧ (∀ c, owned c (fun f => f != .pf0) → t.revoked c = true) ∧
      (∀ h, h < 1024 → s.fld (.HG_CFG h) F.HG_CFG_ENABLE = 1 → t.fld (.HG_STATUS h) F.HG_STATUS_STATE = 2) ∧ t.rd .HR_COUNT = 0 ∧
      (QuietPorts s → t.hostWrites = [] ∧ KeepsBytes s t))) ∧
    (∀ k : Fin 64, (k.val = 0 ∨ s.funcShown (.vf k) = false ∨ (s.func (.vf k)).flr = true → Gives (.vfFlr k) s (fun t => t = s)) ∧
      (k.val ≠ 0 → s.funcShown (.vf k) = true → (s.func (.vf k)).flr = false → s.fld .HR_COUNT F.HR_COUNT_VALUE = 0 → QuietPorts s → Gives (.vfFlr k) s (fun t =>
        t.func (.vf k) = { Func.reset with flr := true } ∧ t.pf0 = s.pf0 ∧ (t.rd .RST_CAUSE).getLsbD 4 = true ∧
        (∀ c, owned c (fun f => f == .vf k) → t.revoked c = true) ∧ KeepsBytes s t))) ∧
    (∀ f, ((s.func f).flr = false → Gives (.flrComplete f) s (fun t => t = s)) ∧
      ((s.func f).flr = true → (∀ c, s.revoked c = false) → s.heads.held = [] → s.heads.list = [] → Gives (.flrComplete f) s (fun t =>
        t.func f = { s.func f with flr := false } ∧ (∀ g, g ≠ f → t.func g = s.func g) ∧ OnlyFuncs s t)))) ∧
  (∀ (s : State) (p : HostPortId), Runs s → s.portState p ≠ 1 → QuietPorts s →
    let up : Prop := s.groupUp p.val = true
    (∀ cause : BitVec 4, (1 ≤ cause.toNat → cause.toNat ≤ 4 → Gives (.hostDetach p cause) s (fun t => Detaches s t p cause.toNat)) ∧
      (cause.toNat = 0 ∨ 4 < cause.toNat → Gives (.hostDetach p cause) s (fun t => t = s))) ∧
    (p.val = 0 → s.fld .HF_CTRL F.HF_CTRL_HR0 = 1 → Gives (.hotResetDetach p) s (fun t => t = s)) ∧
    (p.val ≠ 0 ∨ s.fld .HF_CTRL F.HF_CTRL_HR0 = 0 → Gives (.hotResetDetach p) s (fun t => Detaches s t p 2 ∧
      t.fld (.PG_STATUS p.val) F.PG_STATUS_VIRAL_RX = 0 ∧ t.fld (.PG_STATUS p.val) F.PG_STATUS_VIRAL_TX = 0 ∧
      (p.val = 0 → t.pf0 = { Func.reset with hdmBase := s.pf0.hdmBase } ∧ ∀ k : Fin 64, t.func (.vf k) = Func.reset) ∧
      (p.val = 1 → t.companion = { Func.reset with hdmBase := s.companion.hdmBase } ∧ t.pf0 = s.pf0))) ∧
    (¬ up → Gives (.viralRx p) s (fun t => t = s)) ∧
    (up → Gives (.viralRx p) s (fun t => Detaches s t p 3 ∧ ⟨71 + 5 * p.val, [], none⟩ ∈ t.wmEvents ∧
      t.fld (.PG_STATUS p.val) F.PG_STATUS_VIRAL_RX = 1 ∧ t.fld (.PG_STATUS p.val) F.PG_STATUS_VIRAL_SEEN = 1)) ∧
    (∀ g : GroupPortId, g.val = p.val →
      Gives (.ideFailure g) s (fun t => Detaches s t p 4 ∧ ⟨70 + 5 * g.val, [], none⟩ ∈ t.wmEvents ∧
        t.fld (.PG_STATUS g.val) F.PG_STATUS_IDE = 2 ∧ t.fld (.PG_STATUS g.val) F.PG_STATUS_IDE_FAIL = 1) ∧
      (up → Gives (.pgLinkDown g) s (fun t => Detaches s t p 1 ∧ ⟨68 + 5 * g.val, [], none⟩ ∈ t.wmEvents ∧
        t.fld (.PG_STATUS g.val) F.PG_STATUS_LSTATE = 3 ∧ t.fld (.PG_STATUS g.val) F.PG_STATUS_DOWN_SEEN = 1 ∧
        t.fld (.PG_STATUS g.val) F.PG_STATUS_IDE = 0)))) ∧
  (∀ (s : State) (g : GroupPortId), Runs s →
    let up : Prop := s.groupUp g.val = true
    let role := s.fld .PG_ROLE F.PG_ROLE_ROLE / 4 ^ g.val % 4
    (∀ m : Fin 4, g.val = m.val + 2 → s.fld (.T2_STATUS m.val) F.T2_STATUS_STATE = 1 →
      Gives (.ideFailure g) s (fun t => t.fld (.T2_STATUS m.val) F.T2_STATUS_STATE = 2 ∧ t.fld (.PG_STATUS g.val) F.PG_STATUS_IDE = 2 ∧
        ⟨70 + 5 * g.val, [], none⟩ ∈ t.wmEvents) ∧
      (up → Gives (.pgLinkDown g) s (fun t => t.fld (.T2_STATUS m.val) F.T2_STATUS_STATE = 2 ∧
        t.fld (.PG_STATUS g.val) F.PG_STATUS_LSTATE = 3 ∧ ⟨68 + 5 * g.val, [], none⟩ ∈ t.wmEvents))) ∧
    (up → Gives (.linkRetrain g) s (fun t => Sends s t [⟨69 + 5 * g.val, [], none⟩] ∧ OnlyRegsEvents s t [])) ∧
    (¬ up → Gives (.linkRetrain g) s (fun t => t = s) ∧ Gives (.pgLinkDown g) s (fun t => t = s)) ∧
    (∀ (speed : BitVec 3) (width : BitVec 5) (flit cxl : Bool),
      (role ≠ 0 → ¬ up → Gives (.pgLinkUp g speed width flit cxl) s (fun t =>
        t.fld (.PG_STATUS g.val) F.PG_STATUS_LSTATE = 2 ∧ t.fld (.PG_STATUS g.val) F.PG_STATUS_SPEED = speed.toNat ∧
        t.fld (.PG_STATUS g.val) F.PG_STATUS_WIDTH = width.toNat ∧ t.fld (.PG_STATUS g.val) F.PG_STATUS_FLIT256 = flit.toNat ∧
        t.fld (.PG_STATUS g.val) F.PG_STATUS_CXL = cxl.toNat ∧ OnlyRegs s t [.PG_STATUS g.val])) ∧
      (role = 0 ∨ up → Gives (.pgLinkUp g speed width flit cxl) s (fun t => t = s))) ∧
    (∀ m : IdeKm,
      (¬ up → Gives (.ideKmRequest g m) s (fun t => t = s)) ∧
      (up → Gives (.ideKmRequest g m) s (fun t =>
        let x := s.ide[g.val]'(g.isLt)
        let y := t.ide[g.val]'(g.isLt)
        y = (if m.cxl then { x with cxlKey := some m.keys, cxlSecure := x.cxlSecure || m.go }
          else { x with ioKey := some m.keys, ioSecure := x.ioSecure || m.go }) ∧
        (y.ioSecure = true → y.cxlSecure = true → t.fld (.PG_STATUS g.val) F.PG_STATUS_IDE = 1) ∧
        (y.ioSecure = false ∨ y.cxlSecure = false → KeepsRegs s t []) ∧ OnlyRegs s { t with ide := s.ide } [.PG_STATUS g.val]))))

/-- A write to headgate h's doorbell page comes through: IDE keeps nothing out, and its page of PF0's BAR2 or of its VF's is open. -/
def Sys2Proof.Claims.PageOpen (s : State) (h : HeadId) : Prop :=
  Runs s ∧ s.ideBars 0 = false ∧
    (s.funcOpen .pf0 = true ∨ (s.hgFunction h ≠ .pf0 ∧ s.funcOpen (s.hgFunction h) = true))

/-- A field of a headgate's HG_STATUS. -/
def Sys2Proof.Claims.hgF (s : State) (h : HeadId) (f : Fld) : Nat := s.fld (.HG_STATUS h.val) f

/-- Nothing but headgate h, registers of a list, the unit's range cache, what leaves, events and counters has changed. -/
def Sys2Proof.Claims.OnlyHead (s t : State) (h : HeadId) (rs : List Reg) : Prop :=
  KeepsRegs s t rs ∧ (∀ j, j ≠ h → t.head j = s.head j) ∧
    { t with regs := s.regs, heads := s.heads, out := s.out, wmEvents := s.wmEvents, obs := s.obs } = s ∧
    { t.heads with list := s.heads.list, rc := s.heads.rc } = s.heads ∧ { t.obs with counts := s.obs.counts } = s.obs

/-- The same, with writes of the unit on their way. -/
def Sys2Proof.Claims.OnlyHeadWrites (s t : State) (h : HeadId) (rs : List Reg) : Prop :=
  OnlyHead s { t with heads := { t.heads with writes := s.heads.writes, seq := s.heads.seq }, hostWrites := s.hostWrites, ioNext := s.ioNext } h rs

/-- Headgate h, RUNNING, may fetch a slot once its TAIL differs from its HEAD (R438, R447, R457). -/
def Sys2Proof.Claims.MayFetch (s : State) (h : HeadId) : Prop :=
  s.fld (.HG_CFG h.val) F.HG_CFG_ENABLE = 1 ∧ (s.head h).fetching = false ∧ (s.head h).torn = false ∧ (s.head h).resetting = false ∧
    ((s.head h).cmds.filter (fun c => !c.started)).length < 4 ∧ s.pf0.d3 = false ∧ (s.func (s.hgFunction h)).d3 = false ∧ s.safe = false

/-- A read of the slot at an index has been issued: toward the host port of the ring, or for the unit itself where the ring lies in device memory. -/
def Sys2Proof.Claims.Reads (s t : State) (h : HeadId) (index : Nat) : Prop :=
  (t.head h).fetching = true ∧ (t.head h).torn = false ∧ (t.head h).cmds = (s.head h).cmds ∧
    (∀ p, s.hgPort h = some p → t.out = s.out ++ [.hostRead p ((s.rd (.HG_BASE h.val)).toNat / 4096 * 4096 + 128 * index) 128]) ∧
    (s.hgPort h = none → t.out = s.out)

/-- The port of headgate h's ring takes its reads. -/
def Sys2Proof.Claims.RingReadable (s : State) (h : HeadId) : Prop := ∀ p, s.hgPort h = some p → s.portOk p (s.hgCtx h) false = true

/-- Headgate h halts with a cause (R444). -/
def Sys2Proof.Claims.HeadHalts (s t : State) (h : HeadId) (cause : Nat) : Prop :=
  hgF t h F.HG_STATUS_STATE = 2 ∧ hgF t h F.HG_STATUS_CAUSE = cause ∧ (t.head h).fetching = false ∧ (t.head h).torn = false ∧
    (t.head h).refetches = 0 ∧ (t.head h).cmds = (s.head h).cmds ∧ ⟨126, [], none⟩ ∈ t.wmEvents ∧ t.rd (.HG_PTR h.val) = s.rd (.HG_PTR h.val)

/-- What headgate h halted for may be left by RESUME or RESET (R444). -/
def Sys2Proof.Claims.CanLeave (s : State) (h : HeadId) : Prop :=
  hgF s h F.HG_STATUS_STATE = 2 ∧ (hgF s h F.HG_STATUS_CAUSE = 1 ∨ hgF s h F.HG_STATUS_CAUSE = 2 ∨
    (hgF s h F.HG_STATUS_CAUSE = 3 ∧ (∀ p, s.hgPort h = some p → s.portState p = 0)))

/-- The bytes that a returned fetch holds: those of the host, or the slot of a ring in device memory as a peek read shows it. -/
def Sys2Proof.Claims.fetched (s : State) (h : HeadId) : FetchResult → List Byte
  | .slot bs => if s.hgLoc h = 2 then (List.range 128).map (fun i => s.peekByte (s.slotAddr h + i)) else bs
  | .failed => []

/-- The fetch has returned a slot, and reads of its two lines in device memory are not refused. -/
def Sys2Proof.Claims.Returned (s : State) (h : HeadId) (r : FetchResult) : Prop :=
  r ≠ .failed ∧ (s.hgLoc h = 2 → s.unitRefusal (s.hgCtx h) (s.slotAddr h) 64 = (0, s) ∧
    s.unitRefusal (s.hgCtx h) (s.slotAddr h + 64) 64 = (0, s) ∧ s.slotAddr h + 128 ≤ 0x9000000000)

/-- A slot that the headgate has consumed. -/
def Sys2Proof.Claims.newCmd (slot : Nat) (bs : List Byte) : HgCmd := ⟨slot, bs, false, 0, false, 0, [], [], none, [], false⟩

/-- Headgates: doorbells, fetches, torn slots, RESUME and RESET, enabling and disabling; HF_WAKE.REQ. A doorbell sets TAIL,
or BAD_DB beyond the ring, and the slot at HEAD is read when it may be; one that follows turnout writes is held. A returned
valid slot is consumed: HEAD and EXPSEQ go on, EXPPHASE turns when HEAD wraps. An invalid one is fetched again, and after 16
times the headgate halts as TORN; a refused read halts it as FETCH. RESUME runs on, RESET starts the ring over once nothing
is in flight, where the cause allows it. A right enable starts the ring, a wrong one only sets CFG_ERR; a disable drops what
has not started. HF_WAKE.REQ in D3hot with PME_En sends PM_PME. -/
def Obligations.HeadgateRings : Prop :=
  (∀ (s : State) (h : HeadId) (v : Word32), Runs s →
    let tail := bitsOf v 15 0
    let c := Instr.doorbell h v
    (s.ideBars 0 = true → Gives c s (fun t => PortRefuses s t 0 4 0 ∧ OnlyRegsEvents s t [.HP_REFUSE, .HP_REFFIRST])) ∧
    (s.ideBars 0 = false → s.funcOpen .pf0 = false → (s.hgFunction h = .pf0 ∨ s.funcOpen (s.hgFunction h) = false) →
      Gives c s (fun t => t = s)) ∧
    (PageOpen s h → (∃ w ∈ s.heads.writes, w.head = 1024) →
      Gives c s (fun t => t = { s with heads := { s.heads with held := s.heads.held ++ [(s.heads.seq, .doorbell h v)] } })) ∧
    (PageOpen s h → (∀ w ∈ s.heads.writes, w.head ≠ 1024) →
      let st := hgF s h F.HG_STATUS_STATE
      (st = 0 → Gives c s (fun t => t = s)) ∧
      (st ≠ 0 → s.hgN h ≤ tail → Gives c s (fun t => hgF t h F.HG_STATUS_BAD_DB = 1 ∧ hgF t h F.HG_STATUS_STATE = st ∧
        OnlyRegs s t [.HG_STATUS h.val])) ∧
      (st ≠ 0 → tail < s.hgN h →
        let rung (t : State) : Prop := t.hgTail h = tail ∧ t.hgHead h = s.hgHead h
        (st ≠ 1 ∨ tail = s.hgHead h ∨ ¬ MayFetch s h → Gives c s (fun t => rung t ∧ OnlyRegs s t [.HG_PTR h.val])) ∧
        (st = 1 → tail ≠ s.hgHead h → MayFetch s h →
          (RingReadable s h → Gives c s (fun t => rung t ∧ Reads s t h (s.hgHead h) ∧ OnlyHead s t h [.HG_PTR h.val])) ∧
          (¬ RingReadable s h → Gives c s (fun t => rung t ∧ hgF t h F.HG_STATUS_STATE = 2 ∧ hgF t h F.HG_STATUS_CAUSE = 2 ∧
            Sends s t [⟨126, [], none⟩] ∧ t.out = s.out ∧ OnlyHead s t h [.HG_PTR h.val, .HG_STATUS h.val])))))) ∧
  (∀ (s : State) (h : HeadId), PageOpen s h →
    (¬ CanLeave s h → Gives (.resume h) s (fun t => t = s) ∧ Gives (.hgReset h) s (fun t => t = s)) ∧
    (CanLeave s h →
      let runs (t : State) : Prop := hgF t h F.HG_STATUS_STATE = 1 ∧ hgF t h F.HG_STATUS_CAUSE = 0
      ((s.head h).resetting = true → Gives (.resume h) s (fun t => t = s)) ∧
      ((s.head h).resetting = false →
        (s.hgHead h = s.hgTail h ∨ ¬ MayFetch s h → Gives (.resume h) s (fun t => runs t ∧ OnlyRegs s t [.HG_STATUS h.val])) ∧
        (s.hgHead h ≠ s.hgTail h → MayFetch s h → RingReadable s h → Gives (.resume h) s (fun t => runs t ∧
          Reads s t h (s.hgHead h) ∧ OnlyHead s t h [.HG_STATUS h.val]))) ∧
      (s.fld (.HG_CFG h.val) F.HG_CFG_ENABLE = 1 →
        ((s.head h).cmds = [] → Gives (.hgReset h) s (fun t => runs t ∧ t.rd (.HG_PTR h.val) = 0 ∧
          hgF t h F.HG_STATUS_EXPPHASE = 1 ∧ hgF t h F.HG_STATUS_EXPSEQ = 0 ∧ hgF t h F.HG_STATUS_INFLIGHT = 0 ∧
          t.head h = { s.head h with fetching := false, torn := false, refetches := 0, resetting := false } ∧
          t.out = s.out ∧ OnlyHead s t h [.HG_PTR h.val, .HG_STATUS h.val])) ∧
        ((s.head h).cmds ≠ [] → Gives (.hgReset h) s (fun t => t.head h = { s.head h with resetting := true } ∧
          hgF t h F.HG_STATUS_STATE = 2 ∧ t.rd (.HG_PTR h.val) = s.rd (.HG_PTR h.val) ∧
          t.out = s.out ∧ OnlyHead s t h [.HG_STATUS h.val]))))) ∧
  (∀ (s : State) (h : HeadId) (r : FetchResult), Runs s →
    let c := Instr.slotFetchReturn h r
    ((s.head h).fetching = false → Gives c s (fun t => t = s)) ∧
    ((s.head h).fetching = true →
      (r = .failed → Gives c s (fun t => HeadHalts s t h 2 ∧ Sends s t [⟨126, [], none⟩] ∧ t.out = s.out ∧ OnlyHead s t h [.HG_STATUS h.val])) ∧
      (Returned s h r →
        let bs := fetched s h r
        let valid : Prop := byteAt bs 1 % 2 = hgF s h F.HG_STATUS_EXPPHASE ∧ byteAt bs 2 = hgF s h F.HG_STATUS_EXPSEQ
        let next := (s.hgHead h + 1) % s.hgN h
        (valid → Gives c s (fun t => (t.head h).cmds = (s.head h).cmds ++ [newCmd (s.hgHead h) bs] ∧ (t.head h).refetches = 0 ∧
            t.hgHead h = next % 2 ^ 16 ∧ t.hgTail h = s.hgTail h ∧
            hgF t h F.HG_STATUS_EXPSEQ = (hgF s h F.HG_STATUS_EXPSEQ + 1) % 256 ∧
            hgF t h F.HG_STATUS_EXPPHASE = (if next = 0 then 1 - hgF s h F.HG_STATUS_EXPPHASE else hgF s h F.HG_STATUS_EXPPHASE) ∧
            OnlyHead s t h [.HG_PTR h.val, .HG_STATUS h.val])) ∧
        (valid → next % 2 ^ 16 = s.hgTail h → Gives c s (fun t => (t.head h).fetching = false ∧ t.out = s.out ∧ t.wmEvents = s.wmEvents)) ∧
        (valid → next % 2 ^ 16 ≠ s.hgTail h → hgF s h F.HG_STATUS_STATE = 1 → RingReadable s h →
          MayFetch (s.updHead h (fun x => { x with fetching := false, torn := false, cmds := x.cmds ++ [newCmd (s.hgHead h) bs] })) h →
          Gives c s (fun t => (t.head h).fetching = true ∧ t.wmEvents = s.wmEvents ∧ (s.hgPort h = none → t.out = s.out) ∧
            (∀ p, s.hgPort h = some p →
              t.out = s.out ++ [.hostRead p ((s.rd (.HG_BASE h.val)).toNat / 4096 * 4096 + 128 * (next % 2 ^ 16)) 128]))) ∧
        (¬ valid → (s.head h).refetches < 16 → Gives c s (fun t =>
          t.head h = { s.head h with fetching := false, torn := true } ∧ t.out = s.out ∧ t.wmEvents = s.wmEvents ∧ OnlyHead s t h [])) ∧
        (¬ valid → 16 ≤ (s.head h).refetches → Gives c s (fun t => HeadHalts s t h 1) ∧
          (∀ a, (s.unitTranslate (s.hgCtx h) ((s.rd (.HG_ERRREC h.val)).toNat / 16 * 16) accW).1.getRight? = some a →
            16 ≤ (s.rd (.HG_ERRREC h.val)).toNat → a.1.cls = .localMem → chipOf a.1.addr = s.chipId → Gives c s (fun t =>
              let at_ := a.1.addr / 64 * 64
              SendsCoh s t (fun m => m.opc.toNat = 6 ∧ m.ctx = s.hgCtx h ∧ m.addr.toNat = at_ % 2 ^ 64 ∧
                (∀ i, i < 16 → m.data.getD ((a.1.addr + i) % 64) 0 = (s.recordBytes bs 2 0 0).getD i 0)) ∧
              (t.head h).tornIrq = true ∧ t.heads.writes.length = s.heads.writes.length + 1))))) ∧
    (let waits : Prop := (s.head h).torn = true ∧ hgF s h F.HG_STATUS_STATE = 1 ∧ s.pf0.d3 = false ∧ s.safe = false
     (¬ waits → Gives (.refetch h) s (fun t => t = s)) ∧
     (waits → RingReadable s h → Gives (.refetch h) s (fun t => (t.head h).refetches = (s.head h).refetches + 1 ∧
       Reads s t h (s.hgHead h) ∧ OnlyHead s t h [])) ∧
     (waits → ¬ RingReadable s h → Gives (.refetch h) s (fun t => HeadHalts s t h 2 ∧ OnlyHead s t h [.HG_STATUS h.val])))) ∧
  (∀ (s : State) (h : HeadId), Runs s →
    let log := s.fld (.HG_CFG h.val) F.HG_CFG_LOG2N
    let fn := s.fld (.HG_BIND h.val) F.HG_BIND_FUNCTION
    let off : Prop := s.fld (.HG_CFG h.val) F.HG_CFG_ENABLE = 0
    let refused : Prop := Gives (.hgEnable h) s (fun t => t.fld .HGU_STATUS F.HGU_STATUS_CFG_ERR = 1 ∧ OnlyRegs s t [.HGU_STATUS])
    (¬ off → Gives (.hgEnable h) s (fun t => t = s)) ∧ (off → Gives (.hgDisable h) s (fun t => t = s)) ∧
    (off → log < 4 ∨ 16 < log → refused) ∧ (off → s.hgLoc h = 3 → refused) ∧
    (off → (s.rd (.HG_BASE h.val)).toNat / 4096 * 4096 % max 4096 (2 ^ log * 128) ≠ 0 → refused) ∧
    (off → s.ctxValid (s.hgCtx h) = false ∨ s.revoked (s.hgCtx h) = true → refused) ∧
    (off → s.fld (.CTX_ENTRY1 (s.hgCtx h).toNat) F.CTX_ENTRY1_FUNCTION ≠ fn ∨ s.pf0.numVfs < fn → refused) ∧
    (off → ∀ g : HeadId, g ≠ h → fn ≠ 0 → s.fld (.HG_CFG g.val) F.HG_CFG_ENABLE = 1 → s.fld (.HG_BIND g.val) F.HG_BIND_FUNCTION = fn →
      s.fld (.HG_BIND g.val) F.HG_BIND_VFPAGE = s.fld (.HG_BIND h.val) F.HG_BIND_VFPAGE → refused) ∧
    (off → s.hgEnableBad h = false → Gives (.hgEnable h) s (fun t =>
      t.fld (.HG_CFG h.val) F.HG_CFG_ENABLE = 1 ∧ t.rd (.HG_PTR h.val) = 0 ∧ hgF t h F.HG_STATUS_STATE = 1 ∧
      hgF t h F.HG_STATUS_CAUSE = 0 ∧ hgF t h F.HG_STATUS_EXPPHASE = 1 ∧ hgF t h F.HG_STATUS_EXPSEQ = 0 ∧
      t.out = s.out ∧ OnlyHead s t h [.HG_CFG h.val, .HG_PTR h.val, .HG_STATUS h.val])) ∧
    (¬ off →
      let left := (s.head h).cmds.filter (fun c => c.started)
      (left = [] → Gives (.hgDisable h) s (fun t => t.fld (.HG_CFG h.val) F.HG_CFG_ENABLE = 0 ∧ hgF t h F.HG_STATUS_STATE = 0 ∧
        t.head h = (if hgF s h F.HG_STATUS_STATE = 0 then { s.head h with fetching := false, torn := false, resetting := false, cmds := [] } else Head.reset) ∧
        t.out = s.out ∧ OnlyHead s t h [.HG_CFG h.val, .HG_STATUS h.val])) ∧
      (left ≠ [] → Gives (.hgDisable h) s (fun t => t.fld (.HG_CFG h.val) F.HG_CFG_ENABLE = 0 ∧
        hgF t h F.HG_STATUS_STATE = hgF s h F.HG_STATUS_STATE ∧ hgF t h F.HG_STATUS_INFLIGHT = left.length % 16 ∧
        t.head h = { s.head h with fetching := false, torn := false, resetting := false, cmds := left } ∧
        t.out = s.out ∧ OnlyHead s t h [.HG_CFG h.val, .HG_STATUS h.val])))) ∧
  (∀ (s : State), Runs s →
    (s.pf0.d3 = false ∨ s.pf0.pmeEn = false → Gives (.req) s (fun t => t = s)) ∧
    (s.pf0.d3 = true → s.pf0.pmeEn = true → Gives (.req) s (fun t =>
      t = { s with pf0 := { s.pf0 with pmeStatus := true }, out := s.out ++ [.port 0 .pme] })))

/-- The command of a slot of headgate h that has been started, of an operation, with its work not ended. -/
def Sys2Proof.Claims.Works (s : State) (h : HeadId) (slot : Word16) (opc : Nat) (c : HgCmd) : Prop :=
  (s.head h).cmds.find? (fun c => c.slot == slot.toNat && c.started && c.result.isNone && c.opc == opc) = some c

/-- No such command. -/
def Sys2Proof.Claims.NoWork (s : State) (h : HeadId) (slot : Word16) (opc : Nat) : Prop :=
  (s.head h).cmds.find? (fun c => c.slot == slot.toNat && c.started && c.result.isNone && c.opc == opc) = none

/-- The work of the command of a slot has ended with a status; where bytes moved, with their count, and where a write left on a host
port, with that port. -/
def Sys2Proof.Claims.CmdEnds (s t : State) (h : HeadId) (slot : Word16) (status moved : Nat) (ports : List HostPortId) : Prop :=
  t.head h = { s.head h with cmds := (s.head h).cmds.map (fun c =>
    if c.slot = slot.toNat then { c with result := some (status, 0, 0), hostLost := c.hostLost || status == 3, done := c.done + moved,
                                         ports := ports.foldl (fun l p => l.erase p ++ [p]) c.ports }
    else c) }

/-- A write of the unit for headgate h's slot on the coherent plane: it waits for its answer under a tag that no other uses. -/
def Sys2Proof.Claims.UnitWrites (s t : State) (h : HeadId) (slot : Word16) (tgt : Target) (bs : List Byte) : Prop :=
  SendsCoh s t (fun m => (m.opc.toNat = 5 ∨ m.opc.toNat = 6) ∧ m.ctx = s.hgCtx h ∧ m.addr.toNat = tgt.addr / 64 * 64 % 2 ^ 64 ∧
    (∀ i, i < 64 → m.byteMask.getLsbD i = decide (tgt.addr % 64 ≤ i ∧ i < tgt.addr % 64 + bs.length)) ∧
    (∀ i, i < bs.length → m.data.getD (tgt.addr % 64 + i) 0 = bs.getD i 0) ∧
    (∃ w, t.heads.writes.getLast? = some w ∧ (w.tag = m.txn ∧ w.head = h.val ∧ w.slot = slot.toNat ∧ (∀ x ∈ s.heads.writes, x.tag ≠ w.tag)))) ∧
    t.heads.writes.length = s.heads.writes.length + 1

/-- A target is memory of this chip. -/
def Sys2Proof.Claims.Own (s : State) (tgt : Target) : Prop := tgt.cls = .localMem ∧ chipOf tgt.addr = s.chipId

/-- A target is host memory behind port p. -/
def Sys2Proof.Claims.HostAt (tgt : Target) (p : HostPortId) : Prop := tgt.cls = if p.val = 0 then .host0 else .host1

/-- A write of bytes leaves toward host port p for the command of a slot, and is remembered until GO. -/
def Sys2Proof.Claims.HostWrites (s t : State) (h : HeadId) (slot : Word16) (p : HostPortId) (addr : Nat) (bs : List Byte) : Prop :=
  t.out = s.out ++ [.hostWrite p (bs.mapIdx (fun i b => (addr + i, b)))] ∧
    t.hostWrites = s.hostWrites ++ [⟨s.ioNext, p, s.hgCtx h, .head h slot.toNat, addr, bs.mapIdx (fun i b => (addr + i, b)), true, false⟩]

/-- Host writes leave at once: neither twin checking nor the safe state holds them. -/
def Sys2Proof.Claims.WritesGo (s : State) : Prop := s.twinActive = false ∧ s.safe = false

/-- Commands of headgates: start, NOP, COPY, INLINE, SIGNAL, WAIT and KERNEL, and the completion record. The first command
not started is started when its turn comes: fewer than 8 started, and with ORDER none; a malformed one has ended with
BAD_CMD. NOP, SIGNAL and WAIT end with OK, SIGNAL after its message, WAIT once the signal is at least its value. A COPY or an
INLINE whose bytes lie in one line writes them to this chip's memory or a host and ends with OK, or ends with the status of
its refusal. KERNEL launches on its tiles, or ends with TILE_BUSY or CONTEXT. The record follows the command's writes, in
memory, toward the host or in the holding ring, and the command is over. -/
def Obligations.HeadgateCommands : Prop :=
  (∀ (s : State) (h : HeadId), Runs s →
    let started := (s.head h).cmds.filter (fun c => c.started)
    (8 ≤ started.length → Gives (.commandStart h) s (fun t => t = s)) ∧
    ((s.head h).cmds.find? (fun c => !c.started) = none → Gives (.commandStart h) s (fun t => t = s)) ∧
    (∀ c, (s.head h).cmds.find? (fun c => !c.started) = some c →
      (c.order = true → started ≠ [] → Gives (.commandStart h) s (fun t => t = s)) ∧
      (s.nextHead ≠ some h.val → Gives (.commandStart h) s (fun t => t = s)) ∧
      (started.length < 8 → (c.order = true → started = []) → s.hrFull = false → s.nextHead = some h.val →
        Gives (.commandStart h) s (fun t =>
          (t.head h).cmds = (s.head h).cmds.map (fun d => if d.slot = c.slot then
            { d with started := true, start := s.timestamp, result := if d.bad then some (4, 0, 0) else none } else d) ∧
          t.heads.last = h.val ∧ hgF t h F.HG_STATUS_INFLIGHT = ((t.head h).cmds.filter (fun c => c.started)).length % 16 ∧
          (s.fld .OBS_CTRL F.OBS_CTRL_RST_MODE ≠ 2 → OnlyHead s { t with heads := { t.heads with last := s.heads.last } } h [.HG_STATUS h.val]) ∧
          (s.fld .OBS_CTRL F.OBS_CTRL_RST_MODE = 2 → t.obs.boundaryAt = s.rd .TB_RAW ∧
            (∀ x ∈ s.obs.counts, x.1 < 0x1D4000 → x ∈ t.obs.counts) ∧ (∀ x ∈ t.obs.counts, x.1 < 0x1D4000)))))) ∧
  (∀ (s : State) (h : HeadId) (slot : Word16), Runs s →
    let same (t : State) : Prop := t = s
    let ends (status : Nat) (t : State) : Prop := CmdEnds s t h slot status 0 [] ∧ t.out = s.out ∧ OnlyHead s t h []
    (NoWork s h slot 1 → Gives (.hgNop h slot) s same) ∧ (NoWork s h slot 4 → Gives (.hgSignal h slot) s same) ∧
    (NoWork s h slot 5 → Gives (.hgWait h slot) s same) ∧ (NoWork s h slot 6 → Gives (.kernel h slot) s same) ∧
    (∀ fail : Option HgFail, (NoWork s h slot 2 → Gives (.hgCopy h slot [] fail) s same) ∧
      (NoWork s h slot 3 → Gives (.hgInline h slot fail) s same)) ∧
    (∀ c, Works s h slot 1 c → Gives (.hgNop h slot) s (ends 1)) ∧
    (∀ (fail : HgFail), (∀ c, Works s h slot 2 c → Gives (.hgCopy h slot [] fail) s (ends (hgFailStatus fail))) ∧
      (∀ c, Works s h slot 3 c → Gives (.hgInline h slot fail) s (ends (hgFailStatus fail)))) ∧
    (∀ c, Works s h slot 4 c →
      let chip := c.a0 / 2 ^ 16 % 512
      (chip ≠ s.chipId → s.linkTo chip = none → Gives (.hgSignal h slot) s (ends 9)) ∧
      (chip = s.chipId ∨ s.linkTo chip ≠ none → Gives (.hgSignal h slot) s (fun t => CmdEnds s t h slot 1 0 [] ∧ OnlyHead s t h [] ∧
        SendsCoh s t (fun m => m.opc = 0x0A ∧ m.dstChip.toNat = chip ∧ m.dstAgent.toNat = c.a0 / 256 % 64 ∧ m.ctx = s.hgCtx h ∧
          m.opA.toNat = c.a1 % 2 ^ 64 ∧ m.opB.toNat = c.a0 % 64)))) ∧
    (∀ c, Works s h slot 5 c →
      let k : TileId := ⟨c.a0 / 256 % 64 % 48, Nat.mod_lt _ (by decide)⟩
      let v := (s.signal k (c.a0 % 64)).toNat
      (c.a1 ≤ v → Gives (.hgWait h slot) s (ends 1)) ∧ (v < c.a1 → Gives (.hgWait h slot) s same)) ∧
    (∀ c, Works s h slot 6 c →
      let named (k : TileId) : Bool := c.a0 / 2 ^ k.val % 2 == 1
      let busy (k : TileId) : Prop := s.schedMode k = true ∨ s.seqState k = 1 ∨ (s.tile k).kernel ≠ none ∨ (s.tile k).inReset = true
      let other (k : TileId) : Prop := c.a1 % 64 = 0 ∧ c.a1 < 0x600000 ∧ s.rdByte (slabAddr k (c.a1 + 28)) ≠ s.hgCtx h
      (c.tiles ≠ [] → Gives (.kernel h slot) s same) ∧
      (c.tiles = [] →
        (∀ k, named k = true → busy k → Gives (.kernel h slot) s (ends 0x0E)) ∧
        ((∀ k, named k = true → ¬ busy k) → ∀ k, named k = true → other k → Gives (.kernel h slot) s (ends 0x0D)) ∧
        ((∀ k, named k = false) → Gives (.kernel h slot) s (ends 1)) ∧
        ((∀ k, named k = true → ¬ busy k ∧ ¬ other k) → s.memUE = [] → s.home.resv = [] → ∀ k0, named k0 = true → Gives (.kernel h slot) s (fun t =>
          (∀ k, named k = true → ∃ q, (t.tile k).kernel = some q ∧ (q.desc = c.a1 ∧ q.started = false ∧
            q.layer.toNat = slotField c.bytes 4 2 % 2 ^ 16 ∧ q.operator.toNat = slotField c.bytes 6 2 % 2 ^ 16 ∧
            q.entry = BitVec.ofNat 64 (s.rdNat (slabAddr k c.a1) 8) ∧ t.fld (.SQ_STATUS k.val) F.SQ_STATUS_KERNEL = 1)) ∧
          (∀ k, named k = false → t.tile k = s.tile k ∧ t.rd (.SQ_STATUS k.val) = s.rd (.SQ_STATUS k.val)) ∧
          (t.head h).cmds = (s.head h).cmds.map (fun d => if d.slot = c.slot then { d with tiles := (List.finRange 48).filter named } else d) ∧
          t.out = s.out ∧ KeepsBytes s t))))) ∧
  (∀ (s : State) (h : HeadId) (slot : Word16) (hostData : List Byte), Runs s →
    (∀ c, Works s h slot 2 c → c.done = 0 → 0 < c.length → c.a0 % 64 + c.length ≤ 64 → c.a1 % 64 + c.length ≤ 64 →
      s.heads.writes.length < 4096 →
      let cmd := Instr.hgCopy h slot hostData none
      let s1 := (s.unitTranslate (s.hgCtx h) (c.a0 % 2 ^ 64) accR).2
      let ends (status : Nat) (t : State) : Prop := CmdEnds s t h slot status 0 [] ∧ t.out = s.out ∧ KeepsBytes s t
      let ok (t : State) (ports : List HostPortId) : Prop := CmdEnds s t h slot 1 c.length ports ∧ KeepsBytes s t ∧ OnlyHeadWrites s t h []
      (∀ st, (s.unitTranslate (s.hgCtx h) (c.a0 % 2 ^ 64) accR).1.getLeft? = some st → Gives cmd s (ends st)) ∧
      (∀ x, (s.unitTranslate (s.hgCtx h) (c.a0 % 2 ^ 64) accR).1.getRight? = some x → x.2 = false →
        (∀ st, (s1.unitTranslate (s.hgCtx h) (c.a1 % 2 ^ 64) accW).1.getLeft? = some st → Gives cmd s (ends st)) ∧
        (∀ y, (s1.unitTranslate (s.hgCtx h) (c.a1 % 2 ^ 64) accW).1.getRight? = some y → y.2 = false →
          let src := x.1
          let dst := y.1
          let a := localOf src.addr
          (Own s src → a % 64 = c.a0 % 64 → dst.addr % 64 = c.a1 % 64 → s.unitRefusal (s.hgCtx h) a c.length = (0, s) →
            s.home.riderLines = [] → (∀ k, (s.tile k).atoms = []) →
            (Own s dst → Gives cmd s (fun t => UnitWrites s t h slot dst (s.rdBytes a c.length) ∧ ok t [])) ∧
            (∀ p, HostAt dst p →
              (s.portState p = 1 → Gives cmd s (fun t => ends 3 t)) ∧
              (s.portOk p (s.hgCtx h) false = true → WritesGo s → Gives cmd s (fun t =>
                HostWrites s t h slot p dst.addr (s.rdBytes a c.length) ∧ ok t [p])) ∧
              (s.portState p ≠ 1 → s.portOk p (s.hgCtx h) false = false → Gives cmd s (ends 9)))) ∧
          (Own s src → a % 64 = c.a0 % 64 → dst.addr % 64 = c.a1 % 64 → (s.unitRefusal (s.hgCtx h) a c.length).1 ≠ 0 →
            Gives cmd s (fun t => ends (s.unitRefusal (s.hgCtx h) a c.length).1 t)) ∧
          (∀ p, HostAt src p → hostData.length = c.length → s.portOk p (s.hgCtx h) false = true → Own s dst → dst.addr % 64 = c.a1 % 64 →
            Gives cmd s (fun t => t.out.take (s.out.length + 1) = s.out ++ [.hostRead p src.addr c.length] ∧
              UnitWrites { s with out := s.out ++ [.hostRead p src.addr c.length] } t h slot dst hostData ∧ ok t []))))) ∧
    (∀ c, Works s h slot 3 c → 0 < c.len → c.a0 % 64 + c.len ≤ 64 → s.heads.writes.length + 3 ≤ 4096 →
      let cmd := Instr.hgInline h slot none
      let bs := (c.bytes.drop 32).take c.len
      let ends (status : Nat) (t : State) : Prop := CmdEnds s t h slot status 0 [] ∧ t.out = s.out ∧ KeepsBytes s t
      let ok (t : State) (ports : List HostPortId) : Prop := CmdEnds s t h slot 1 0 ports ∧ KeepsBytes s t ∧ OnlyHeadWrites s t h []
      (∀ st, (s.unitTranslate (s.hgCtx h) (c.a0 % 2 ^ 64) accW).1.getLeft? = some st → Gives cmd s (ends st)) ∧
      (∀ y, (s.unitTranslate (s.hgCtx h) (c.a0 % 2 ^ 64) accW).1.getRight? = some y → y.2 = false → c.bytes.length = 128 →
        y.1.addr % 64 = c.a0 % 64 →
        (Own s y.1 → Gives cmd s (fun t => UnitWrites s t h slot y.1 bs ∧ ok t [])) ∧
        (∀ p, HostAt y.1 p →
          (s.portState p = 1 → Gives cmd s (ends 3)) ∧
          (s.portOk p (s.hgCtx h) false = true → WritesGo s → Gives cmd s (fun t => HostWrites s t h slot p y.1.addr bs ∧ ok t [p]))))) ∧
    (∀ c, Works s h slot 3 c → 4096 < s.heads.writes.length + 3 → Gives (.hgInline h slot none) s (fun t => t = s))) ∧
  (∀ (s : State) (h : HeadId) (slot : Word16), Runs s →
    let cmd := Instr.completionRecord h slot
    let open_ : Prop := (∃ w ∈ s.hostWrites, w.src = .head h slot.toNat) ∨ (∃ w ∈ s.heads.writes, w.head = h.val ∧ w.slot = slot.toNat)
    let found := (s.head h).cmds.find? (fun c => c.slot == slot.toNat && c.started && c.result.isSome)
    (found = none → Gives cmd s (fun t => t = s)) ∧
    (∀ c, found = some c →
      (open_ → Gives cmd s (fun t => t = s)) ∧
      (¬ open_ →
        let rest := (s.head h).cmds.filter (fun d => d.slot != slot.toNat)
        let over_ (t : State) : Prop := (t.head h).cmds = rest ∧ hgF t h F.HG_STATUS_INFLIGHT = (rest.filter (fun d => d.started)).length % 16
        let quiet : Prop := s.hgHead h = s.hgTail h ∧ (s.head h).resetting = false ∧ s.fld (.HG_CFG h.val) F.HG_CFG_ENABLE = 1
        let r := c.result.getD (0, 0, 0)
        let rec_ := if c.hostLost then s.recordBytes c.bytes 3 0 0 else s.recordBytes c.bytes r.1 r.2.1 r.2.2
        (c.record = true ∨ c.caddr = 0 → quiet →
          (c.irq = false → Gives cmd s (fun t => over_ t ∧ t.out = s.out ∧ OnlyHead s t h [.HG_STATUS h.val])) ∧
          (c.irq = true → (s.func (s.hgFunction h)).sendable (s.fld (.HG_BIND h.val) F.HG_BIND_VECTOR) = true →
            s.fld (.HG_BIND h.val) F.HG_BIND_VECTOR ∉ (s.func (s.hgFunction h)).pend → s.fld (.HG_BIND h.val) F.HG_BIND_VECTOR < 32 →
            s.hostWrites = [] → WritesGo s → Gives cmd s (fun t => over_ t ∧
              t.out = s.out ++ [.msix (s.hgFunction h) (s.fld (.HG_BIND h.val) F.HG_BIND_VECTOR)] ∧ OnlyHead s t h [.HG_STATUS h.val]))) ∧
        (c.record = false → c.caddr ≠ 0 → quiet →
          (∀ y, (s.unitTranslate (s.hgCtx h) c.caddr accW).1.getRight? = some y →
            let sent (t : State) : Prop := (t.head h).cmds = (s.head h).cmds.map (fun d => if d.slot = c.slot then { d with record := true } else d) ∧
              KeepsBytes s t ∧ OnlyHeadWrites s t h []
            (Own s y.1 → y.1.addr % 64 + 16 ≤ 64 → s.heads.writes.length < 4096 → Gives cmd s (fun t =>
              UnitWrites s t h slot y.1 rec_ ∧ sent t)) ∧
            (∀ p, HostAt y.1 p → c.ports = [] →
              (s.portState p = 0 → s.portOk p (s.hgCtx h) false = true → WritesGo s → Gives cmd s (fun t =>
                HostWrites s t h slot p y.1.addr rec_ ∧ sent t)) ∧
              (s.portState p ≠ 0 → s.hrFull = true → Gives cmd s (fun t => t.head h = s.head h ∧ t.out = s.out ∧ KeepsRegs s t [])) ∧
              (s.portState p ≠ 0 → s.hrFull = false → s.fld .HR_COUNT F.HR_COUNT_VALUE < 65535 → s.home.resv = [] → s.heads.wakeDue = false →
                Gives cmd s (fun t => over_ t ∧ t.out = s.out ∧
                  WritesAt s t (s.fld .HR_BASE F.HR_BASE_REGION * 2 ^ 21 + 32 * (s.fld .HR_TAIL F.HR_TAIL_VALUE % 65536))
                    (rec_ ++ leBytes 8 (y.1.addr % 2 ^ 52) ++ leBytes 2 h.val ++ leBytes 2 c.slot ++
                      leBytes 1 (p.val + if c.irq then 2 else 0) ++ [0, 0, 0]) ∧
                  t.fld .HR_TAIL F.HR_TAIL_VALUE = (s.fld .HR_TAIL F.HR_TAIL_VALUE % 65536 + 1) % 65536 ∧
                  t.fld .HR_COUNT F.HR_COUNT_VALUE = s.fld .HR_COUNT F.HR_COUNT_VALUE + 1 ∧ KeepsRegs s t [.HR_TAIL, .HR_COUNT, .HG_STATUS h.val]))))))))

/-- Nothing but registers of a list, the unit's holding ring and its modes, host writes and what leaves, and counters has changed. -/
def Sys2Proof.Claims.OnlyRing (s t : State) (rs : List Reg) : Prop :=
  KeepsRegs s t rs ∧ KeepsBytes s t ∧
    { t with regs := s.regs, heads := s.heads, out := s.out, hostWrites := s.hostWrites, ioNext := s.ioNext, obs := s.obs } = s ∧
    { t.heads with mode := s.heads.mode, delivering := s.heads.delivering } = s.heads ∧ { t.obs with counts := s.obs.counts } = s.obs

/-- Host port p becomes ATTACHED, its agent lives again, and its mode is over (R459). -/
def Sys2Proof.Claims.Attaches (s t : State) (p : HostPortId) : Prop :=
  t.portState p = 0 ∧ (if p.val = 0 then t.fld .AT_STATE F.AT_STATE_CAUSE0 = 0 else t.fld .AT_STATE F.AT_STATE_CAUSE1 = 0) ∧
    t.agentDead (72 + p.val) = false ∧ t.heads.mode = s.heads.mode.set p.val 0 ∧ t.heads.delivering = none

/-- The 32 bytes of the entry at an index of the holding ring. -/
def Sys2Proof.Claims.heldEntry (s : State) (i : Nat) : List Byte := s.rdBytes (s.fld .HR_BASE F.HR_BASE_REGION * 2 ^ 21 + 32 * (i % 65536)) 32

/-- The write of a held entry to its stored address leaves on host port p, and the ring waits for it. -/
def Sys2Proof.Claims.Delivers (s t : State) (p : HostPortId) (e : List Byte) : Prop :=
  let addr := slotField e 16 8 % 2 ^ 52
  t.out = s.out ++ [.hostWrite p ((e.take 16).mapIdx (fun i b => (addr + i, b)))] ∧ t.heads.delivering = some s.ioNext ∧
    t.heads.mode = s.heads.mode.set p.val 1 ∧
    t.hostWrites = s.hostWrites ++ [⟨s.ioNext, p, 0, .block, addr, (e.take 16).mapIdx (fun i b => (addr + i, b)), true, false⟩]

/-- The virtual address that turnout entry e gives an aperture offset. -/
def Sys2Proof.Claims.toVa (s : State) (e : Fin 256) (off : Nat) : Nat :=
  (s.rd (.TO_VBASE e.val)).toNat / 4096 * 4096 + (off - s.fld (.TO_APER e.val) F.TO_APER_START * 4096)

/-- Turnout entry e, and no other, maps n bytes at an aperture offset and permits the access, and its context is not revoked (R460, R461). -/
def Sys2Proof.Claims.InEntry (s : State) (off n : Nat) (write : Bool) (e : Fin 256) : Prop :=
  s.toOn e.val = true ∧ (s.toSpan e.val).1 ≤ off ∧ off + n ≤ (s.toSpan e.val).2 ∧
    (∀ f : Fin 256, s.toOn f.val = true → (s.toSpan f.val).1 ≤ off → off + n ≤ (s.toSpan f.val).2 → f = e) ∧
    s.toCtx e.val ≠ 0 ∧ s.revoked (s.toCtx e.val) = false ∧
    s.fld (.TO_CFG e.val) (if write then F.TO_CFG_W else F.TO_CFG_RD) = 1

/-- A LOCAL range serves n bytes at a virtual address for an access. -/
def Sys2Proof.Claims.Serves (r : RCEntry) (va n : Nat) (acc : BitVec 4) : Prop :=
  r.cls = .localMem ∧ r.perm &&& acc = acc ∧ va + n ≤ r.vstart + r.pages * 4096

/-- A refusal of the turnout is counted twice, recorded when it is the first, and raises the port's source. -/
def Sys2Proof.Claims.TurnoutRefuses (s t : State) (cause line : Nat) : Prop :=
  PortRefuses s t 0 cause line ∧ t.fld .TO_REFUSE F.TO_REFUSE_COUNT = min (2 ^ 32 - 1) (s.fld .TO_REFUSE F.TO_REFUSE_COUNT + 1) ∧
    KeepsRegs s t [.HP_REFUSE, .HP_REFFIRST, .TO_REFUSE] ∧ KeepsBytes s t ∧ t.heads = s.heads

/-- Re-attachment of host ports, the holding ring, and the turnout's enables, writes and reads. AT_ATTACH with a wrong
generation, for an attached port or a link that is not up, only sets AT_ERR. With an empty ring the port is ATTACHED. DELIVER
writes the entry at HR_HEAD to its address; once performed, HR_HEAD goes on, and the next entry leaves or the port is
ATTACHED. COLLECT lets the driver write HR_HEAD + 1, and only that. A turnout entry is enabled, or refused with TO_ERR. A
write through an enabled entry leaves for memory, a read returns the bytes, after the writes before it; any other is refused
and counted. -/
def Obligations.HoldingRingAndTurnout : Prop :=
  (∀ (s : State) (v : Word32), Runs s →
    let p : HostPortId := if v.getLsbD 2 then 1 else 0
    let m := bitsOf v 1 0
    let right : Prop := bitsOf v 31 8 = s.fld .AT_GEN F.AT_GEN_GEN % 2 ^ 24 ∧ s.portState p ≠ 0 ∧ s.groupUp p.val = true
    let wrong (c : Instr) : Prop := Gives c s (fun t => t.fld .HGU_STATUS F.HGU_STATUS_AT_ERR = 1 ∧ OnlyRegs s t [.HGU_STATUS])
    let empty : Prop := s.fld .HR_COUNT F.HR_COUNT_VALUE = 0
    let regs : List Reg := [.AT_STATE, .COH_DEAD 2]
    (m ≠ 1 → Gives (.deliver v) s (fun t => t = s)) ∧ (m ≠ 2 → Gives (.collect v) s (fun t => t = s)) ∧
    (m = 1 → ¬ right → wrong (.deliver v)) ∧ (m = 2 → ¬ right → wrong (.collect v)) ∧
    (m = 1 → right → empty → Gives (.deliver v) s (fun t => Attaches s t p ∧ t.out = s.out ∧ OnlyRing s t regs)) ∧
    (m = 2 → right → empty → Gives (.collect v) s (fun t => Attaches s t p ∧ t.out = s.out ∧ OnlyRing s t regs)) ∧
    (m = 1 → right → ¬ empty → WritesGo s → Gives (.deliver v) s (fun t =>
      Delivers s t p (heldEntry s (s.fld .HR_HEAD F.HR_HEAD_VALUE)) ∧ OnlyRing s t [])) ∧
    (m = 2 → right → ¬ empty → Gives (.collect v) s (fun t => t.heads.mode = s.heads.mode.set p.val 2 ∧
      t = { s with heads := { s.heads with mode := s.heads.mode.set p.val 2 } }))) ∧
  (∀ (s : State), Runs s →
    let n := s.fld .HR_COUNT F.HR_COUNT_VALUE
    let head := s.fld .HR_HEAD F.HR_HEAD_VALUE
    let popped (t : State) : Prop := t.fld .HR_HEAD F.HR_HEAD_VALUE = (head + 1) % 65536 ∧ t.fld .HR_COUNT F.HR_COUNT_VALUE = n - 1 ∧
      t.fld .HGU_STATUS F.HGU_STATUS_HR_FULL = 0
    let rs : List Reg := [.HR_HEAD, .HR_COUNT, .HGU_STATUS]
    let noTorn : Prop := ∀ h, (s.head h).tornRec = none
    let delivers := (List.finRange 2).find? (fun p => s.heads.mode[p] == 1)
    (s.heads.delivering = none ∨ delivers = none → Gives (.holdingEntryDelivered) s (fun t => t = s)) ∧
    (∀ id, s.heads.delivering = some id → ∀ p, delivers = some p →
      ((∃ w ∈ s.hostWrites, w.id = id) → Gives (.holdingEntryDelivered) s (fun t => t = s)) ∧
      ((∀ w ∈ s.hostWrites, w.id ≠ id) → noTorn → byteAt (heldEntry s head) 28 / 2 % 2 = 0 →
        (n ≤ 1 → Gives (.holdingEntryDelivered) s (fun t => popped t ∧ Attaches s t p ∧ t.out = s.out ∧ OnlyRing s t (rs ++ [.AT_STATE, .COH_DEAD 2]))) ∧
        (1 < n → WritesGo s → s.heads.mode[p] = 1 → Gives (.holdingEntryDelivered) s (fun t => popped t ∧
          Delivers s t p (heldEntry s (head + 1)) ∧ OnlyRing s t rs))) ∧
      ((∀ w ∈ s.hostWrites, w.id ≠ id) → noTorn → byteAt (heldEntry s head) 28 / 2 % 2 = 1 → n ≤ 1 → s.hostWrites = [] → WritesGo s →
        ∀ h : HeadId, slotField (heldEntry s head) 24 2 % 1024 = h.val →
        let vec := s.fld (.HG_BIND h.val) F.HG_BIND_VECTOR
        (s.func (s.hgFunction h)).sendable vec = true → vec ∉ (s.func (s.hgFunction h)).pend → vec < 32 →
        Gives (.holdingEntryDelivered) s (fun t => popped t ∧ Attaches s t p ∧ t.out = s.out ++ [.msix (s.hgFunction h) vec]))) ∧
    (∀ v : Word32,
      let collects := (List.finRange 2).find? (fun p => s.heads.mode[p] == 2)
      (collects = none ∨ n = 0 ∨ bitsOf v 16 0 ≠ (head + 1) % 65536 → Gives (.hrHeadWrite v) s (fun t => t = s)) ∧
      (∀ p, collects = some p → n ≠ 0 → bitsOf v 16 0 = (head + 1) % 65536 → noTorn →
        (n = 1 → Gives (.hrHeadWrite v) s (fun t => popped t ∧ Attaches s t p ∧ t.out = s.out ∧ OnlyRing s t (rs ++ [.AT_STATE, .COH_DEAD 2]))) ∧
        (1 < n → Gives (.hrHeadWrite v) s (fun t => popped t ∧ t.heads = s.heads ∧ OnlyRegs s t rs))))) ∧
  (∀ (s : State) (e : Fin 256), Runs s →
    let a := s.fld (.TO_APER e.val) F.TO_APER_START * 4096
    let b := a + s.fld (.TO_PAGES e.val) F.TO_PAGES_PAGES * 4096
    let c : Byte := BitVec.ofNat 8 (s.fld (.TO_CFG e.val) F.TO_CFG_CTX)
    let on : Prop := s.fld (.TO_CFG e.val) F.TO_CFG_ENABLE = 1
    let overlaps (f : Fin 256) : Prop := f ≠ e ∧ s.fld (.TO_CFG f.val) F.TO_CFG_ENABLE = 1 ∧
      s.fld (.TO_APER f.val) F.TO_APER_START * 4096 < b ∧
      a < (s.fld (.TO_APER f.val) F.TO_APER_START + s.fld (.TO_PAGES f.val) F.TO_PAGES_PAGES) * 4096
    let bad : Prop := 2 ^ 34 < b ∨ a = b ∨ (∃ f, overlaps f) ∨ s.ctxValid c = false ∨ s.portCarries 0 c = false
    (on → Gives (.toEnable e) s (fun t => t = s)) ∧
    (¬ on → bad → Gives (.toEnable e) s (fun t => t.fld .HGU_STATUS F.HGU_STATUS_TO_ERR = 1 ∧ OnlyRegs s t [.HGU_STATUS])) ∧
    (¬ on → ¬ bad → Gives (.toEnable e) s (fun t => t.fld (.TO_CFG e.val) F.TO_CFG_ENABLE = 1 ∧ OnlyRegs s t [.TO_CFG e.val]))) ∧
  (∀ (s : State) (off : BitVec 34) (data : List Byte), Runs s →
    let n := data.length
    let counted (t : State) : Prop := { t with obs := s.obs } = s ∧ { t.obs with counts := s.obs.counts } = s.obs
    (s.funcOpen .pf0 = false ∨ n = 0 → Gives (.turnoutWrite off data) s counted) ∧
    (s.funcOpen .pf0 = true → 0 < n → s.heads.writes.length + n / 64 + 2 ≤ 4096 →
      (s.ideBars 0 = true → Gives (.turnoutWrite off data) s (fun t => TurnoutRefuses s t 4 0 ∧ t.out = s.out)) ∧
      (s.ideBars 0 = false → s.safe = true → Gives (.turnoutWrite off data) s (fun t => TurnoutRefuses s t 3 off.toNat ∧ t.out = s.out)) ∧
      (s.ideBars 0 = false → s.safe = false →
        ((∀ e : Fin 256, s.toOn e.val = false) → Gives (.turnoutWrite off data) s (fun t => TurnoutRefuses s t 0 0 ∧ t.out = s.out)) ∧
        (∀ e : Fin 256, InEntry s off.toNat n true e →
          let c := s.toCtx e.val
          let va := toVa s e off.toNat
          (s.rangeWalk c va = none → Gives (.turnoutWrite off data) s (fun t => TurnoutRefuses s t 0 0 ∧ t.out = s.out)) ∧
          (∀ r, s.rangeWalk c va = some r →
            let addr := (r.pstart + (va - r.vstart)) % 2 ^ 52
            let line := localOf addr / 64 * 64
            (¬ Serves r va n accW → Gives (.turnoutWrite off data) s (fun t => TurnoutRefuses s t 0 0 ∧ t.out = s.out)) ∧
            (Serves r va n accW → chipOf addr = s.chipId → addr % 64 + n ≤ 64 → s.backed line = true →
              (s.ownerOk c line true = true → Gives (.turnoutWrite off data) s (fun t =>
                SendsCoh s t (fun m => (m.opc.toNat = 5 ∨ m.opc.toNat = 6) ∧ m.ctx = c ∧ m.addr.toNat = addr / 64 * 64 ∧
                  (∀ i, i < 64 → m.byteMask.getLsbD i = decide (addr % 64 ≤ i ∧ i < addr % 64 + n)) ∧
                  (∀ i, i < n → m.data.getD (addr % 64 + i) 0 = data.getD i 0) ∧
                  (∃ w, t.heads.writes.getLast? = some w ∧ (w.tag = m.txn ∧ w.head = 1024))) ∧
                t.heads.writes.length = s.heads.writes.length + 1 ∧ KeepsRegs s t [] ∧ KeepsBytes s t)) ∧
              (s.ownerOk c line true = false → Gives (.turnoutWrite off data) s (fun t =>
                t.fld .TO_REFUSE F.TO_REFUSE_COUNT = min (2 ^ 32 - 1) (s.fld .TO_REFUSE F.TO_REFUSE_COUNT + 1) ∧
                t.fld .OT_REFUSALS F.OT_REFUSALS_COUNT = min (2 ^ 32 - 1) (s.fld .OT_REFUSALS F.OT_REFUSALS_COUNT + 1) ∧
                ⟨21, [c], some (homeSlice (localOf addr)).val⟩ ∈ t.wmEvents ∧ t.out = s.out ∧ KeepsBytes s t)))))))) ∧
  (∀ (s : State) (off : BitVec 34) (len : Nat) (outside : List Byte), Runs s →
    let c := Instr.turnoutRead off ⟨len, outside⟩
    let unsupported (t : State) : Prop := t.out = s.out ++ [.port 0 .unsupported]
    ((∃ w ∈ s.heads.writes, w.head = 1024) →
      Gives c s (fun t => t = { s with heads := { s.heads with held := s.heads.held ++ [(s.heads.seq, .read off len outside)] } })) ∧
    ((∀ w ∈ s.heads.writes, w.head ≠ 1024) →
      (s.funcOpen .pf0 = false → Gives c s (fun t => unsupported t ∧ KeepsRegs s t [] ∧ KeepsBytes s t)) ∧
      (s.funcOpen .pf0 = true →
        (len = 0 → Gives c s (fun t => t.out = s.out ++ [.port 0 (.readData [])] ∧ KeepsRegs s t [] ∧ KeepsBytes s t)) ∧
        (0 < len → s.ideBars 0 = true → Gives c s (fun t => unsupported t ∧ TurnoutRefuses s t 4 0)) ∧
        (0 < len → s.ideBars 0 = false → (s.twinActive = true ∨ s.safe = true) → Gives c s (fun t => unsupported t ∧ TurnoutRefuses s t 3 off.toNat)) ∧
        (0 < len → s.ideBars 0 = false → WritesGo s →
          ((∀ e : Fin 256, s.toOn e.val = false) → Gives c s (fun t => unsupported t ∧ TurnoutRefuses s t 0 0)) ∧
          (∀ e : Fin 256, InEntry s off.toNat len false e →
            let x := s.toCtx e.val
            let va := toVa s e off.toNat
            (s.rangeWalk x va = none → Gives c s (fun t => unsupported t ∧ TurnoutRefuses s t 0 0)) ∧
            (∀ r, s.rangeWalk x va = some r →
              let addr := (r.pstart + (va - r.vstart)) % 2 ^ 52
              let a := localOf addr
              (¬ Serves r va len accR → Gives c s (fun t => unsupported t ∧ TurnoutRefuses s t 0 0)) ∧
              (Serves r va len accR → chipOf addr = s.chipId → addr % 64 + len ≤ 64 → s.backed (a / 64 * 64) = true →
                s.ownerOk x (a / 64 * 64) false = true → s.unitRefusal x a len = (0, s) → s.home.riderLines = [] → (∀ k, (s.tile k).atoms = []) →
                Gives c s (fun t => t.out = s.out ++ [.port 0 (.readData (s.rdBytes a len))] ∧ KeepsRegs s t [] ∧ KeepsBytes s t ∧
                  t.heads = s.heads))))))))

/-- Rider core k runs from an entry, with nothing outstanding. -/
def Sys2Proof.Claims.RunsFrom (t : State) (k : RiderId) (entry : Word64) : Prop :=
  t.rider k = { Rider.reset with running := true, entry := entry } ∧ t.agentDead (48 + k.val) = false

/-- Nothing but registers of a list, rider cores and the state of boot has changed. -/
def Sys2Proof.Claims.OnlyBoot (s t : State) (rs : List Reg) : Prop :=
  KeepsRegs s t rs ∧ { t with regs := s.regs, riders := s.riders, boot := s.boot, fresh := s.fresh } = s

/-- Nothing but the grant, breakpoints, HOLD of engines and full counters has changed. -/
def Sys2Proof.Claims.OnlyDebug (s t : State) : Prop :=
  (∀ r, r ≠ .DBG_GRANT → r ≠ .DBG_LEFT → r ≠ .DBG_NONCE → (∀ k, r ≠ .OBS_BP k) → (∀ e, r ≠ .ES_CTRL e) → (∀ e, r ≠ .ES_STATUS e) → t.rd r = s.rd r) ∧
    KeepsBytes s t

/-- Boot, the levee's close, rider cores, the access faults and fences of a rider core, and debug grants. The ROM takes an
authenticated image and goes on to stage 2, or times out with its cause and closes the levee. A close loads the keys of the
key slots that have a field, and core 1 starts at its entry. After the scrub, SRAMs hold zeros and core 0 starts. RUN starts
a core of a valid, allowed context at its entry and sets its bit, or sets ERR; a cleared RUN stops it, and it is dead. An
access that no map or range serves is noted as the core's fault. A FENCE waits for earlier writes. A grant is installed for
its nonce and its signer; revoke and expiry end it. -/
def Obligations.BootAndDebug : Prop :=
  (∀ (s : State) (image : List Byte) (authFailed : Bool), Runs s →
    let waits : Prop := (s.rider 0).running = true ∧ s.fld .LV_CTRL F.LV_CTRL_CLOSED = 0 ∧ s.boot.loading = false ∧ s.boot.scrub = false ∧
      s.fld .BOOT_STATUS F.BOOT_STATUS_STAGE ≤ 1
    (¬ waits → Gives (.imageAuthenticated image) s (fun t => t = s) ∧ Gives (.imageTimeout authFailed) s (fun t => t = s)) ∧
    (waits → Gives (.imageAuthenticated image) s (fun t => t.boot = { s.boot with image := image.take (2 ^ 20) } ∧
      t.fld .BOOT_STATUS F.BOOT_STATUS_STAGE = 2 ∧ OnlyBoot s t [.BOOT_STATUS] ∧ t.riders = s.riders)) ∧
    (waits → Gives (.imageTimeout authFailed) s (fun t => t.fld .BOOT_STATUS F.BOOT_STATUS_STAGE = 15 ∧
      t.fld .BOOT_STATUS F.BOOT_STATUS_FAIL = (if authFailed then 2 else 1) ∧ t.boot = { s.boot with loading := true } ∧
      (t.rider 0).running = false ∧ (∀ k, k ≠ 0 → t.rider k = s.rider k) ∧ OnlyBoot s t [.BOOT_STATUS])) ∧
    let open_ : Prop := s.fld .LV_CTRL F.LV_CTRL_CLOSED = 0 ∧ s.boot.loading = false
    (open_ → Gives (.leveeClose) s (fun t => t = { s with boot := { s.boot with loading := true } })) ∧
    (¬ open_ → Gives (.leveeClose) s (fun t => t = s)) ∧
    (s.boot.loading = false → Gives (.keysLoaded) s (fun t => t = s)) ∧
    (s.boot.loading = true → Gives (.keysLoaded) s (fun t => t.fld .LV_CTRL F.LV_CTRL_CLOSED = 1 ∧ t.boot.loading = false ∧
      (s.lifecycle = 3 → t.boot.keys = []) ∧
      (s.lifecycle ≠ 3 → (∀ x ∈ t.boot.keys, x.1 < 64 ∧ (s.keyField x.1 < 15 ∨ s.fld .LV_CTRL F.LV_CTRL_KEY0 = x.1)) ∧
        (∀ j, j < 64 → s.keyField j < 15 ∨ s.fld .LV_CTRL F.LV_CTRL_KEY0 = j → ∃ x ∈ t.boot.keys, x.1 = j)) ∧
      RunsFrom t 1 (s.rd (.RC_ENTRY 1)) ∧ (∀ k, k ≠ 1 → t.rider k = s.rider k) ∧ OnlyBoot s t [.LV_CTRL, .COH_DEAD 1])) ∧
    (s.boot.scrub = false → Gives (.scrubDone) s (fun t => t = s)) ∧
    (s.boot.scrub = true → Gives (.scrubDone) s (fun t => t.boot.scrub = false ∧ t.boot.keys = [] ∧ t.boot.image = [] ∧ t.home.resv = [] ∧
      t.home.dir = [] ∧ t.heads.rc = [] ∧ (∀ k, (t.tile k).pmem = [] ∧ (t.tile k).ta.acc = [] ∧ (t.tile k).rcV = [] ∧ (t.tile k).atoms = []) ∧
      (s.rst.cold = true → RunsFrom t 0 bootRom) ∧
      (s.rst.cold = false → RunsFrom t 0 (s.rd (.RC_ENTRY 0)) ∧ RunsFrom t 1 (s.rd (.RC_ENTRY 1))) ∧
      (∀ (k : TileId) (i : Nat), i < 0x600000 → t.mem.get (slabAddr k i) = 0) ∧ KeepsRegs s t [.COH_DEAD 1]))) ∧
  (∀ (s : State) (k : RiderId), Runs s →
    let c : Byte := BitVec.ofNat 8 (s.fld (.LV_RIDER k.val) F.LV_RIDER_CTX)
    let refused : Prop := s.fld .LV_CTRL F.LV_CTRL_CLOSED = 0 ∨ c = 0 ∨ s.ctxValid c = false ∨
      s.ctxField c ≠ s.fld (.LV_RIDER k.val) F.LV_RIDER_FIELD ∨ s.revoked c = true ∨ s.safe = true
    (k.val < 2 ∨ (s.rider k).running = true → Gives (.runRelease k) s (fun t => t = s)) ∧
    (k.val < 2 ∨ (s.rider k).running = false → Gives (.runReset k) s (fun t => t = s)) ∧
    (2 ≤ k.val → (s.rider k).running = false →
      (refused → Gives (.runRelease k) s (fun t => t.fld .RC_STATUS F.RC_STATUS_ERR = 1 ∧ OnlyRegs s t [.RC_STATUS])) ∧
      (¬ refused → Gives (.runRelease k) s (fun t => RunsFrom t k (s.rd (.RC_ENTRY k.val)) ∧
        (t.rd .RC_CTRL).getLsbD k.val = true ∧ (t.rd .RC_STATUS).getLsbD k.val = true ∧
        (∀ j, j ≠ k → t.rider j = s.rider j) ∧ OnlyBoot s t [.RC_CTRL, .RC_STATUS, .COH_DEAD 1]))) ∧
    (2 ≤ k.val → (s.rider k).running = true → s.home.txns = [] → s.home.dir = [] → Gives (.runReset k) s (fun t =>
      t.rider k = Rider.reset ∧ (t.rd .RC_CTRL).getLsbD k.val = false ∧ (t.rd .RC_STATUS).getLsbD k.val = false ∧
      t.agentDead (48 + k.val) = true ∧ (∀ j, j ≠ k → t.rider j = s.rider j) ∧
      (s.agentDead (48 + k.val) = false → ∀ l ∈ t.home.riderLines, l.core ≠ k) ∧ KeepsBytes s t))) ∧
  (∀ (s : State) (k : RiderId) (addr : Word64) (kind : BitVec 2) (io : Bool), Runs s →
    let live : Prop := (s.rider k).running = true ∧ (s.rider k).halted = false
    let c : Byte := BitVec.ofNat 8 (s.fld (.LV_RIDER k.val) F.LV_RIDER_CTX)
    let acc : BitVec 4 := if kind.toNat = 0 then accR else if kind.toNat = 1 then accW else accX
    let faults (t : State) : Prop := t.rider k = { s.rider k with fault := some (addr, kind) } ∧ (∀ j, j ≠ k → t.rider j = s.rider j) ∧ OnlyBoot s t []
    let cmd := Instr.riderAccessFault k addr kind
    (¬ live → Gives cmd s (fun t => t = s)) ∧
    (live → k.val < 2 → s.riderMapped addr.toNat kind.toNat = true → Gives cmd s (fun t => t = s)) ∧
    (live → k.val < 2 → s.riderMapped addr.toNat kind.toNat = false → Gives cmd s faults) ∧
    (live → 2 ≤ k.val → 2 ^ 52 ≤ addr.toNat → Gives cmd s faults) ∧
    (live → 2 ≤ k.val → addr.toNat < 2 ^ 52 → c ≠ 0 → s.boot.rcRider = [] →
      (s.rangeWalk c addr.toNat = none → Gives cmd s faults) ∧
      (∀ e, s.rangeWalk c addr.toNat = some e →
        (e.perm &&& acc ≠ acc → Gives cmd s (fun t => faults t ∧ t.boot.rcRider = [e])) ∧
        (e.perm &&& acc = acc → Gives cmd s (fun t => t = { s with boot := { s.boot with rcRider := [e] } })))) ∧
    (¬ live → Gives (.riderFence k io) s (fun t => t = s)) ∧
    (live → s.riderFenceOver k = true → Gives (.riderFence k io) s (fun t => t = s)) ∧
    (live → s.riderFenceOver k = false → Gives (.riderFence k io) s (fun t => t.rider k = { s.rider k with fence := some io } ∧
      (∀ j, j ≠ k → t.rider j = s.rider j) ∧ { t with riders := s.riders } = s))) ∧
  (∀ (s : State) (g : DebugGrant), Runs s →
    let ends (c : Instr) : Prop :=
      (s.fld .DBG_GRANT F.DBG_GRANT_VALID = 0 → Gives c s (fun t => t = s)) ∧
      (s.fld .DBG_GRANT F.DBG_GRANT_VALID = 1 → Gives c s (fun t => t.rd .DBG_GRANT = 0 ∧ t.rd .DBG_LEFT = 0 ∧
        t.rd .DBG_NONCE = s.rd .DBG_NONCE ∧ OnlyDebug s t ∧
        (s.lifecycle ≠ 0 → (∀ k, k < 48 → t.fld (.OBS_BP k) F.OBS_BP_ENABLE = 0) ∧ (∀ x ∈ t.obs.counts, x.1 < 0x1D4000))))
    ends (.revoke) ∧ ends (.grantExpiry) ∧
    Gives (.challenge) s (fun t => t.rd .DBG_NONCE ≠ 0 ∧ KeepsRegs s t [.DBG_NONCE] ∧ { t with regs := s.regs, fresh := s.fresh } = s) ∧
    let signed : Prop := (s.lifecycle = 1 ∧ (g.signer = 1 ∨ g.signer = 2)) ∨ (s.lifecycle = 2 ∧ g.signer = 2) ∨ (s.lifecycle = 3 ∧ g.signer = 1)
    let right : Prop := g.nonce ≠ 0 ∧ g.nonce = s.rd .DBG_NONCE ∧ signed ∧ s.fld .LV_CTRL F.LV_CTRL_CLOSED ≠ 0
    (¬ right → Gives (.grantInstall g) s (fun t => t = s)) ∧
    (right → Gives (.grantInstall g) s (fun t => t.fld .DBG_GRANT F.DBG_GRANT_VALID = 1 ∧ t.fld .DBG_GRANT F.DBG_GRANT_SIGNER = g.signer.toNat ∧
      t.fld .DBG_GRANT F.DBG_GRANT_CAPS = g.caps.toNat ∧ t.fld .DBG_GRANT F.DBG_GRANT_FIELDS = g.fields.toNat ∧
      t.fld .DBG_LEFT F.DBG_LEFT_SECONDS = g.lifetime.toNat ∧ t.rd .DBG_NONCE = 0 ∧ OnlyDebug s t)))

/-- An error of one bit position in a stored integer fails the residue comparison; one by a multiple of 127 passes it. The
comparison of R69 fails for an entry without OVERFLOW exactly when the stored integer modulo 127 is not the kept residue.
From an entry that passes, an integer that differs by 2^i or by -2^i, for any i, fails; one that differs by a multiple of 127
passes. The residues that the channel adds up keep the comparison passed: those of the terms, rounded onto the grid (R68),
and of combined partials. -/
def Obligations.ResiduesDetectBitErrors : Prop :=
  let checked (w : Wide) : Prop := w.flags &&& WFlags.OVERFLOW = 0
  (∀ (w : Wide) (r : Nat), (residueOf w.int : Int) = w.int.toInt % 127 ∧
    (checked w → (residueFails w r = true ↔ w.int.toInt % 127 ≠ (r : Int) % 127)) ∧
    (¬ checked w → residueFails w r = false)) ∧
  (∀ (w x : Wide) (r i : Nat), checked w → checked x → residueFails w r = false →
    (x.int.toInt = w.int.toInt + 2 ^ i → residueFails x r = true) ∧
    (x.int.toInt = w.int.toInt - 2 ^ i → residueFails x r = true)) ∧
  (∀ (w x : Wide) (r : Nat) (k : Int), checked w → checked x → residueFails w r = false →
    x.int.toInt = w.int.toInt + 127 * k → residueFails x r = false) ∧
  (∀ (w : Wide) (v : FVal) (r : Nat), checked w → residueFails w r = false →
    residueFails (w.addTerm v) ((r + v.termResidue w.anchor) % 127) = false) ∧
  (∀ (w x : Wide) (r q : Nat), checked w → checked x → residueFails w r = false → residueFails x q = false →
    residueFails (w.combine x) ((r + q) % 127) = false)

/-- A coherent message carries a data flit of 64 bytes or none (R353). -/
def Sys2Proof.Claims.FlitsRight (m : CohMsg) : Bool := if m.hasData then m.data.length == 64 else m.data == []

/-- The fields of a parcel have values that its layout can hold: a part of a line with as many bytes as PLEN says, a whole line of 256
bytes, a ping message of number 1 to 4, and at most four flits in a CONTAINER (R252 to R256). -/
def Sys2Proof.Claims.ParcelRight : Parcel → Bool
  | .data d => if d.part then d.data.length == d.plenM1.toNat + 1 else d.data.length == 256 && d.win == 0 && d.plenM1 == 0
  | .ping m => decide (1 ≤ m.num ∧ m.num ≤ 4)
  | .container c => c.flits.all FlitsRight && decide ((c.flits.map CohMsg.flits).sum ≤ 4)
  | _ => true

/-- The 272 bytes of a parcel spell that parcel, with every field at every value. For every parcel whose fields its layout
can hold, its bytes are 272, the low four bits of the first are its TYPE, and reading them gives the parcel back, with every
field and every coherent message of a CONTAINER. Bytes whose CRC does not match, or of a reserved TYPE, spell none. -/
def Obligations.ParcelsOnTheWire : Prop :=
  (∀ p : Parcel, ParcelRight p = true → p.bytes.length = 272 ∧ (p.bytes.getD 0 0).toNat % 16 = p.type ∧ Parcel.ofBytes p.bytes = some p) ∧
  (∀ m : CohMsg, FlitsRight m = true → (cohBytes m).length = 64 * m.flits ∧
    cohOfBytes ((cohBytes m).take 64) ((cohBytes m).drop 64) = m) ∧
  (∀ bs : List Byte, leNat ((bs.drop 12).take 4) ≠ parcelCrc (bs.take 12) (bs.drop 16) → Parcel.ofBytes bs = none) ∧
  (∀ bs : List Byte, 8 ≤ (bs.getD 0 0).toNat % 16 → Parcel.ofBytes bs = none)
end

