-- ==== Sys2Proof/Laws/Memory.lean ====
section
/-! SUPPORT. Memory: a byte reads back as written, a write leaves every other byte alone, and every write keeps the
canonical form. -/

namespace Sys2Proof.Machine

/-- Erasing a key is what a read of another key does not see. -/
theorem Assoc.get_erase {β : Type} (l : List (Nat × β)) (k a : Nat) :
    Assoc.get? (Assoc.erase l k) a = if a = k then none else Assoc.get? l a := by
  induction l with
  | nil => simp [Assoc.erase, Assoc.get?]
  | cons x r ih =>
    obtain ⟨k', v⟩ := x
    simp only [Assoc.erase] at ih ⊢
    by_cases h : k' = k
    · subst h
      by_cases e : a = k' <;> simp_all [Assoc.get?, eq_comm]
    · by_cases e : k' = a
      · subst e; simp [Assoc.get?, h]
      · simpa [Assoc.get?, h, e] using ih

/-- Inserting a key is what a read of that key alone sees. -/
theorem Assoc.get_insert {β : Type} (l : List (Nat × β)) (k a : Nat) (v : β) :
    Assoc.get? (Assoc.insert id l k v) a = if a = k then some v else Assoc.get? l a := by
  induction l with
  | nil => simp [Assoc.insert, Assoc.get?, eq_comm]
  | cons x r ih =>
    obtain ⟨k', v'⟩ := x
    simp only [Assoc.insert, id]
    split
    · rename_i h; subst h
      by_cases e : a = k' <;> simp_all [Assoc.get?, eq_comm]
    · split
      · by_cases e : a = k <;> simp_all [Assoc.get?, eq_comm]
      · by_cases e : k' = a
        · subst e; simp_all [Assoc.get?]
        · simp [Assoc.get?, e, ih]

/-- A byte reads as it was last written; every other byte reads as before. -/
theorem Memory.get_set (m : Memory) (a b : Nat) (v : Byte) : (m.set a v).get b = if b = a then v else m.get b := by
  unfold Memory.get Memory.set Assoc.put
  split
  · rename_i h; rw [Assoc.get_erase]; split <;> simp [h]
  · rw [Assoc.get_insert]; split <;> simp

/-- The canonical form from a bound holds from every lower bound. -/
theorem Memory.wfFrom_mono {m : Memory} {lo lo' : Nat} (h : lo' ≤ lo) (hm : Memory.wfFrom lo m = true) :
    Memory.wfFrom lo' m = true := by
  cases m with
  | nil => rfl
  | cons x r =>
    obtain ⟨a, b⟩ := x
    simp only [Memory.wfFrom, Bool.and_eq_true, decide_eq_true_eq] at hm ⊢
    exact ⟨⟨h.trans hm.1.1, hm.1.2⟩, hm.2⟩

theorem Memory.wfFrom_erase {m : Memory} {lo k : Nat} (hm : Memory.wfFrom lo m = true) :
    Memory.wfFrom lo (Assoc.erase m k) = true := by
  induction m generalizing lo with
  | nil => rfl
  | cons x r ih =>
    obtain ⟨a, b⟩ := x
    simp only [Memory.wfFrom, Bool.and_eq_true, decide_eq_true_eq] at hm
    have h2 := ih hm.2
    unfold Assoc.erase at h2 ⊢
    simp only [List.filter]
    split
    · simp only [Memory.wfFrom, Bool.and_eq_true, decide_eq_true_eq]; exact ⟨hm.1, h2⟩
    · exact Memory.wfFrom_mono (by omega) h2

theorem Memory.wfFrom_insert {m : Memory} {lo k : Nat} {v : Byte} (hv : v ≠ Memory.unlisted) (hk : lo ≤ k)
    (hm : Memory.wfFrom lo m = true) : Memory.wfFrom lo (Assoc.insert id m k v) = true := by
  induction m generalizing lo with
  | nil => simp [Assoc.insert, Memory.wfFrom, hv, hk]
  | cons x r ih =>
    obtain ⟨a, b⟩ := x
    simp only [Memory.wfFrom, Bool.and_eq_true, decide_eq_true_eq] at hm
    simp only [Assoc.insert, id]
    split
    · rename_i h; subst h; simp [Memory.wfFrom, hv, hm.1.1, hm.2]
    · split
      · rename_i h; simp only [Memory.wfFrom, Bool.and_eq_true, decide_eq_true_eq]
        exact ⟨⟨hk, hv⟩, ⟨by omega, hm.1.2⟩, hm.2⟩
      · simp only [Memory.wfFrom, Bool.and_eq_true, decide_eq_true_eq]
        exact ⟨hm.1, ih (by omega) hm.2⟩

/-- A write keeps the canonical form. -/
theorem Memory.wf_set {m : Memory} {a : Nat} {v : Byte} (hm : m.wf = true) : (m.set a v).wf = true := by
  unfold Memory.wf Memory.set Assoc.put at *
  split
  · exact Memory.wfFrom_erase hm
  · exact Memory.wfFrom_insert ‹_› (Nat.zero_le _) hm

/-- Any number of writes keeps the canonical form. -/
theorem Memory.wf_setAll {m : Memory} {ws : List (Nat × Byte)} (hm : m.wf = true) : (m.setAll ws).wf = true := by
  unfold Memory.setAll
  induction ws generalizing m with
  | nil => exact hm
  | cons w r ih => exact ih (Memory.wf_set hm)

@[simp] theorem Memory.setAll_nil (m : Memory) : m.setAll [] = m := rfl

end Sys2Proof.Machine
end

