-- ==== Sys2Proof/Laws/Commit.lean ====
section
/-! SUPPORT. What the commitment of a command can do: every command answers a next state, with the queue as it was, no
store on its way, and memory in its canonical form when it was. -/

namespace Sys2Proof.Machine

/-- The state in which commitAlways leaves the block. -/
def State.done (s : State) (f : State → State) : State :=
  let t := (f { s with journal := [] }).countStores
  { t with mem := s.mem.setAll (t.journal.reverse.map (fun c => (c.1, c.2.1))), journal := [], pending := s.pending }

theorem State.commitAlways_eq (s : State) (f : State → State) : s.commitAlways f = .next (s.done f) := rfl

theorem State.commit_eq (s : State) (f : State → State) :
    s.commit f = .next (if s.inReset then s else s.done f) := by
  unfold State.commit; split <;> rfl

theorem State.commitBus_eq (s : State) (f : State → State) :
    s.commitBus f = .next (if s.dark then s else s.done f) := by
  unfold State.commitBus; split <;> rfl

@[simp] theorem State.done_pending (s : State) (f : State → State) : (s.done f).pending = s.pending := rfl
@[simp] theorem State.done_journal (s : State) (f : State → State) : (s.done f).journal = [] := rfl

theorem State.done_mem (s : State) (f : State → State) : ∃ ws, (s.done f).mem = s.mem.setAll ws := ⟨_, rfl⟩

/-- A command leaves the state tidy. -/
theorem State.done_tidy {s : State} (f : State → State) (h : s.tidy) : (s.done f).tidy :=
  ⟨Memory.wf_setAll h.1, rfl⟩

theorem State.countStores_nil (s : State) (h : s.journal = []) : s.countStores = s := by
  simp [State.countStores, h]

/-- A command that stores nothing below the reservoir leaves just what it computes. -/
theorem State.done_eq {s : State} {f : State → State} (h : s.journal = []) (hj : (f s).journal = [])
    (hm : (f s).mem = s.mem) (hp : (f s).pending = s.pending) : s.done f = f s := by
  have e : { s with journal := [] } = s := by cases s; simp_all
  unfold State.done
  simp only [e, State.countStores_nil _ hj, hj, List.reverse_nil, List.map_nil, Memory.setAll, List.foldl_nil]
  rw [← hm, ← hp]
  generalize f s = t at *
  cases t; simp_all

/-- The answer of such a command of a unit that runs. -/
theorem State.commit_run {s : State} {f : State → State} (hr : s.inReset = false) (h : s.journal = [])
    (hj : (f s).journal = []) (hm : (f s).mem = s.mem) (hp : (f s).pending = s.pending) :
    s.commit f = .next (f s) := by
  rw [State.commit_eq, hr, State.done_eq h hj hm hp]; rfl

theorem State.commitAlways_run {s : State} {f : State → State} (h : s.journal = [])
    (hj : (f s).journal = []) (hm : (f s).mem = s.mem) (hp : (f s).pending = s.pending) :
    s.commitAlways f = .next (f s) := by
  rw [State.commitAlways_eq, State.done_eq h hj hm hp]

theorem State.dark_of_inReset {s : State} (h : s.inReset = false) : s.dark = false := by
  unfold State.inReset at h; simp at h; exact h.1

theorem State.commitBus_run {s : State} {f : State → State} (hr : s.inReset = false) (h : s.journal = [])
    (hj : (f s).journal = []) (hm : (f s).mem = s.mem) (hp : (f s).pending = s.pending) :
    s.commitBus f = .next (f s) := by
  rw [State.commitBus_eq, State.dark_of_inReset hr, State.done_eq h hj hm hp]; rfl

theorem State.commitAlways_tidy {s t : State} {f : State → State} (h : s.tidy) (e : s.commitAlways f = .next t) :
    t.tidy := by
  rw [State.commitAlways_eq] at e; cases e; exact State.done_tidy f h

theorem State.commit_tidy {s t : State} {f : State → State} (h : s.tidy) (e : s.commit f = .next t) : t.tidy := by
  rw [State.commit_eq] at e
  cases e
  split
  · exact h
  · exact State.done_tidy f h

theorem State.commitBus_tidy {s t : State} {f : State → State} (h : s.tidy) (e : s.commitBus f = .next t) : t.tidy := by
  rw [State.commitBus_eq] at e
  cases e
  split
  · exact h
  · exact State.done_tidy f h

end Sys2Proof.Machine
end

