-- ==== Sys2Proof/Laws/State.lean ====
section
/-! SUPPORT. What each update of the state leaves as it was: one lemma per field and update; and what a register or a tile
reads after an update. -/

namespace Sys2Proof.Machine

/-- Counting changes only the counters. -/
theorem State.countAt_obs (s : State) (off n : Nat) : ∃ o, s.countAt off n = { s with obs := o } := by
  unfold State.countAt; split
  · exact ⟨s.obs, rfl⟩
  · exact ⟨_, rfl⟩

theorem State.tileCount_obs (s : State) (t : TileId) (k n : Nat) : ∃ o, s.tileCount t k n = { s with obs := o } :=
  s.countAt_obs _ n

theorem State.linkCount_obs (s : State) (i k n : Nat) : ∃ o, s.linkCount i k n = { s with obs := o } := s.countAt_obs _ n

theorem State.fullCount_obs (s : State) (n b : Nat) : ∃ o, s.fullCount n b = { s with obs := o } := by
  unfold State.fullCount
  dsimp only
  split
  · split
    · exact s.countAt_obs _ b
    · exact ⟨s.obs, rfl⟩
  · split
    · exact s.countAt_obs _ b
    · exact ⟨s.obs, rfl⟩

theorem State.both_obs (s : State) (i k a n b : Nat) : ∃ o, (s.linkCount i k a).fullCount n b = { s with obs := o } := by
  obtain ⟨o, h⟩ := s.linkCount_obs i k a
  obtain ⟨o', h'⟩ := (s.linkCount i k a).fullCount_obs n b
  rw [h', h]
  exact ⟨o', rfl⟩

theorem State.account_obs (s : State) (o : Output) : ∃ x, s.account o = { s with obs := x } := by
  unfold State.account
  repeat' split
  all_goals first
    | exact s.fullCount_obs _ _
    | exact s.both_obs _ _ _ _ _
    | exact ⟨s.obs, rfl⟩

@[simp] theorem State.wr_mem (s : State) (r : Reg) (v : Word64) : (s.wr r v).mem = s.mem := rfl
@[simp] theorem State.wr_journal (s : State) (r : Reg) (v : Word64) : (s.wr r v).journal = s.journal := rfl
@[simp] theorem State.wr_pads (s : State) (r : Reg) (v : Word64) : (s.wr r v).pads = s.pads := rfl
@[simp] theorem State.wr_memUE (s : State) (r : Reg) (v : Word64) : (s.wr r v).memUE = s.memUE := rfl
@[simp] theorem State.wr_memCE (s : State) (r : Reg) (v : Word64) : (s.wr r v).memCE = s.memCE := rfl
@[simp] theorem State.wr_keyTags (s : State) (r : Reg) (v : Word64) : (s.wr r v).keyTags = s.keyTags := rfl
@[simp] theorem State.wr_tiles (s : State) (r : Reg) (v : Word64) : (s.wr r v).tiles = s.tiles := rfl
@[simp] theorem State.wr_wmEvents (s : State) (r : Reg) (v : Word64) : (s.wr r v).wmEvents = s.wmEvents := rfl
@[simp] theorem State.wr_links (s : State) (r : Reg) (v : Word64) : (s.wr r v).links = s.links := rfl
@[simp] theorem State.wr_rot (s : State) (r : Reg) (v : Word64) : (s.wr r v).rot = s.rot := rfl
@[simp] theorem State.wr_home (s : State) (r : Reg) (v : Word64) : (s.wr r v).home = s.home := rfl
@[simp] theorem State.wr_patterns (s : State) (r : Reg) (v : Word64) : (s.wr r v).patterns = s.patterns := rfl
@[simp] theorem State.wr_zeroing (s : State) (r : Reg) (v : Word64) : (s.wr r v).zeroing = s.zeroing := rfl
@[simp] theorem State.wr_twin (s : State) (r : Reg) (v : Word64) : (s.wr r v).twin = s.twin := rfl
@[simp] theorem State.wr_msixWait (s : State) (r : Reg) (v : Word64) : (s.wr r v).msixWait = s.msixWait := rfl
@[simp] theorem State.wr_pf0 (s : State) (r : Reg) (v : Word64) : (s.wr r v).pf0 = s.pf0 := rfl
@[simp] theorem State.wr_companion (s : State) (r : Reg) (v : Word64) : (s.wr r v).companion = s.companion := rfl
@[simp] theorem State.wr_vfs (s : State) (r : Reg) (v : Word64) : (s.wr r v).vfs = s.vfs := rfl
@[simp] theorem State.wr_hostWrites (s : State) (r : Reg) (v : Word64) : (s.wr r v).hostWrites = s.hostWrites := rfl
@[simp] theorem State.wr_ide (s : State) (r : Reg) (v : Word64) : (s.wr r v).ide = s.ide := rfl
@[simp] theorem State.wr_hostWait (s : State) (r : Reg) (v : Word64) : (s.wr r v).hostWait = s.hostWait := rfl
@[simp] theorem State.wr_xl (s : State) (r : Reg) (v : Word64) : (s.wr r v).xl = s.xl := rfl
@[simp] theorem State.wr_eslots (s : State) (r : Reg) (v : Word64) : (s.wr r v).eslots = s.eslots := rfl
@[simp] theorem State.wr_heads (s : State) (r : Reg) (v : Word64) : (s.wr r v).heads = s.heads := rfl
@[simp] theorem State.wr_riders (s : State) (r : Reg) (v : Word64) : (s.wr r v).riders = s.riders := rfl
@[simp] theorem State.wr_boot (s : State) (r : Reg) (v : Word64) : (s.wr r v).boot = s.boot := rfl
@[simp] theorem State.wr_rst (s : State) (r : Reg) (v : Word64) : (s.wr r v).rst = s.rst := rfl
@[simp] theorem State.wr_obs (s : State) (r : Reg) (v : Word64) : (s.wr r v).obs = s.obs := rfl
@[simp] theorem State.wr_accCounts (s : State) (r : Reg) (v : Word64) : (s.wr r v).accCounts = s.accCounts := rfl
@[simp] theorem State.wr_out (s : State) (r : Reg) (v : Word64) : (s.wr r v).out = s.out := rfl
@[simp] theorem State.wr_ioNext (s : State) (r : Reg) (v : Word64) : (s.wr r v).ioNext = s.ioNext := rfl
@[simp] theorem State.wr_fresh (s : State) (r : Reg) (v : Word64) : (s.wr r v).fresh = s.fresh := rfl
@[simp] theorem State.wr_pending (s : State) (r : Reg) (v : Word64) : (s.wr r v).pending = s.pending := rfl

@[simp] theorem State.setFld_mem (s : State) (r : Reg) (f : Fld) (v : Nat) : (s.setFld r f v).mem = s.mem := rfl
@[simp] theorem State.setFld_journal (s : State) (r : Reg) (f : Fld) (v : Nat) : (s.setFld r f v).journal = s.journal := rfl
@[simp] theorem State.setFld_pads (s : State) (r : Reg) (f : Fld) (v : Nat) : (s.setFld r f v).pads = s.pads := rfl
@[simp] theorem State.setFld_memUE (s : State) (r : Reg) (f : Fld) (v : Nat) : (s.setFld r f v).memUE = s.memUE := rfl
@[simp] theorem State.setFld_memCE (s : State) (r : Reg) (f : Fld) (v : Nat) : (s.setFld r f v).memCE = s.memCE := rfl
@[simp] theorem State.setFld_keyTags (s : State) (r : Reg) (f : Fld) (v : Nat) : (s.setFld r f v).keyTags = s.keyTags := rfl
@[simp] theorem State.setFld_tiles (s : State) (r : Reg) (f : Fld) (v : Nat) : (s.setFld r f v).tiles = s.tiles := rfl
@[simp] theorem State.setFld_wmEvents (s : State) (r : Reg) (f : Fld) (v : Nat) : (s.setFld r f v).wmEvents = s.wmEvents := rfl
@[simp] theorem State.setFld_links (s : State) (r : Reg) (f : Fld) (v : Nat) : (s.setFld r f v).links = s.links := rfl
@[simp] theorem State.setFld_rot (s : State) (r : Reg) (f : Fld) (v : Nat) : (s.setFld r f v).rot = s.rot := rfl
@[simp] theorem State.setFld_home (s : State) (r : Reg) (f : Fld) (v : Nat) : (s.setFld r f v).home = s.home := rfl
@[simp] theorem State.setFld_patterns (s : State) (r : Reg) (f : Fld) (v : Nat) : (s.setFld r f v).patterns = s.patterns := rfl
@[simp] theorem State.setFld_zeroing (s : State) (r : Reg) (f : Fld) (v : Nat) : (s.setFld r f v).zeroing = s.zeroing := rfl
@[simp] theorem State.setFld_twin (s : State) (r : Reg) (f : Fld) (v : Nat) : (s.setFld r f v).twin = s.twin := rfl
@[simp] theorem State.setFld_msixWait (s : State) (r : Reg) (f : Fld) (v : Nat) : (s.setFld r f v).msixWait = s.msixWait := rfl
@[simp] theorem State.setFld_pf0 (s : State) (r : Reg) (f : Fld) (v : Nat) : (s.setFld r f v).pf0 = s.pf0 := rfl
@[simp] theorem State.setFld_companion (s : State) (r : Reg) (f : Fld) (v : Nat) : (s.setFld r f v).companion = s.companion := rfl
@[simp] theorem State.setFld_vfs (s : State) (r : Reg) (f : Fld) (v : Nat) : (s.setFld r f v).vfs = s.vfs := rfl
@[simp] theorem State.setFld_hostWrites (s : State) (r : Reg) (f : Fld) (v : Nat) : (s.setFld r f v).hostWrites = s.hostWrites := rfl
@[simp] theorem State.setFld_ide (s : State) (r : Reg) (f : Fld) (v : Nat) : (s.setFld r f v).ide = s.ide := rfl
@[simp] theorem State.setFld_hostWait (s : State) (r : Reg) (f : Fld) (v : Nat) : (s.setFld r f v).hostWait = s.hostWait := rfl
@[simp] theorem State.setFld_xl (s : State) (r : Reg) (f : Fld) (v : Nat) : (s.setFld r f v).xl = s.xl := rfl
@[simp] theorem State.setFld_eslots (s : State) (r : Reg) (f : Fld) (v : Nat) : (s.setFld r f v).eslots = s.eslots := rfl
@[simp] theorem State.setFld_heads (s : State) (r : Reg) (f : Fld) (v : Nat) : (s.setFld r f v).heads = s.heads := rfl
@[simp] theorem State.setFld_riders (s : State) (r : Reg) (f : Fld) (v : Nat) : (s.setFld r f v).riders = s.riders := rfl
@[simp] theorem State.setFld_boot (s : State) (r : Reg) (f : Fld) (v : Nat) : (s.setFld r f v).boot = s.boot := rfl
@[simp] theorem State.setFld_rst (s : State) (r : Reg) (f : Fld) (v : Nat) : (s.setFld r f v).rst = s.rst := rfl
@[simp] theorem State.setFld_obs (s : State) (r : Reg) (f : Fld) (v : Nat) : (s.setFld r f v).obs = s.obs := rfl
@[simp] theorem State.setFld_accCounts (s : State) (r : Reg) (f : Fld) (v : Nat) : (s.setFld r f v).accCounts = s.accCounts := rfl
@[simp] theorem State.setFld_out (s : State) (r : Reg) (f : Fld) (v : Nat) : (s.setFld r f v).out = s.out := rfl
@[simp] theorem State.setFld_ioNext (s : State) (r : Reg) (f : Fld) (v : Nat) : (s.setFld r f v).ioNext = s.ioNext := rfl
@[simp] theorem State.setFld_fresh (s : State) (r : Reg) (f : Fld) (v : Nat) : (s.setFld r f v).fresh = s.fresh := rfl
@[simp] theorem State.setFld_pending (s : State) (r : Reg) (f : Fld) (v : Nat) : (s.setFld r f v).pending = s.pending := rfl

@[simp] theorem State.orReg_mem (s : State) (r : Reg) (v : Word64) : (s.orReg r v).mem = s.mem := rfl
@[simp] theorem State.orReg_journal (s : State) (r : Reg) (v : Word64) : (s.orReg r v).journal = s.journal := rfl
@[simp] theorem State.orReg_pads (s : State) (r : Reg) (v : Word64) : (s.orReg r v).pads = s.pads := rfl
@[simp] theorem State.orReg_memUE (s : State) (r : Reg) (v : Word64) : (s.orReg r v).memUE = s.memUE := rfl
@[simp] theorem State.orReg_memCE (s : State) (r : Reg) (v : Word64) : (s.orReg r v).memCE = s.memCE := rfl
@[simp] theorem State.orReg_keyTags (s : State) (r : Reg) (v : Word64) : (s.orReg r v).keyTags = s.keyTags := rfl
@[simp] theorem State.orReg_tiles (s : State) (r : Reg) (v : Word64) : (s.orReg r v).tiles = s.tiles := rfl
@[simp] theorem State.orReg_wmEvents (s : State) (r : Reg) (v : Word64) : (s.orReg r v).wmEvents = s.wmEvents := rfl
@[simp] theorem State.orReg_links (s : State) (r : Reg) (v : Word64) : (s.orReg r v).links = s.links := rfl
@[simp] theorem State.orReg_rot (s : State) (r : Reg) (v : Word64) : (s.orReg r v).rot = s.rot := rfl
@[simp] theorem State.orReg_home (s : State) (r : Reg) (v : Word64) : (s.orReg r v).home = s.home := rfl
@[simp] theorem State.orReg_patterns (s : State) (r : Reg) (v : Word64) : (s.orReg r v).patterns = s.patterns := rfl
@[simp] theorem State.orReg_zeroing (s : State) (r : Reg) (v : Word64) : (s.orReg r v).zeroing = s.zeroing := rfl
@[simp] theorem State.orReg_twin (s : State) (r : Reg) (v : Word64) : (s.orReg r v).twin = s.twin := rfl
@[simp] theorem State.orReg_msixWait (s : State) (r : Reg) (v : Word64) : (s.orReg r v).msixWait = s.msixWait := rfl
@[simp] theorem State.orReg_pf0 (s : State) (r : Reg) (v : Word64) : (s.orReg r v).pf0 = s.pf0 := rfl
@[simp] theorem State.orReg_companion (s : State) (r : Reg) (v : Word64) : (s.orReg r v).companion = s.companion := rfl
@[simp] theorem State.orReg_vfs (s : State) (r : Reg) (v : Word64) : (s.orReg r v).vfs = s.vfs := rfl
@[simp] theorem State.orReg_hostWrites (s : State) (r : Reg) (v : Word64) : (s.orReg r v).hostWrites = s.hostWrites := rfl
@[simp] theorem State.orReg_ide (s : State) (r : Reg) (v : Word64) : (s.orReg r v).ide = s.ide := rfl
@[simp] theorem State.orReg_hostWait (s : State) (r : Reg) (v : Word64) : (s.orReg r v).hostWait = s.hostWait := rfl
@[simp] theorem State.orReg_xl (s : State) (r : Reg) (v : Word64) : (s.orReg r v).xl = s.xl := rfl
@[simp] theorem State.orReg_eslots (s : State) (r : Reg) (v : Word64) : (s.orReg r v).eslots = s.eslots := rfl
@[simp] theorem State.orReg_heads (s : State) (r : Reg) (v : Word64) : (s.orReg r v).heads = s.heads := rfl
@[simp] theorem State.orReg_riders (s : State) (r : Reg) (v : Word64) : (s.orReg r v).riders = s.riders := rfl
@[simp] theorem State.orReg_boot (s : State) (r : Reg) (v : Word64) : (s.orReg r v).boot = s.boot := rfl
@[simp] theorem State.orReg_rst (s : State) (r : Reg) (v : Word64) : (s.orReg r v).rst = s.rst := rfl
@[simp] theorem State.orReg_obs (s : State) (r : Reg) (v : Word64) : (s.orReg r v).obs = s.obs := rfl
@[simp] theorem State.orReg_accCounts (s : State) (r : Reg) (v : Word64) : (s.orReg r v).accCounts = s.accCounts := rfl
@[simp] theorem State.orReg_out (s : State) (r : Reg) (v : Word64) : (s.orReg r v).out = s.out := rfl
@[simp] theorem State.orReg_ioNext (s : State) (r : Reg) (v : Word64) : (s.orReg r v).ioNext = s.ioNext := rfl
@[simp] theorem State.orReg_fresh (s : State) (r : Reg) (v : Word64) : (s.orReg r v).fresh = s.fresh := rfl
@[simp] theorem State.orReg_pending (s : State) (r : Reg) (v : Word64) : (s.orReg r v).pending = s.pending := rfl

@[simp] theorem State.countUp_mem (s : State) (r : Reg) (f : Fld) : (s.countUp r f).mem = s.mem := rfl
@[simp] theorem State.countUp_journal (s : State) (r : Reg) (f : Fld) : (s.countUp r f).journal = s.journal := rfl
@[simp] theorem State.countUp_pads (s : State) (r : Reg) (f : Fld) : (s.countUp r f).pads = s.pads := rfl
@[simp] theorem State.countUp_memUE (s : State) (r : Reg) (f : Fld) : (s.countUp r f).memUE = s.memUE := rfl
@[simp] theorem State.countUp_memCE (s : State) (r : Reg) (f : Fld) : (s.countUp r f).memCE = s.memCE := rfl
@[simp] theorem State.countUp_keyTags (s : State) (r : Reg) (f : Fld) : (s.countUp r f).keyTags = s.keyTags := rfl
@[simp] theorem State.countUp_tiles (s : State) (r : Reg) (f : Fld) : (s.countUp r f).tiles = s.tiles := rfl
@[simp] theorem State.countUp_wmEvents (s : State) (r : Reg) (f : Fld) : (s.countUp r f).wmEvents = s.wmEvents := rfl
@[simp] theorem State.countUp_links (s : State) (r : Reg) (f : Fld) : (s.countUp r f).links = s.links := rfl
@[simp] theorem State.countUp_rot (s : State) (r : Reg) (f : Fld) : (s.countUp r f).rot = s.rot := rfl
@[simp] theorem State.countUp_home (s : State) (r : Reg) (f : Fld) : (s.countUp r f).home = s.home := rfl
@[simp] theorem State.countUp_patterns (s : State) (r : Reg) (f : Fld) : (s.countUp r f).patterns = s.patterns := rfl
@[simp] theorem State.countUp_zeroing (s : State) (r : Reg) (f : Fld) : (s.countUp r f).zeroing = s.zeroing := rfl
@[simp] theorem State.countUp_twin (s : State) (r : Reg) (f : Fld) : (s.countUp r f).twin = s.twin := rfl
@[simp] theorem State.countUp_msixWait (s : State) (r : Reg) (f : Fld) : (s.countUp r f).msixWait = s.msixWait := rfl
@[simp] theorem State.countUp_pf0 (s : State) (r : Reg) (f : Fld) : (s.countUp r f).pf0 = s.pf0 := rfl
@[simp] theorem State.countUp_companion (s : State) (r : Reg) (f : Fld) : (s.countUp r f).companion = s.companion := rfl
@[simp] theorem State.countUp_vfs (s : State) (r : Reg) (f : Fld) : (s.countUp r f).vfs = s.vfs := rfl
@[simp] theorem State.countUp_hostWrites (s : State) (r : Reg) (f : Fld) : (s.countUp r f).hostWrites = s.hostWrites := rfl
@[simp] theorem State.countUp_ide (s : State) (r : Reg) (f : Fld) : (s.countUp r f).ide = s.ide := rfl
@[simp] theorem State.countUp_hostWait (s : State) (r : Reg) (f : Fld) : (s.countUp r f).hostWait = s.hostWait := rfl
@[simp] theorem State.countUp_xl (s : State) (r : Reg) (f : Fld) : (s.countUp r f).xl = s.xl := rfl
@[simp] theorem State.countUp_eslots (s : State) (r : Reg) (f : Fld) : (s.countUp r f).eslots = s.eslots := rfl
@[simp] theorem State.countUp_heads (s : State) (r : Reg) (f : Fld) : (s.countUp r f).heads = s.heads := rfl
@[simp] theorem State.countUp_riders (s : State) (r : Reg) (f : Fld) : (s.countUp r f).riders = s.riders := rfl
@[simp] theorem State.countUp_boot (s : State) (r : Reg) (f : Fld) : (s.countUp r f).boot = s.boot := rfl
@[simp] theorem State.countUp_rst (s : State) (r : Reg) (f : Fld) : (s.countUp r f).rst = s.rst := rfl
@[simp] theorem State.countUp_obs (s : State) (r : Reg) (f : Fld) : (s.countUp r f).obs = s.obs := rfl
@[simp] theorem State.countUp_accCounts (s : State) (r : Reg) (f : Fld) : (s.countUp r f).accCounts = s.accCounts := rfl
@[simp] theorem State.countUp_out (s : State) (r : Reg) (f : Fld) : (s.countUp r f).out = s.out := rfl
@[simp] theorem State.countUp_ioNext (s : State) (r : Reg) (f : Fld) : (s.countUp r f).ioNext = s.ioNext := rfl
@[simp] theorem State.countUp_fresh (s : State) (r : Reg) (f : Fld) : (s.countUp r f).fresh = s.fresh := rfl
@[simp] theorem State.countUp_pending (s : State) (r : Reg) (f : Fld) : (s.countUp r f).pending = s.pending := rfl

@[simp] theorem State.setTile_regs (s : State) (t : TileId) (x : Tile) : (s.setTile t x).regs = s.regs := rfl
@[simp] theorem State.setTile_mem (s : State) (t : TileId) (x : Tile) : (s.setTile t x).mem = s.mem := rfl
@[simp] theorem State.setTile_journal (s : State) (t : TileId) (x : Tile) : (s.setTile t x).journal = s.journal := rfl
@[simp] theorem State.setTile_pads (s : State) (t : TileId) (x : Tile) : (s.setTile t x).pads = s.pads := rfl
@[simp] theorem State.setTile_memUE (s : State) (t : TileId) (x : Tile) : (s.setTile t x).memUE = s.memUE := rfl
@[simp] theorem State.setTile_memCE (s : State) (t : TileId) (x : Tile) : (s.setTile t x).memCE = s.memCE := rfl
@[simp] theorem State.setTile_keyTags (s : State) (t : TileId) (x : Tile) : (s.setTile t x).keyTags = s.keyTags := rfl
@[simp] theorem State.setTile_wmEvents (s : State) (t : TileId) (x : Tile) : (s.setTile t x).wmEvents = s.wmEvents := rfl
@[simp] theorem State.setTile_links (s : State) (t : TileId) (x : Tile) : (s.setTile t x).links = s.links := rfl
@[simp] theorem State.setTile_rot (s : State) (t : TileId) (x : Tile) : (s.setTile t x).rot = s.rot := rfl
@[simp] theorem State.setTile_home (s : State) (t : TileId) (x : Tile) : (s.setTile t x).home = s.home := rfl
@[simp] theorem State.setTile_patterns (s : State) (t : TileId) (x : Tile) : (s.setTile t x).patterns = s.patterns := rfl
@[simp] theorem State.setTile_zeroing (s : State) (t : TileId) (x : Tile) : (s.setTile t x).zeroing = s.zeroing := rfl
@[simp] theorem State.setTile_twin (s : State) (t : TileId) (x : Tile) : (s.setTile t x).twin = s.twin := rfl
@[simp] theorem State.setTile_msixWait (s : State) (t : TileId) (x : Tile) : (s.setTile t x).msixWait = s.msixWait := rfl
@[simp] theorem State.setTile_pf0 (s : State) (t : TileId) (x : Tile) : (s.setTile t x).pf0 = s.pf0 := rfl
@[simp] theorem State.setTile_companion (s : State) (t : TileId) (x : Tile) : (s.setTile t x).companion = s.companion := rfl
@[simp] theorem State.setTile_vfs (s : State) (t : TileId) (x : Tile) : (s.setTile t x).vfs = s.vfs := rfl
@[simp] theorem State.setTile_hostWrites (s : State) (t : TileId) (x : Tile) : (s.setTile t x).hostWrites = s.hostWrites := rfl
@[simp] theorem State.setTile_ide (s : State) (t : TileId) (x : Tile) : (s.setTile t x).ide = s.ide := rfl
@[simp] theorem State.setTile_hostWait (s : State) (t : TileId) (x : Tile) : (s.setTile t x).hostWait = s.hostWait := rfl
@[simp] theorem State.setTile_xl (s : State) (t : TileId) (x : Tile) : (s.setTile t x).xl = s.xl := rfl
@[simp] theorem State.setTile_eslots (s : State) (t : TileId) (x : Tile) : (s.setTile t x).eslots = s.eslots := rfl
@[simp] theorem State.setTile_heads (s : State) (t : TileId) (x : Tile) : (s.setTile t x).heads = s.heads := rfl
@[simp] theorem State.setTile_riders (s : State) (t : TileId) (x : Tile) : (s.setTile t x).riders = s.riders := rfl
@[simp] theorem State.setTile_boot (s : State) (t : TileId) (x : Tile) : (s.setTile t x).boot = s.boot := rfl
@[simp] theorem State.setTile_rst (s : State) (t : TileId) (x : Tile) : (s.setTile t x).rst = s.rst := rfl
@[simp] theorem State.setTile_obs (s : State) (t : TileId) (x : Tile) : (s.setTile t x).obs = s.obs := rfl
@[simp] theorem State.setTile_accCounts (s : State) (t : TileId) (x : Tile) : (s.setTile t x).accCounts = s.accCounts := rfl
@[simp] theorem State.setTile_out (s : State) (t : TileId) (x : Tile) : (s.setTile t x).out = s.out := rfl
@[simp] theorem State.setTile_ioNext (s : State) (t : TileId) (x : Tile) : (s.setTile t x).ioNext = s.ioNext := rfl
@[simp] theorem State.setTile_fresh (s : State) (t : TileId) (x : Tile) : (s.setTile t x).fresh = s.fresh := rfl
@[simp] theorem State.setTile_pending (s : State) (t : TileId) (x : Tile) : (s.setTile t x).pending = s.pending := rfl

@[simp] theorem State.updTile_regs (s : State) (t : TileId) (f : Tile → Tile) : (s.updTile t f).regs = s.regs := rfl
@[simp] theorem State.updTile_mem (s : State) (t : TileId) (f : Tile → Tile) : (s.updTile t f).mem = s.mem := rfl
@[simp] theorem State.updTile_journal (s : State) (t : TileId) (f : Tile → Tile) : (s.updTile t f).journal = s.journal := rfl
@[simp] theorem State.updTile_pads (s : State) (t : TileId) (f : Tile → Tile) : (s.updTile t f).pads = s.pads := rfl
@[simp] theorem State.updTile_memUE (s : State) (t : TileId) (f : Tile → Tile) : (s.updTile t f).memUE = s.memUE := rfl
@[simp] theorem State.updTile_memCE (s : State) (t : TileId) (f : Tile → Tile) : (s.updTile t f).memCE = s.memCE := rfl
@[simp] theorem State.updTile_keyTags (s : State) (t : TileId) (f : Tile → Tile) : (s.updTile t f).keyTags = s.keyTags := rfl
@[simp] theorem State.updTile_wmEvents (s : State) (t : TileId) (f : Tile → Tile) : (s.updTile t f).wmEvents = s.wmEvents := rfl
@[simp] theorem State.updTile_links (s : State) (t : TileId) (f : Tile → Tile) : (s.updTile t f).links = s.links := rfl
@[simp] theorem State.updTile_rot (s : State) (t : TileId) (f : Tile → Tile) : (s.updTile t f).rot = s.rot := rfl
@[simp] theorem State.updTile_home (s : State) (t : TileId) (f : Tile → Tile) : (s.updTile t f).home = s.home := rfl
@[simp] theorem State.updTile_patterns (s : State) (t : TileId) (f : Tile → Tile) : (s.updTile t f).patterns = s.patterns := rfl
@[simp] theorem State.updTile_zeroing (s : State) (t : TileId) (f : Tile → Tile) : (s.updTile t f).zeroing = s.zeroing := rfl
@[simp] theorem State.updTile_twin (s : State) (t : TileId) (f : Tile → Tile) : (s.updTile t f).twin = s.twin := rfl
@[simp] theorem State.updTile_msixWait (s : State) (t : TileId) (f : Tile → Tile) : (s.updTile t f).msixWait = s.msixWait := rfl
@[simp] theorem State.updTile_pf0 (s : State) (t : TileId) (f : Tile → Tile) : (s.updTile t f).pf0 = s.pf0 := rfl
@[simp] theorem State.updTile_companion (s : State) (t : TileId) (f : Tile → Tile) : (s.updTile t f).companion = s.companion := rfl
@[simp] theorem State.updTile_vfs (s : State) (t : TileId) (f : Tile → Tile) : (s.updTile t f).vfs = s.vfs := rfl
@[simp] theorem State.updTile_hostWrites (s : State) (t : TileId) (f : Tile → Tile) : (s.updTile t f).hostWrites = s.hostWrites := rfl
@[simp] theorem State.updTile_ide (s : State) (t : TileId) (f : Tile → Tile) : (s.updTile t f).ide = s.ide := rfl
@[simp] theorem State.updTile_hostWait (s : State) (t : TileId) (f : Tile → Tile) : (s.updTile t f).hostWait = s.hostWait := rfl
@[simp] theorem State.updTile_xl (s : State) (t : TileId) (f : Tile → Tile) : (s.updTile t f).xl = s.xl := rfl
@[simp] theorem State.updTile_eslots (s : State) (t : TileId) (f : Tile → Tile) : (s.updTile t f).eslots = s.eslots := rfl
@[simp] theorem State.updTile_heads (s : State) (t : TileId) (f : Tile → Tile) : (s.updTile t f).heads = s.heads := rfl
@[simp] theorem State.updTile_riders (s : State) (t : TileId) (f : Tile → Tile) : (s.updTile t f).riders = s.riders := rfl
@[simp] theorem State.updTile_boot (s : State) (t : TileId) (f : Tile → Tile) : (s.updTile t f).boot = s.boot := rfl
@[simp] theorem State.updTile_rst (s : State) (t : TileId) (f : Tile → Tile) : (s.updTile t f).rst = s.rst := rfl
@[simp] theorem State.updTile_obs (s : State) (t : TileId) (f : Tile → Tile) : (s.updTile t f).obs = s.obs := rfl
@[simp] theorem State.updTile_accCounts (s : State) (t : TileId) (f : Tile → Tile) : (s.updTile t f).accCounts = s.accCounts := rfl
@[simp] theorem State.updTile_out (s : State) (t : TileId) (f : Tile → Tile) : (s.updTile t f).out = s.out := rfl
@[simp] theorem State.updTile_ioNext (s : State) (t : TileId) (f : Tile → Tile) : (s.updTile t f).ioNext = s.ioNext := rfl
@[simp] theorem State.updTile_fresh (s : State) (t : TileId) (f : Tile → Tile) : (s.updTile t f).fresh = s.fresh := rfl
@[simp] theorem State.updTile_pending (s : State) (t : TileId) (f : Tile → Tile) : (s.updTile t f).pending = s.pending := rfl

@[simp] theorem State.updCore_regs (s : State) (t : TileId) (c : CoreId) (f : Core → Core) : (s.updCore t c f).regs = s.regs := rfl
@[simp] theorem State.updCore_mem (s : State) (t : TileId) (c : CoreId) (f : Core → Core) : (s.updCore t c f).mem = s.mem := rfl
@[simp] theorem State.updCore_journal (s : State) (t : TileId) (c : CoreId) (f : Core → Core) : (s.updCore t c f).journal = s.journal := rfl
@[simp] theorem State.updCore_pads (s : State) (t : TileId) (c : CoreId) (f : Core → Core) : (s.updCore t c f).pads = s.pads := rfl
@[simp] theorem State.updCore_memUE (s : State) (t : TileId) (c : CoreId) (f : Core → Core) : (s.updCore t c f).memUE = s.memUE := rfl
@[simp] theorem State.updCore_memCE (s : State) (t : TileId) (c : CoreId) (f : Core → Core) : (s.updCore t c f).memCE = s.memCE := rfl
@[simp] theorem State.updCore_keyTags (s : State) (t : TileId) (c : CoreId) (f : Core → Core) : (s.updCore t c f).keyTags = s.keyTags := rfl
@[simp] theorem State.updCore_wmEvents (s : State) (t : TileId) (c : CoreId) (f : Core → Core) : (s.updCore t c f).wmEvents = s.wmEvents := rfl
@[simp] theorem State.updCore_links (s : State) (t : TileId) (c : CoreId) (f : Core → Core) : (s.updCore t c f).links = s.links := rfl
@[simp] theorem State.updCore_rot (s : State) (t : TileId) (c : CoreId) (f : Core → Core) : (s.updCore t c f).rot = s.rot := rfl
@[simp] theorem State.updCore_home (s : State) (t : TileId) (c : CoreId) (f : Core → Core) : (s.updCore t c f).home = s.home := rfl
@[simp] theorem State.updCore_patterns (s : State) (t : TileId) (c : CoreId) (f : Core → Core) : (s.updCore t c f).patterns = s.patterns := rfl
@[simp] theorem State.updCore_zeroing (s : State) (t : TileId) (c : CoreId) (f : Core → Core) : (s.updCore t c f).zeroing = s.zeroing := rfl
@[simp] theorem State.updCore_twin (s : State) (t : TileId) (c : CoreId) (f : Core → Core) : (s.updCore t c f).twin = s.twin := rfl
@[simp] theorem State.updCore_msixWait (s : State) (t : TileId) (c : CoreId) (f : Core → Core) : (s.updCore t c f).msixWait = s.msixWait := rfl
@[simp] theorem State.updCore_pf0 (s : State) (t : TileId) (c : CoreId) (f : Core → Core) : (s.updCore t c f).pf0 = s.pf0 := rfl
@[simp] theorem State.updCore_companion (s : State) (t : TileId) (c : CoreId) (f : Core → Core) : (s.updCore t c f).companion = s.companion := rfl
@[simp] theorem State.updCore_vfs (s : State) (t : TileId) (c : CoreId) (f : Core → Core) : (s.updCore t c f).vfs = s.vfs := rfl
@[simp] theorem State.updCore_hostWrites (s : State) (t : TileId) (c : CoreId) (f : Core → Core) : (s.updCore t c f).hostWrites = s.hostWrites := rfl
@[simp] theorem State.updCore_ide (s : State) (t : TileId) (c : CoreId) (f : Core → Core) : (s.updCore t c f).ide = s.ide := rfl
@[simp] theorem State.updCore_hostWait (s : State) (t : TileId) (c : CoreId) (f : Core → Core) : (s.updCore t c f).hostWait = s.hostWait := rfl
@[simp] theorem State.updCore_xl (s : State) (t : TileId) (c : CoreId) (f : Core → Core) : (s.updCore t c f).xl = s.xl := rfl
@[simp] theorem State.updCore_eslots (s : State) (t : TileId) (c : CoreId) (f : Core → Core) : (s.updCore t c f).eslots = s.eslots := rfl
@[simp] theorem State.updCore_heads (s : State) (t : TileId) (c : CoreId) (f : Core → Core) : (s.updCore t c f).heads = s.heads := rfl
@[simp] theorem State.updCore_riders (s : State) (t : TileId) (c : CoreId) (f : Core → Core) : (s.updCore t c f).riders = s.riders := rfl
@[simp] theorem State.updCore_boot (s : State) (t : TileId) (c : CoreId) (f : Core → Core) : (s.updCore t c f).boot = s.boot := rfl
@[simp] theorem State.updCore_rst (s : State) (t : TileId) (c : CoreId) (f : Core → Core) : (s.updCore t c f).rst = s.rst := rfl
@[simp] theorem State.updCore_obs (s : State) (t : TileId) (c : CoreId) (f : Core → Core) : (s.updCore t c f).obs = s.obs := rfl
@[simp] theorem State.updCore_accCounts (s : State) (t : TileId) (c : CoreId) (f : Core → Core) : (s.updCore t c f).accCounts = s.accCounts := rfl
@[simp] theorem State.updCore_out (s : State) (t : TileId) (c : CoreId) (f : Core → Core) : (s.updCore t c f).out = s.out := rfl
@[simp] theorem State.updCore_ioNext (s : State) (t : TileId) (c : CoreId) (f : Core → Core) : (s.updCore t c f).ioNext = s.ioNext := rfl
@[simp] theorem State.updCore_fresh (s : State) (t : TileId) (c : CoreId) (f : Core → Core) : (s.updCore t c f).fresh = s.fresh := rfl
@[simp] theorem State.updCore_pending (s : State) (t : TileId) (c : CoreId) (f : Core → Core) : (s.updCore t c f).pending = s.pending := rfl

@[simp] theorem State.setGroup_regs (s : State) (g : GroupId) (x : Option Group) : (s.setGroup g x).regs = s.regs := rfl
@[simp] theorem State.setGroup_mem (s : State) (g : GroupId) (x : Option Group) : (s.setGroup g x).mem = s.mem := rfl
@[simp] theorem State.setGroup_journal (s : State) (g : GroupId) (x : Option Group) : (s.setGroup g x).journal = s.journal := rfl
@[simp] theorem State.setGroup_pads (s : State) (g : GroupId) (x : Option Group) : (s.setGroup g x).pads = s.pads := rfl
@[simp] theorem State.setGroup_memUE (s : State) (g : GroupId) (x : Option Group) : (s.setGroup g x).memUE = s.memUE := rfl
@[simp] theorem State.setGroup_memCE (s : State) (g : GroupId) (x : Option Group) : (s.setGroup g x).memCE = s.memCE := rfl
@[simp] theorem State.setGroup_keyTags (s : State) (g : GroupId) (x : Option Group) : (s.setGroup g x).keyTags = s.keyTags := rfl
@[simp] theorem State.setGroup_wmEvents (s : State) (g : GroupId) (x : Option Group) : (s.setGroup g x).wmEvents = s.wmEvents := rfl
@[simp] theorem State.setGroup_links (s : State) (g : GroupId) (x : Option Group) : (s.setGroup g x).links = s.links := rfl
@[simp] theorem State.setGroup_rot (s : State) (g : GroupId) (x : Option Group) : (s.setGroup g x).rot = s.rot := rfl
@[simp] theorem State.setGroup_home (s : State) (g : GroupId) (x : Option Group) : (s.setGroup g x).home = s.home := rfl
@[simp] theorem State.setGroup_patterns (s : State) (g : GroupId) (x : Option Group) : (s.setGroup g x).patterns = s.patterns := rfl
@[simp] theorem State.setGroup_zeroing (s : State) (g : GroupId) (x : Option Group) : (s.setGroup g x).zeroing = s.zeroing := rfl
@[simp] theorem State.setGroup_twin (s : State) (g : GroupId) (x : Option Group) : (s.setGroup g x).twin = s.twin := rfl
@[simp] theorem State.setGroup_msixWait (s : State) (g : GroupId) (x : Option Group) : (s.setGroup g x).msixWait = s.msixWait := rfl
@[simp] theorem State.setGroup_pf0 (s : State) (g : GroupId) (x : Option Group) : (s.setGroup g x).pf0 = s.pf0 := rfl
@[simp] theorem State.setGroup_companion (s : State) (g : GroupId) (x : Option Group) : (s.setGroup g x).companion = s.companion := rfl
@[simp] theorem State.setGroup_vfs (s : State) (g : GroupId) (x : Option Group) : (s.setGroup g x).vfs = s.vfs := rfl
@[simp] theorem State.setGroup_hostWrites (s : State) (g : GroupId) (x : Option Group) : (s.setGroup g x).hostWrites = s.hostWrites := rfl
@[simp] theorem State.setGroup_ide (s : State) (g : GroupId) (x : Option Group) : (s.setGroup g x).ide = s.ide := rfl
@[simp] theorem State.setGroup_hostWait (s : State) (g : GroupId) (x : Option Group) : (s.setGroup g x).hostWait = s.hostWait := rfl
@[simp] theorem State.setGroup_xl (s : State) (g : GroupId) (x : Option Group) : (s.setGroup g x).xl = s.xl := rfl
@[simp] theorem State.setGroup_eslots (s : State) (g : GroupId) (x : Option Group) : (s.setGroup g x).eslots = s.eslots := rfl
@[simp] theorem State.setGroup_heads (s : State) (g : GroupId) (x : Option Group) : (s.setGroup g x).heads = s.heads := rfl
@[simp] theorem State.setGroup_riders (s : State) (g : GroupId) (x : Option Group) : (s.setGroup g x).riders = s.riders := rfl
@[simp] theorem State.setGroup_boot (s : State) (g : GroupId) (x : Option Group) : (s.setGroup g x).boot = s.boot := rfl
@[simp] theorem State.setGroup_rst (s : State) (g : GroupId) (x : Option Group) : (s.setGroup g x).rst = s.rst := rfl
@[simp] theorem State.setGroup_obs (s : State) (g : GroupId) (x : Option Group) : (s.setGroup g x).obs = s.obs := rfl
@[simp] theorem State.setGroup_accCounts (s : State) (g : GroupId) (x : Option Group) : (s.setGroup g x).accCounts = s.accCounts := rfl
@[simp] theorem State.setGroup_out (s : State) (g : GroupId) (x : Option Group) : (s.setGroup g x).out = s.out := rfl
@[simp] theorem State.setGroup_ioNext (s : State) (g : GroupId) (x : Option Group) : (s.setGroup g x).ioNext = s.ioNext := rfl
@[simp] theorem State.setGroup_fresh (s : State) (g : GroupId) (x : Option Group) : (s.setGroup g x).fresh = s.fresh := rfl
@[simp] theorem State.setGroup_pending (s : State) (g : GroupId) (x : Option Group) : (s.setGroup g x).pending = s.pending := rfl

@[simp] theorem State.updChan_regs (s : State) (t : TileId) (c : ChanId) (f : Chan → Chan) : (s.updChan t c f).regs = s.regs := rfl
@[simp] theorem State.updChan_mem (s : State) (t : TileId) (c : ChanId) (f : Chan → Chan) : (s.updChan t c f).mem = s.mem := rfl
@[simp] theorem State.updChan_journal (s : State) (t : TileId) (c : ChanId) (f : Chan → Chan) : (s.updChan t c f).journal = s.journal := rfl
@[simp] theorem State.updChan_pads (s : State) (t : TileId) (c : ChanId) (f : Chan → Chan) : (s.updChan t c f).pads = s.pads := rfl
@[simp] theorem State.updChan_memUE (s : State) (t : TileId) (c : ChanId) (f : Chan → Chan) : (s.updChan t c f).memUE = s.memUE := rfl
@[simp] theorem State.updChan_memCE (s : State) (t : TileId) (c : ChanId) (f : Chan → Chan) : (s.updChan t c f).memCE = s.memCE := rfl
@[simp] theorem State.updChan_keyTags (s : State) (t : TileId) (c : ChanId) (f : Chan → Chan) : (s.updChan t c f).keyTags = s.keyTags := rfl
@[simp] theorem State.updChan_wmEvents (s : State) (t : TileId) (c : ChanId) (f : Chan → Chan) : (s.updChan t c f).wmEvents = s.wmEvents := rfl
@[simp] theorem State.updChan_links (s : State) (t : TileId) (c : ChanId) (f : Chan → Chan) : (s.updChan t c f).links = s.links := rfl
@[simp] theorem State.updChan_rot (s : State) (t : TileId) (c : ChanId) (f : Chan → Chan) : (s.updChan t c f).rot = s.rot := rfl
@[simp] theorem State.updChan_home (s : State) (t : TileId) (c : ChanId) (f : Chan → Chan) : (s.updChan t c f).home = s.home := rfl
@[simp] theorem State.updChan_patterns (s : State) (t : TileId) (c : ChanId) (f : Chan → Chan) : (s.updChan t c f).patterns = s.patterns := rfl
@[simp] theorem State.updChan_zeroing (s : State) (t : TileId) (c : ChanId) (f : Chan → Chan) : (s.updChan t c f).zeroing = s.zeroing := rfl
@[simp] theorem State.updChan_twin (s : State) (t : TileId) (c : ChanId) (f : Chan → Chan) : (s.updChan t c f).twin = s.twin := rfl
@[simp] theorem State.updChan_msixWait (s : State) (t : TileId) (c : ChanId) (f : Chan → Chan) : (s.updChan t c f).msixWait = s.msixWait := rfl
@[simp] theorem State.updChan_pf0 (s : State) (t : TileId) (c : ChanId) (f : Chan → Chan) : (s.updChan t c f).pf0 = s.pf0 := rfl
@[simp] theorem State.updChan_companion (s : State) (t : TileId) (c : ChanId) (f : Chan → Chan) : (s.updChan t c f).companion = s.companion := rfl
@[simp] theorem State.updChan_vfs (s : State) (t : TileId) (c : ChanId) (f : Chan → Chan) : (s.updChan t c f).vfs = s.vfs := rfl
@[simp] theorem State.updChan_hostWrites (s : State) (t : TileId) (c : ChanId) (f : Chan → Chan) : (s.updChan t c f).hostWrites = s.hostWrites := rfl
@[simp] theorem State.updChan_ide (s : State) (t : TileId) (c : ChanId) (f : Chan → Chan) : (s.updChan t c f).ide = s.ide := rfl
@[simp] theorem State.updChan_hostWait (s : State) (t : TileId) (c : ChanId) (f : Chan → Chan) : (s.updChan t c f).hostWait = s.hostWait := rfl
@[simp] theorem State.updChan_xl (s : State) (t : TileId) (c : ChanId) (f : Chan → Chan) : (s.updChan t c f).xl = s.xl := rfl
@[simp] theorem State.updChan_eslots (s : State) (t : TileId) (c : ChanId) (f : Chan → Chan) : (s.updChan t c f).eslots = s.eslots := rfl
@[simp] theorem State.updChan_heads (s : State) (t : TileId) (c : ChanId) (f : Chan → Chan) : (s.updChan t c f).heads = s.heads := rfl
@[simp] theorem State.updChan_riders (s : State) (t : TileId) (c : ChanId) (f : Chan → Chan) : (s.updChan t c f).riders = s.riders := rfl
@[simp] theorem State.updChan_boot (s : State) (t : TileId) (c : ChanId) (f : Chan → Chan) : (s.updChan t c f).boot = s.boot := rfl
@[simp] theorem State.updChan_rst (s : State) (t : TileId) (c : ChanId) (f : Chan → Chan) : (s.updChan t c f).rst = s.rst := rfl
@[simp] theorem State.updChan_obs (s : State) (t : TileId) (c : ChanId) (f : Chan → Chan) : (s.updChan t c f).obs = s.obs := rfl
@[simp] theorem State.updChan_accCounts (s : State) (t : TileId) (c : ChanId) (f : Chan → Chan) : (s.updChan t c f).accCounts = s.accCounts := rfl
@[simp] theorem State.updChan_out (s : State) (t : TileId) (c : ChanId) (f : Chan → Chan) : (s.updChan t c f).out = s.out := rfl
@[simp] theorem State.updChan_ioNext (s : State) (t : TileId) (c : ChanId) (f : Chan → Chan) : (s.updChan t c f).ioNext = s.ioNext := rfl
@[simp] theorem State.updChan_fresh (s : State) (t : TileId) (c : ChanId) (f : Chan → Chan) : (s.updChan t c f).fresh = s.fresh := rfl
@[simp] theorem State.updChan_pending (s : State) (t : TileId) (c : ChanId) (f : Chan → Chan) : (s.updChan t c f).pending = s.pending := rfl

@[simp] theorem State.updLink_regs (s : State) (l : LinkId) (f : Link → Link) : (s.updLink l f).regs = s.regs := rfl
@[simp] theorem State.updLink_mem (s : State) (l : LinkId) (f : Link → Link) : (s.updLink l f).mem = s.mem := rfl
@[simp] theorem State.updLink_journal (s : State) (l : LinkId) (f : Link → Link) : (s.updLink l f).journal = s.journal := rfl
@[simp] theorem State.updLink_pads (s : State) (l : LinkId) (f : Link → Link) : (s.updLink l f).pads = s.pads := rfl
@[simp] theorem State.updLink_memUE (s : State) (l : LinkId) (f : Link → Link) : (s.updLink l f).memUE = s.memUE := rfl
@[simp] theorem State.updLink_memCE (s : State) (l : LinkId) (f : Link → Link) : (s.updLink l f).memCE = s.memCE := rfl
@[simp] theorem State.updLink_keyTags (s : State) (l : LinkId) (f : Link → Link) : (s.updLink l f).keyTags = s.keyTags := rfl
@[simp] theorem State.updLink_tiles (s : State) (l : LinkId) (f : Link → Link) : (s.updLink l f).tiles = s.tiles := rfl
@[simp] theorem State.updLink_wmEvents (s : State) (l : LinkId) (f : Link → Link) : (s.updLink l f).wmEvents = s.wmEvents := rfl
@[simp] theorem State.updLink_rot (s : State) (l : LinkId) (f : Link → Link) : (s.updLink l f).rot = s.rot := rfl
@[simp] theorem State.updLink_home (s : State) (l : LinkId) (f : Link → Link) : (s.updLink l f).home = s.home := rfl
@[simp] theorem State.updLink_patterns (s : State) (l : LinkId) (f : Link → Link) : (s.updLink l f).patterns = s.patterns := rfl
@[simp] theorem State.updLink_zeroing (s : State) (l : LinkId) (f : Link → Link) : (s.updLink l f).zeroing = s.zeroing := rfl
@[simp] theorem State.updLink_twin (s : State) (l : LinkId) (f : Link → Link) : (s.updLink l f).twin = s.twin := rfl
@[simp] theorem State.updLink_msixWait (s : State) (l : LinkId) (f : Link → Link) : (s.updLink l f).msixWait = s.msixWait := rfl
@[simp] theorem State.updLink_pf0 (s : State) (l : LinkId) (f : Link → Link) : (s.updLink l f).pf0 = s.pf0 := rfl
@[simp] theorem State.updLink_companion (s : State) (l : LinkId) (f : Link → Link) : (s.updLink l f).companion = s.companion := rfl
@[simp] theorem State.updLink_vfs (s : State) (l : LinkId) (f : Link → Link) : (s.updLink l f).vfs = s.vfs := rfl
@[simp] theorem State.updLink_hostWrites (s : State) (l : LinkId) (f : Link → Link) : (s.updLink l f).hostWrites = s.hostWrites := rfl
@[simp] theorem State.updLink_ide (s : State) (l : LinkId) (f : Link → Link) : (s.updLink l f).ide = s.ide := rfl
@[simp] theorem State.updLink_hostWait (s : State) (l : LinkId) (f : Link → Link) : (s.updLink l f).hostWait = s.hostWait := rfl
@[simp] theorem State.updLink_xl (s : State) (l : LinkId) (f : Link → Link) : (s.updLink l f).xl = s.xl := rfl
@[simp] theorem State.updLink_eslots (s : State) (l : LinkId) (f : Link → Link) : (s.updLink l f).eslots = s.eslots := rfl
@[simp] theorem State.updLink_heads (s : State) (l : LinkId) (f : Link → Link) : (s.updLink l f).heads = s.heads := rfl
@[simp] theorem State.updLink_riders (s : State) (l : LinkId) (f : Link → Link) : (s.updLink l f).riders = s.riders := rfl
@[simp] theorem State.updLink_boot (s : State) (l : LinkId) (f : Link → Link) : (s.updLink l f).boot = s.boot := rfl
@[simp] theorem State.updLink_rst (s : State) (l : LinkId) (f : Link → Link) : (s.updLink l f).rst = s.rst := rfl
@[simp] theorem State.updLink_obs (s : State) (l : LinkId) (f : Link → Link) : (s.updLink l f).obs = s.obs := rfl
@[simp] theorem State.updLink_accCounts (s : State) (l : LinkId) (f : Link → Link) : (s.updLink l f).accCounts = s.accCounts := rfl
@[simp] theorem State.updLink_out (s : State) (l : LinkId) (f : Link → Link) : (s.updLink l f).out = s.out := rfl
@[simp] theorem State.updLink_ioNext (s : State) (l : LinkId) (f : Link → Link) : (s.updLink l f).ioNext = s.ioNext := rfl
@[simp] theorem State.updLink_fresh (s : State) (l : LinkId) (f : Link → Link) : (s.updLink l f).fresh = s.fresh := rfl
@[simp] theorem State.updLink_pending (s : State) (l : LinkId) (f : Link → Link) : (s.updLink l f).pending = s.pending := rfl

@[simp] theorem State.updEslot_regs (s : State) (e : EngineId) (f : ESlot → ESlot) : (s.updEslot e f).regs = s.regs := rfl
@[simp] theorem State.updEslot_mem (s : State) (e : EngineId) (f : ESlot → ESlot) : (s.updEslot e f).mem = s.mem := rfl
@[simp] theorem State.updEslot_journal (s : State) (e : EngineId) (f : ESlot → ESlot) : (s.updEslot e f).journal = s.journal := rfl
@[simp] theorem State.updEslot_pads (s : State) (e : EngineId) (f : ESlot → ESlot) : (s.updEslot e f).pads = s.pads := rfl
@[simp] theorem State.updEslot_memUE (s : State) (e : EngineId) (f : ESlot → ESlot) : (s.updEslot e f).memUE = s.memUE := rfl
@[simp] theorem State.updEslot_memCE (s : State) (e : EngineId) (f : ESlot → ESlot) : (s.updEslot e f).memCE = s.memCE := rfl
@[simp] theorem State.updEslot_keyTags (s : State) (e : EngineId) (f : ESlot → ESlot) : (s.updEslot e f).keyTags = s.keyTags := rfl
@[simp] theorem State.updEslot_tiles (s : State) (e : EngineId) (f : ESlot → ESlot) : (s.updEslot e f).tiles = s.tiles := rfl
@[simp] theorem State.updEslot_wmEvents (s : State) (e : EngineId) (f : ESlot → ESlot) : (s.updEslot e f).wmEvents = s.wmEvents := rfl
@[simp] theorem State.updEslot_links (s : State) (e : EngineId) (f : ESlot → ESlot) : (s.updEslot e f).links = s.links := rfl
@[simp] theorem State.updEslot_rot (s : State) (e : EngineId) (f : ESlot → ESlot) : (s.updEslot e f).rot = s.rot := rfl
@[simp] theorem State.updEslot_home (s : State) (e : EngineId) (f : ESlot → ESlot) : (s.updEslot e f).home = s.home := rfl
@[simp] theorem State.updEslot_patterns (s : State) (e : EngineId) (f : ESlot → ESlot) : (s.updEslot e f).patterns = s.patterns := rfl
@[simp] theorem State.updEslot_zeroing (s : State) (e : EngineId) (f : ESlot → ESlot) : (s.updEslot e f).zeroing = s.zeroing := rfl
@[simp] theorem State.updEslot_twin (s : State) (e : EngineId) (f : ESlot → ESlot) : (s.updEslot e f).twin = s.twin := rfl
@[simp] theorem State.updEslot_msixWait (s : State) (e : EngineId) (f : ESlot → ESlot) : (s.updEslot e f).msixWait = s.msixWait := rfl
@[simp] theorem State.updEslot_pf0 (s : State) (e : EngineId) (f : ESlot → ESlot) : (s.updEslot e f).pf0 = s.pf0 := rfl
@[simp] theorem State.updEslot_companion (s : State) (e : EngineId) (f : ESlot → ESlot) : (s.updEslot e f).companion = s.companion := rfl
@[simp] theorem State.updEslot_vfs (s : State) (e : EngineId) (f : ESlot → ESlot) : (s.updEslot e f).vfs = s.vfs := rfl
@[simp] theorem State.updEslot_hostWrites (s : State) (e : EngineId) (f : ESlot → ESlot) : (s.updEslot e f).hostWrites = s.hostWrites := rfl
@[simp] theorem State.updEslot_ide (s : State) (e : EngineId) (f : ESlot → ESlot) : (s.updEslot e f).ide = s.ide := rfl
@[simp] theorem State.updEslot_hostWait (s : State) (e : EngineId) (f : ESlot → ESlot) : (s.updEslot e f).hostWait = s.hostWait := rfl
@[simp] theorem State.updEslot_xl (s : State) (e : EngineId) (f : ESlot → ESlot) : (s.updEslot e f).xl = s.xl := rfl
@[simp] theorem State.updEslot_heads (s : State) (e : EngineId) (f : ESlot → ESlot) : (s.updEslot e f).heads = s.heads := rfl
@[simp] theorem State.updEslot_riders (s : State) (e : EngineId) (f : ESlot → ESlot) : (s.updEslot e f).riders = s.riders := rfl
@[simp] theorem State.updEslot_boot (s : State) (e : EngineId) (f : ESlot → ESlot) : (s.updEslot e f).boot = s.boot := rfl
@[simp] theorem State.updEslot_rst (s : State) (e : EngineId) (f : ESlot → ESlot) : (s.updEslot e f).rst = s.rst := rfl
@[simp] theorem State.updEslot_obs (s : State) (e : EngineId) (f : ESlot → ESlot) : (s.updEslot e f).obs = s.obs := rfl
@[simp] theorem State.updEslot_accCounts (s : State) (e : EngineId) (f : ESlot → ESlot) : (s.updEslot e f).accCounts = s.accCounts := rfl
@[simp] theorem State.updEslot_out (s : State) (e : EngineId) (f : ESlot → ESlot) : (s.updEslot e f).out = s.out := rfl
@[simp] theorem State.updEslot_ioNext (s : State) (e : EngineId) (f : ESlot → ESlot) : (s.updEslot e f).ioNext = s.ioNext := rfl
@[simp] theorem State.updEslot_fresh (s : State) (e : EngineId) (f : ESlot → ESlot) : (s.updEslot e f).fresh = s.fresh := rfl
@[simp] theorem State.updEslot_pending (s : State) (e : EngineId) (f : ESlot → ESlot) : (s.updEslot e f).pending = s.pending := rfl

@[simp] theorem State.updHome_regs (s : State) (f : Home → Home) : (s.updHome f).regs = s.regs := rfl
@[simp] theorem State.updHome_mem (s : State) (f : Home → Home) : (s.updHome f).mem = s.mem := rfl
@[simp] theorem State.updHome_journal (s : State) (f : Home → Home) : (s.updHome f).journal = s.journal := rfl
@[simp] theorem State.updHome_pads (s : State) (f : Home → Home) : (s.updHome f).pads = s.pads := rfl
@[simp] theorem State.updHome_memUE (s : State) (f : Home → Home) : (s.updHome f).memUE = s.memUE := rfl
@[simp] theorem State.updHome_memCE (s : State) (f : Home → Home) : (s.updHome f).memCE = s.memCE := rfl
@[simp] theorem State.updHome_keyTags (s : State) (f : Home → Home) : (s.updHome f).keyTags = s.keyTags := rfl
@[simp] theorem State.updHome_tiles (s : State) (f : Home → Home) : (s.updHome f).tiles = s.tiles := rfl
@[simp] theorem State.updHome_wmEvents (s : State) (f : Home → Home) : (s.updHome f).wmEvents = s.wmEvents := rfl
@[simp] theorem State.updHome_links (s : State) (f : Home → Home) : (s.updHome f).links = s.links := rfl
@[simp] theorem State.updHome_rot (s : State) (f : Home → Home) : (s.updHome f).rot = s.rot := rfl
@[simp] theorem State.updHome_patterns (s : State) (f : Home → Home) : (s.updHome f).patterns = s.patterns := rfl
@[simp] theorem State.updHome_zeroing (s : State) (f : Home → Home) : (s.updHome f).zeroing = s.zeroing := rfl
@[simp] theorem State.updHome_twin (s : State) (f : Home → Home) : (s.updHome f).twin = s.twin := rfl
@[simp] theorem State.updHome_msixWait (s : State) (f : Home → Home) : (s.updHome f).msixWait = s.msixWait := rfl
@[simp] theorem State.updHome_pf0 (s : State) (f : Home → Home) : (s.updHome f).pf0 = s.pf0 := rfl
@[simp] theorem State.updHome_companion (s : State) (f : Home → Home) : (s.updHome f).companion = s.companion := rfl
@[simp] theorem State.updHome_vfs (s : State) (f : Home → Home) : (s.updHome f).vfs = s.vfs := rfl
@[simp] theorem State.updHome_hostWrites (s : State) (f : Home → Home) : (s.updHome f).hostWrites = s.hostWrites := rfl
@[simp] theorem State.updHome_ide (s : State) (f : Home → Home) : (s.updHome f).ide = s.ide := rfl
@[simp] theorem State.updHome_hostWait (s : State) (f : Home → Home) : (s.updHome f).hostWait = s.hostWait := rfl
@[simp] theorem State.updHome_xl (s : State) (f : Home → Home) : (s.updHome f).xl = s.xl := rfl
@[simp] theorem State.updHome_eslots (s : State) (f : Home → Home) : (s.updHome f).eslots = s.eslots := rfl
@[simp] theorem State.updHome_heads (s : State) (f : Home → Home) : (s.updHome f).heads = s.heads := rfl
@[simp] theorem State.updHome_riders (s : State) (f : Home → Home) : (s.updHome f).riders = s.riders := rfl
@[simp] theorem State.updHome_boot (s : State) (f : Home → Home) : (s.updHome f).boot = s.boot := rfl
@[simp] theorem State.updHome_rst (s : State) (f : Home → Home) : (s.updHome f).rst = s.rst := rfl
@[simp] theorem State.updHome_obs (s : State) (f : Home → Home) : (s.updHome f).obs = s.obs := rfl
@[simp] theorem State.updHome_accCounts (s : State) (f : Home → Home) : (s.updHome f).accCounts = s.accCounts := rfl
@[simp] theorem State.updHome_out (s : State) (f : Home → Home) : (s.updHome f).out = s.out := rfl
@[simp] theorem State.updHome_ioNext (s : State) (f : Home → Home) : (s.updHome f).ioNext = s.ioNext := rfl
@[simp] theorem State.updHome_fresh (s : State) (f : Home → Home) : (s.updHome f).fresh = s.fresh := rfl
@[simp] theorem State.updHome_pending (s : State) (f : Home → Home) : (s.updHome f).pending = s.pending := rfl

@[simp] theorem State.wmEvent_regs (s : State) (n : Nat) (cs : List Byte) (m : Option Nat) : (s.wmEvent n cs m).regs = s.regs := rfl
@[simp] theorem State.wmEvent_mem (s : State) (n : Nat) (cs : List Byte) (m : Option Nat) : (s.wmEvent n cs m).mem = s.mem := rfl
@[simp] theorem State.wmEvent_journal (s : State) (n : Nat) (cs : List Byte) (m : Option Nat) : (s.wmEvent n cs m).journal = s.journal := rfl
@[simp] theorem State.wmEvent_pads (s : State) (n : Nat) (cs : List Byte) (m : Option Nat) : (s.wmEvent n cs m).pads = s.pads := rfl
@[simp] theorem State.wmEvent_memUE (s : State) (n : Nat) (cs : List Byte) (m : Option Nat) : (s.wmEvent n cs m).memUE = s.memUE := rfl
@[simp] theorem State.wmEvent_memCE (s : State) (n : Nat) (cs : List Byte) (m : Option Nat) : (s.wmEvent n cs m).memCE = s.memCE := rfl
@[simp] theorem State.wmEvent_keyTags (s : State) (n : Nat) (cs : List Byte) (m : Option Nat) : (s.wmEvent n cs m).keyTags = s.keyTags := rfl
@[simp] theorem State.wmEvent_tiles (s : State) (n : Nat) (cs : List Byte) (m : Option Nat) : (s.wmEvent n cs m).tiles = s.tiles := rfl
@[simp] theorem State.wmEvent_links (s : State) (n : Nat) (cs : List Byte) (m : Option Nat) : (s.wmEvent n cs m).links = s.links := rfl
@[simp] theorem State.wmEvent_rot (s : State) (n : Nat) (cs : List Byte) (m : Option Nat) : (s.wmEvent n cs m).rot = s.rot := rfl
@[simp] theorem State.wmEvent_home (s : State) (n : Nat) (cs : List Byte) (m : Option Nat) : (s.wmEvent n cs m).home = s.home := rfl
@[simp] theorem State.wmEvent_patterns (s : State) (n : Nat) (cs : List Byte) (m : Option Nat) : (s.wmEvent n cs m).patterns = s.patterns := rfl
@[simp] theorem State.wmEvent_zeroing (s : State) (n : Nat) (cs : List Byte) (m : Option Nat) : (s.wmEvent n cs m).zeroing = s.zeroing := rfl
@[simp] theorem State.wmEvent_twin (s : State) (n : Nat) (cs : List Byte) (m : Option Nat) : (s.wmEvent n cs m).twin = s.twin := rfl
@[simp] theorem State.wmEvent_msixWait (s : State) (n : Nat) (cs : List Byte) (m : Option Nat) : (s.wmEvent n cs m).msixWait = s.msixWait := rfl
@[simp] theorem State.wmEvent_pf0 (s : State) (n : Nat) (cs : List Byte) (m : Option Nat) : (s.wmEvent n cs m).pf0 = s.pf0 := rfl
@[simp] theorem State.wmEvent_companion (s : State) (n : Nat) (cs : List Byte) (m : Option Nat) : (s.wmEvent n cs m).companion = s.companion := rfl
@[simp] theorem State.wmEvent_vfs (s : State) (n : Nat) (cs : List Byte) (m : Option Nat) : (s.wmEvent n cs m).vfs = s.vfs := rfl
@[simp] theorem State.wmEvent_hostWrites (s : State) (n : Nat) (cs : List Byte) (m : Option Nat) : (s.wmEvent n cs m).hostWrites = s.hostWrites := rfl
@[simp] theorem State.wmEvent_ide (s : State) (n : Nat) (cs : List Byte) (m : Option Nat) : (s.wmEvent n cs m).ide = s.ide := rfl
@[simp] theorem State.wmEvent_hostWait (s : State) (n : Nat) (cs : List Byte) (m : Option Nat) : (s.wmEvent n cs m).hostWait = s.hostWait := rfl
@[simp] theorem State.wmEvent_xl (s : State) (n : Nat) (cs : List Byte) (m : Option Nat) : (s.wmEvent n cs m).xl = s.xl := rfl
@[simp] theorem State.wmEvent_eslots (s : State) (n : Nat) (cs : List Byte) (m : Option Nat) : (s.wmEvent n cs m).eslots = s.eslots := rfl
@[simp] theorem State.wmEvent_heads (s : State) (n : Nat) (cs : List Byte) (m : Option Nat) : (s.wmEvent n cs m).heads = s.heads := rfl
@[simp] theorem State.wmEvent_riders (s : State) (n : Nat) (cs : List Byte) (m : Option Nat) : (s.wmEvent n cs m).riders = s.riders := rfl
@[simp] theorem State.wmEvent_boot (s : State) (n : Nat) (cs : List Byte) (m : Option Nat) : (s.wmEvent n cs m).boot = s.boot := rfl
@[simp] theorem State.wmEvent_rst (s : State) (n : Nat) (cs : List Byte) (m : Option Nat) : (s.wmEvent n cs m).rst = s.rst := rfl
@[simp] theorem State.wmEvent_obs (s : State) (n : Nat) (cs : List Byte) (m : Option Nat) : (s.wmEvent n cs m).obs = s.obs := rfl
@[simp] theorem State.wmEvent_accCounts (s : State) (n : Nat) (cs : List Byte) (m : Option Nat) : (s.wmEvent n cs m).accCounts = s.accCounts := rfl
@[simp] theorem State.wmEvent_out (s : State) (n : Nat) (cs : List Byte) (m : Option Nat) : (s.wmEvent n cs m).out = s.out := rfl
@[simp] theorem State.wmEvent_ioNext (s : State) (n : Nat) (cs : List Byte) (m : Option Nat) : (s.wmEvent n cs m).ioNext = s.ioNext := rfl
@[simp] theorem State.wmEvent_fresh (s : State) (n : Nat) (cs : List Byte) (m : Option Nat) : (s.wmEvent n cs m).fresh = s.fresh := rfl
@[simp] theorem State.wmEvent_pending (s : State) (n : Nat) (cs : List Byte) (m : Option Nat) : (s.wmEvent n cs m).pending = s.pending := rfl

@[simp] theorem State.countAt_regs (s : State) (off n : Nat) : (s.countAt off n).regs = s.regs := by obtain ⟨_, h⟩ := s.countAt_obs off n; rw [h]
@[simp] theorem State.countAt_mem (s : State) (off n : Nat) : (s.countAt off n).mem = s.mem := by obtain ⟨_, h⟩ := s.countAt_obs off n; rw [h]
@[simp] theorem State.countAt_journal (s : State) (off n : Nat) : (s.countAt off n).journal = s.journal := by obtain ⟨_, h⟩ := s.countAt_obs off n; rw [h]
@[simp] theorem State.countAt_pads (s : State) (off n : Nat) : (s.countAt off n).pads = s.pads := by obtain ⟨_, h⟩ := s.countAt_obs off n; rw [h]
@[simp] theorem State.countAt_memUE (s : State) (off n : Nat) : (s.countAt off n).memUE = s.memUE := by obtain ⟨_, h⟩ := s.countAt_obs off n; rw [h]
@[simp] theorem State.countAt_memCE (s : State) (off n : Nat) : (s.countAt off n).memCE = s.memCE := by obtain ⟨_, h⟩ := s.countAt_obs off n; rw [h]
@[simp] theorem State.countAt_keyTags (s : State) (off n : Nat) : (s.countAt off n).keyTags = s.keyTags := by obtain ⟨_, h⟩ := s.countAt_obs off n; rw [h]
@[simp] theorem State.countAt_tiles (s : State) (off n : Nat) : (s.countAt off n).tiles = s.tiles := by obtain ⟨_, h⟩ := s.countAt_obs off n; rw [h]
@[simp] theorem State.countAt_wmEvents (s : State) (off n : Nat) : (s.countAt off n).wmEvents = s.wmEvents := by obtain ⟨_, h⟩ := s.countAt_obs off n; rw [h]
@[simp] theorem State.countAt_links (s : State) (off n : Nat) : (s.countAt off n).links = s.links := by obtain ⟨_, h⟩ := s.countAt_obs off n; rw [h]
@[simp] theorem State.countAt_rot (s : State) (off n : Nat) : (s.countAt off n).rot = s.rot := by obtain ⟨_, h⟩ := s.countAt_obs off n; rw [h]
@[simp] theorem State.countAt_home (s : State) (off n : Nat) : (s.countAt off n).home = s.home := by obtain ⟨_, h⟩ := s.countAt_obs off n; rw [h]
@[simp] theorem State.countAt_patterns (s : State) (off n : Nat) : (s.countAt off n).patterns = s.patterns := by obtain ⟨_, h⟩ := s.countAt_obs off n; rw [h]
@[simp] theorem State.countAt_zeroing (s : State) (off n : Nat) : (s.countAt off n).zeroing = s.zeroing := by obtain ⟨_, h⟩ := s.countAt_obs off n; rw [h]
@[simp] theorem State.countAt_twin (s : State) (off n : Nat) : (s.countAt off n).twin = s.twin := by obtain ⟨_, h⟩ := s.countAt_obs off n; rw [h]
@[simp] theorem State.countAt_msixWait (s : State) (off n : Nat) : (s.countAt off n).msixWait = s.msixWait := by obtain ⟨_, h⟩ := s.countAt_obs off n; rw [h]
@[simp] theorem State.countAt_pf0 (s : State) (off n : Nat) : (s.countAt off n).pf0 = s.pf0 := by obtain ⟨_, h⟩ := s.countAt_obs off n; rw [h]
@[simp] theorem State.countAt_companion (s : State) (off n : Nat) : (s.countAt off n).companion = s.companion := by obtain ⟨_, h⟩ := s.countAt_obs off n; rw [h]
@[simp] theorem State.countAt_vfs (s : State) (off n : Nat) : (s.countAt off n).vfs = s.vfs := by obtain ⟨_, h⟩ := s.countAt_obs off n; rw [h]
@[simp] theorem State.countAt_hostWrites (s : State) (off n : Nat) : (s.countAt off n).hostWrites = s.hostWrites := by obtain ⟨_, h⟩ := s.countAt_obs off n; rw [h]
@[simp] theorem State.countAt_ide (s : State) (off n : Nat) : (s.countAt off n).ide = s.ide := by obtain ⟨_, h⟩ := s.countAt_obs off n; rw [h]
@[simp] theorem State.countAt_hostWait (s : State) (off n : Nat) : (s.countAt off n).hostWait = s.hostWait := by obtain ⟨_, h⟩ := s.countAt_obs off n; rw [h]
@[simp] theorem State.countAt_xl (s : State) (off n : Nat) : (s.countAt off n).xl = s.xl := by obtain ⟨_, h⟩ := s.countAt_obs off n; rw [h]
@[simp] theorem State.countAt_eslots (s : State) (off n : Nat) : (s.countAt off n).eslots = s.eslots := by obtain ⟨_, h⟩ := s.countAt_obs off n; rw [h]
@[simp] theorem State.countAt_heads (s : State) (off n : Nat) : (s.countAt off n).heads = s.heads := by obtain ⟨_, h⟩ := s.countAt_obs off n; rw [h]
@[simp] theorem State.countAt_riders (s : State) (off n : Nat) : (s.countAt off n).riders = s.riders := by obtain ⟨_, h⟩ := s.countAt_obs off n; rw [h]
@[simp] theorem State.countAt_boot (s : State) (off n : Nat) : (s.countAt off n).boot = s.boot := by obtain ⟨_, h⟩ := s.countAt_obs off n; rw [h]
@[simp] theorem State.countAt_rst (s : State) (off n : Nat) : (s.countAt off n).rst = s.rst := by obtain ⟨_, h⟩ := s.countAt_obs off n; rw [h]
@[simp] theorem State.countAt_accCounts (s : State) (off n : Nat) : (s.countAt off n).accCounts = s.accCounts := by obtain ⟨_, h⟩ := s.countAt_obs off n; rw [h]
@[simp] theorem State.countAt_out (s : State) (off n : Nat) : (s.countAt off n).out = s.out := by obtain ⟨_, h⟩ := s.countAt_obs off n; rw [h]
@[simp] theorem State.countAt_ioNext (s : State) (off n : Nat) : (s.countAt off n).ioNext = s.ioNext := by obtain ⟨_, h⟩ := s.countAt_obs off n; rw [h]
@[simp] theorem State.countAt_fresh (s : State) (off n : Nat) : (s.countAt off n).fresh = s.fresh := by obtain ⟨_, h⟩ := s.countAt_obs off n; rw [h]
@[simp] theorem State.countAt_pending (s : State) (off n : Nat) : (s.countAt off n).pending = s.pending := by obtain ⟨_, h⟩ := s.countAt_obs off n; rw [h]

@[simp] theorem State.tileCount_regs (s : State) (t : TileId) (k n : Nat) : (s.tileCount t k n).regs = s.regs := by obtain ⟨_, h⟩ := s.tileCount_obs t k n; rw [h]
@[simp] theorem State.tileCount_mem (s : State) (t : TileId) (k n : Nat) : (s.tileCount t k n).mem = s.mem := by obtain ⟨_, h⟩ := s.tileCount_obs t k n; rw [h]
@[simp] theorem State.tileCount_journal (s : State) (t : TileId) (k n : Nat) : (s.tileCount t k n).journal = s.journal := by obtain ⟨_, h⟩ := s.tileCount_obs t k n; rw [h]
@[simp] theorem State.tileCount_pads (s : State) (t : TileId) (k n : Nat) : (s.tileCount t k n).pads = s.pads := by obtain ⟨_, h⟩ := s.tileCount_obs t k n; rw [h]
@[simp] theorem State.tileCount_memUE (s : State) (t : TileId) (k n : Nat) : (s.tileCount t k n).memUE = s.memUE := by obtain ⟨_, h⟩ := s.tileCount_obs t k n; rw [h]
@[simp] theorem State.tileCount_memCE (s : State) (t : TileId) (k n : Nat) : (s.tileCount t k n).memCE = s.memCE := by obtain ⟨_, h⟩ := s.tileCount_obs t k n; rw [h]
@[simp] theorem State.tileCount_keyTags (s : State) (t : TileId) (k n : Nat) : (s.tileCount t k n).keyTags = s.keyTags := by obtain ⟨_, h⟩ := s.tileCount_obs t k n; rw [h]
@[simp] theorem State.tileCount_tiles (s : State) (t : TileId) (k n : Nat) : (s.tileCount t k n).tiles = s.tiles := by obtain ⟨_, h⟩ := s.tileCount_obs t k n; rw [h]
@[simp] theorem State.tileCount_wmEvents (s : State) (t : TileId) (k n : Nat) : (s.tileCount t k n).wmEvents = s.wmEvents := by obtain ⟨_, h⟩ := s.tileCount_obs t k n; rw [h]
@[simp] theorem State.tileCount_links (s : State) (t : TileId) (k n : Nat) : (s.tileCount t k n).links = s.links := by obtain ⟨_, h⟩ := s.tileCount_obs t k n; rw [h]
@[simp] theorem State.tileCount_rot (s : State) (t : TileId) (k n : Nat) : (s.tileCount t k n).rot = s.rot := by obtain ⟨_, h⟩ := s.tileCount_obs t k n; rw [h]
@[simp] theorem State.tileCount_home (s : State) (t : TileId) (k n : Nat) : (s.tileCount t k n).home = s.home := by obtain ⟨_, h⟩ := s.tileCount_obs t k n; rw [h]
@[simp] theorem State.tileCount_patterns (s : State) (t : TileId) (k n : Nat) : (s.tileCount t k n).patterns = s.patterns := by obtain ⟨_, h⟩ := s.tileCount_obs t k n; rw [h]
@[simp] theorem State.tileCount_zeroing (s : State) (t : TileId) (k n : Nat) : (s.tileCount t k n).zeroing = s.zeroing := by obtain ⟨_, h⟩ := s.tileCount_obs t k n; rw [h]
@[simp] theorem State.tileCount_twin (s : State) (t : TileId) (k n : Nat) : (s.tileCount t k n).twin = s.twin := by obtain ⟨_, h⟩ := s.tileCount_obs t k n; rw [h]
@[simp] theorem State.tileCount_msixWait (s : State) (t : TileId) (k n : Nat) : (s.tileCount t k n).msixWait = s.msixWait := by obtain ⟨_, h⟩ := s.tileCount_obs t k n; rw [h]
@[simp] theorem State.tileCount_pf0 (s : State) (t : TileId) (k n : Nat) : (s.tileCount t k n).pf0 = s.pf0 := by obtain ⟨_, h⟩ := s.tileCount_obs t k n; rw [h]
@[simp] theorem State.tileCount_companion (s : State) (t : TileId) (k n : Nat) : (s.tileCount t k n).companion = s.companion := by obtain ⟨_, h⟩ := s.tileCount_obs t k n; rw [h]
@[simp] theorem State.tileCount_vfs (s : State) (t : TileId) (k n : Nat) : (s.tileCount t k n).vfs = s.vfs := by obtain ⟨_, h⟩ := s.tileCount_obs t k n; rw [h]
@[simp] theorem State.tileCount_hostWrites (s : State) (t : TileId) (k n : Nat) : (s.tileCount t k n).hostWrites = s.hostWrites := by obtain ⟨_, h⟩ := s.tileCount_obs t k n; rw [h]
@[simp] theorem State.tileCount_ide (s : State) (t : TileId) (k n : Nat) : (s.tileCount t k n).ide = s.ide := by obtain ⟨_, h⟩ := s.tileCount_obs t k n; rw [h]
@[simp] theorem State.tileCount_hostWait (s : State) (t : TileId) (k n : Nat) : (s.tileCount t k n).hostWait = s.hostWait := by obtain ⟨_, h⟩ := s.tileCount_obs t k n; rw [h]
@[simp] theorem State.tileCount_xl (s : State) (t : TileId) (k n : Nat) : (s.tileCount t k n).xl = s.xl := by obtain ⟨_, h⟩ := s.tileCount_obs t k n; rw [h]
@[simp] theorem State.tileCount_eslots (s : State) (t : TileId) (k n : Nat) : (s.tileCount t k n).eslots = s.eslots := by obtain ⟨_, h⟩ := s.tileCount_obs t k n; rw [h]
@[simp] theorem State.tileCount_heads (s : State) (t : TileId) (k n : Nat) : (s.tileCount t k n).heads = s.heads := by obtain ⟨_, h⟩ := s.tileCount_obs t k n; rw [h]
@[simp] theorem State.tileCount_riders (s : State) (t : TileId) (k n : Nat) : (s.tileCount t k n).riders = s.riders := by obtain ⟨_, h⟩ := s.tileCount_obs t k n; rw [h]
@[simp] theorem State.tileCount_boot (s : State) (t : TileId) (k n : Nat) : (s.tileCount t k n).boot = s.boot := by obtain ⟨_, h⟩ := s.tileCount_obs t k n; rw [h]
@[simp] theorem State.tileCount_rst (s : State) (t : TileId) (k n : Nat) : (s.tileCount t k n).rst = s.rst := by obtain ⟨_, h⟩ := s.tileCount_obs t k n; rw [h]
@[simp] theorem State.tileCount_accCounts (s : State) (t : TileId) (k n : Nat) : (s.tileCount t k n).accCounts = s.accCounts := by obtain ⟨_, h⟩ := s.tileCount_obs t k n; rw [h]
@[simp] theorem State.tileCount_out (s : State) (t : TileId) (k n : Nat) : (s.tileCount t k n).out = s.out := by obtain ⟨_, h⟩ := s.tileCount_obs t k n; rw [h]
@[simp] theorem State.tileCount_ioNext (s : State) (t : TileId) (k n : Nat) : (s.tileCount t k n).ioNext = s.ioNext := by obtain ⟨_, h⟩ := s.tileCount_obs t k n; rw [h]
@[simp] theorem State.tileCount_fresh (s : State) (t : TileId) (k n : Nat) : (s.tileCount t k n).fresh = s.fresh := by obtain ⟨_, h⟩ := s.tileCount_obs t k n; rw [h]
@[simp] theorem State.tileCount_pending (s : State) (t : TileId) (k n : Nat) : (s.tileCount t k n).pending = s.pending := by obtain ⟨_, h⟩ := s.tileCount_obs t k n; rw [h]

@[simp] theorem State.fullCount_regs (s : State) (n b : Nat) : (s.fullCount n b).regs = s.regs := by obtain ⟨_, h⟩ := s.fullCount_obs n b; rw [h]
@[simp] theorem State.fullCount_mem (s : State) (n b : Nat) : (s.fullCount n b).mem = s.mem := by obtain ⟨_, h⟩ := s.fullCount_obs n b; rw [h]
@[simp] theorem State.fullCount_journal (s : State) (n b : Nat) : (s.fullCount n b).journal = s.journal := by obtain ⟨_, h⟩ := s.fullCount_obs n b; rw [h]
@[simp] theorem State.fullCount_pads (s : State) (n b : Nat) : (s.fullCount n b).pads = s.pads := by obtain ⟨_, h⟩ := s.fullCount_obs n b; rw [h]
@[simp] theorem State.fullCount_memUE (s : State) (n b : Nat) : (s.fullCount n b).memUE = s.memUE := by obtain ⟨_, h⟩ := s.fullCount_obs n b; rw [h]
@[simp] theorem State.fullCount_memCE (s : State) (n b : Nat) : (s.fullCount n b).memCE = s.memCE := by obtain ⟨_, h⟩ := s.fullCount_obs n b; rw [h]
@[simp] theorem State.fullCount_keyTags (s : State) (n b : Nat) : (s.fullCount n b).keyTags = s.keyTags := by obtain ⟨_, h⟩ := s.fullCount_obs n b; rw [h]
@[simp] theorem State.fullCount_tiles (s : State) (n b : Nat) : (s.fullCount n b).tiles = s.tiles := by obtain ⟨_, h⟩ := s.fullCount_obs n b; rw [h]
@[simp] theorem State.fullCount_wmEvents (s : State) (n b : Nat) : (s.fullCount n b).wmEvents = s.wmEvents := by obtain ⟨_, h⟩ := s.fullCount_obs n b; rw [h]
@[simp] theorem State.fullCount_links (s : State) (n b : Nat) : (s.fullCount n b).links = s.links := by obtain ⟨_, h⟩ := s.fullCount_obs n b; rw [h]
@[simp] theorem State.fullCount_rot (s : State) (n b : Nat) : (s.fullCount n b).rot = s.rot := by obtain ⟨_, h⟩ := s.fullCount_obs n b; rw [h]
@[simp] theorem State.fullCount_home (s : State) (n b : Nat) : (s.fullCount n b).home = s.home := by obtain ⟨_, h⟩ := s.fullCount_obs n b; rw [h]
@[simp] theorem State.fullCount_patterns (s : State) (n b : Nat) : (s.fullCount n b).patterns = s.patterns := by obtain ⟨_, h⟩ := s.fullCount_obs n b; rw [h]
@[simp] theorem State.fullCount_zeroing (s : State) (n b : Nat) : (s.fullCount n b).zeroing = s.zeroing := by obtain ⟨_, h⟩ := s.fullCount_obs n b; rw [h]
@[simp] theorem State.fullCount_twin (s : State) (n b : Nat) : (s.fullCount n b).twin = s.twin := by obtain ⟨_, h⟩ := s.fullCount_obs n b; rw [h]
@[simp] theorem State.fullCount_msixWait (s : State) (n b : Nat) : (s.fullCount n b).msixWait = s.msixWait := by obtain ⟨_, h⟩ := s.fullCount_obs n b; rw [h]
@[simp] theorem State.fullCount_pf0 (s : State) (n b : Nat) : (s.fullCount n b).pf0 = s.pf0 := by obtain ⟨_, h⟩ := s.fullCount_obs n b; rw [h]
@[simp] theorem State.fullCount_companion (s : State) (n b : Nat) : (s.fullCount n b).companion = s.companion := by obtain ⟨_, h⟩ := s.fullCount_obs n b; rw [h]
@[simp] theorem State.fullCount_vfs (s : State) (n b : Nat) : (s.fullCount n b).vfs = s.vfs := by obtain ⟨_, h⟩ := s.fullCount_obs n b; rw [h]
@[simp] theorem State.fullCount_hostWrites (s : State) (n b : Nat) : (s.fullCount n b).hostWrites = s.hostWrites := by obtain ⟨_, h⟩ := s.fullCount_obs n b; rw [h]
@[simp] theorem State.fullCount_ide (s : State) (n b : Nat) : (s.fullCount n b).ide = s.ide := by obtain ⟨_, h⟩ := s.fullCount_obs n b; rw [h]
@[simp] theorem State.fullCount_hostWait (s : State) (n b : Nat) : (s.fullCount n b).hostWait = s.hostWait := by obtain ⟨_, h⟩ := s.fullCount_obs n b; rw [h]
@[simp] theorem State.fullCount_xl (s : State) (n b : Nat) : (s.fullCount n b).xl = s.xl := by obtain ⟨_, h⟩ := s.fullCount_obs n b; rw [h]
@[simp] theorem State.fullCount_eslots (s : State) (n b : Nat) : (s.fullCount n b).eslots = s.eslots := by obtain ⟨_, h⟩ := s.fullCount_obs n b; rw [h]
@[simp] theorem State.fullCount_heads (s : State) (n b : Nat) : (s.fullCount n b).heads = s.heads := by obtain ⟨_, h⟩ := s.fullCount_obs n b; rw [h]
@[simp] theorem State.fullCount_riders (s : State) (n b : Nat) : (s.fullCount n b).riders = s.riders := by obtain ⟨_, h⟩ := s.fullCount_obs n b; rw [h]
@[simp] theorem State.fullCount_boot (s : State) (n b : Nat) : (s.fullCount n b).boot = s.boot := by obtain ⟨_, h⟩ := s.fullCount_obs n b; rw [h]
@[simp] theorem State.fullCount_rst (s : State) (n b : Nat) : (s.fullCount n b).rst = s.rst := by obtain ⟨_, h⟩ := s.fullCount_obs n b; rw [h]
@[simp] theorem State.fullCount_accCounts (s : State) (n b : Nat) : (s.fullCount n b).accCounts = s.accCounts := by obtain ⟨_, h⟩ := s.fullCount_obs n b; rw [h]
@[simp] theorem State.fullCount_out (s : State) (n b : Nat) : (s.fullCount n b).out = s.out := by obtain ⟨_, h⟩ := s.fullCount_obs n b; rw [h]
@[simp] theorem State.fullCount_ioNext (s : State) (n b : Nat) : (s.fullCount n b).ioNext = s.ioNext := by obtain ⟨_, h⟩ := s.fullCount_obs n b; rw [h]
@[simp] theorem State.fullCount_fresh (s : State) (n b : Nat) : (s.fullCount n b).fresh = s.fresh := by obtain ⟨_, h⟩ := s.fullCount_obs n b; rw [h]
@[simp] theorem State.fullCount_pending (s : State) (n b : Nat) : (s.fullCount n b).pending = s.pending := by obtain ⟨_, h⟩ := s.fullCount_obs n b; rw [h]

@[simp] theorem State.linkCount_regs (s : State) (i k n : Nat) : (s.linkCount i k n).regs = s.regs := by obtain ⟨_, h⟩ := s.linkCount_obs i k n; rw [h]
@[simp] theorem State.linkCount_mem (s : State) (i k n : Nat) : (s.linkCount i k n).mem = s.mem := by obtain ⟨_, h⟩ := s.linkCount_obs i k n; rw [h]
@[simp] theorem State.linkCount_journal (s : State) (i k n : Nat) : (s.linkCount i k n).journal = s.journal := by obtain ⟨_, h⟩ := s.linkCount_obs i k n; rw [h]
@[simp] theorem State.linkCount_pads (s : State) (i k n : Nat) : (s.linkCount i k n).pads = s.pads := by obtain ⟨_, h⟩ := s.linkCount_obs i k n; rw [h]
@[simp] theorem State.linkCount_memUE (s : State) (i k n : Nat) : (s.linkCount i k n).memUE = s.memUE := by obtain ⟨_, h⟩ := s.linkCount_obs i k n; rw [h]
@[simp] theorem State.linkCount_memCE (s : State) (i k n : Nat) : (s.linkCount i k n).memCE = s.memCE := by obtain ⟨_, h⟩ := s.linkCount_obs i k n; rw [h]
@[simp] theorem State.linkCount_keyTags (s : State) (i k n : Nat) : (s.linkCount i k n).keyTags = s.keyTags := by obtain ⟨_, h⟩ := s.linkCount_obs i k n; rw [h]
@[simp] theorem State.linkCount_tiles (s : State) (i k n : Nat) : (s.linkCount i k n).tiles = s.tiles := by obtain ⟨_, h⟩ := s.linkCount_obs i k n; rw [h]
@[simp] theorem State.linkCount_wmEvents (s : State) (i k n : Nat) : (s.linkCount i k n).wmEvents = s.wmEvents := by obtain ⟨_, h⟩ := s.linkCount_obs i k n; rw [h]
@[simp] theorem State.linkCount_links (s : State) (i k n : Nat) : (s.linkCount i k n).links = s.links := by obtain ⟨_, h⟩ := s.linkCount_obs i k n; rw [h]
@[simp] theorem State.linkCount_rot (s : State) (i k n : Nat) : (s.linkCount i k n).rot = s.rot := by obtain ⟨_, h⟩ := s.linkCount_obs i k n; rw [h]
@[simp] theorem State.linkCount_home (s : State) (i k n : Nat) : (s.linkCount i k n).home = s.home := by obtain ⟨_, h⟩ := s.linkCount_obs i k n; rw [h]
@[simp] theorem State.linkCount_patterns (s : State) (i k n : Nat) : (s.linkCount i k n).patterns = s.patterns := by obtain ⟨_, h⟩ := s.linkCount_obs i k n; rw [h]
@[simp] theorem State.linkCount_zeroing (s : State) (i k n : Nat) : (s.linkCount i k n).zeroing = s.zeroing := by obtain ⟨_, h⟩ := s.linkCount_obs i k n; rw [h]
@[simp] theorem State.linkCount_twin (s : State) (i k n : Nat) : (s.linkCount i k n).twin = s.twin := by obtain ⟨_, h⟩ := s.linkCount_obs i k n; rw [h]
@[simp] theorem State.linkCount_msixWait (s : State) (i k n : Nat) : (s.linkCount i k n).msixWait = s.msixWait := by obtain ⟨_, h⟩ := s.linkCount_obs i k n; rw [h]
@[simp] theorem State.linkCount_pf0 (s : State) (i k n : Nat) : (s.linkCount i k n).pf0 = s.pf0 := by obtain ⟨_, h⟩ := s.linkCount_obs i k n; rw [h]
@[simp] theorem State.linkCount_companion (s : State) (i k n : Nat) : (s.linkCount i k n).companion = s.companion := by obtain ⟨_, h⟩ := s.linkCount_obs i k n; rw [h]
@[simp] theorem State.linkCount_vfs (s : State) (i k n : Nat) : (s.linkCount i k n).vfs = s.vfs := by obtain ⟨_, h⟩ := s.linkCount_obs i k n; rw [h]
@[simp] theorem State.linkCount_hostWrites (s : State) (i k n : Nat) : (s.linkCount i k n).hostWrites = s.hostWrites := by obtain ⟨_, h⟩ := s.linkCount_obs i k n; rw [h]
@[simp] theorem State.linkCount_ide (s : State) (i k n : Nat) : (s.linkCount i k n).ide = s.ide := by obtain ⟨_, h⟩ := s.linkCount_obs i k n; rw [h]
@[simp] theorem State.linkCount_hostWait (s : State) (i k n : Nat) : (s.linkCount i k n).hostWait = s.hostWait := by obtain ⟨_, h⟩ := s.linkCount_obs i k n; rw [h]
@[simp] theorem State.linkCount_xl (s : State) (i k n : Nat) : (s.linkCount i k n).xl = s.xl := by obtain ⟨_, h⟩ := s.linkCount_obs i k n; rw [h]
@[simp] theorem State.linkCount_eslots (s : State) (i k n : Nat) : (s.linkCount i k n).eslots = s.eslots := by obtain ⟨_, h⟩ := s.linkCount_obs i k n; rw [h]
@[simp] theorem State.linkCount_heads (s : State) (i k n : Nat) : (s.linkCount i k n).heads = s.heads := by obtain ⟨_, h⟩ := s.linkCount_obs i k n; rw [h]
@[simp] theorem State.linkCount_riders (s : State) (i k n : Nat) : (s.linkCount i k n).riders = s.riders := by obtain ⟨_, h⟩ := s.linkCount_obs i k n; rw [h]
@[simp] theorem State.linkCount_boot (s : State) (i k n : Nat) : (s.linkCount i k n).boot = s.boot := by obtain ⟨_, h⟩ := s.linkCount_obs i k n; rw [h]
@[simp] theorem State.linkCount_rst (s : State) (i k n : Nat) : (s.linkCount i k n).rst = s.rst := by obtain ⟨_, h⟩ := s.linkCount_obs i k n; rw [h]
@[simp] theorem State.linkCount_accCounts (s : State) (i k n : Nat) : (s.linkCount i k n).accCounts = s.accCounts := by obtain ⟨_, h⟩ := s.linkCount_obs i k n; rw [h]
@[simp] theorem State.linkCount_out (s : State) (i k n : Nat) : (s.linkCount i k n).out = s.out := by obtain ⟨_, h⟩ := s.linkCount_obs i k n; rw [h]
@[simp] theorem State.linkCount_ioNext (s : State) (i k n : Nat) : (s.linkCount i k n).ioNext = s.ioNext := by obtain ⟨_, h⟩ := s.linkCount_obs i k n; rw [h]
@[simp] theorem State.linkCount_fresh (s : State) (i k n : Nat) : (s.linkCount i k n).fresh = s.fresh := by obtain ⟨_, h⟩ := s.linkCount_obs i k n; rw [h]
@[simp] theorem State.linkCount_pending (s : State) (i k n : Nat) : (s.linkCount i k n).pending = s.pending := by obtain ⟨_, h⟩ := s.linkCount_obs i k n; rw [h]

@[simp] theorem State.account_regs (s : State) (o : Output) : (s.account o).regs = s.regs := by obtain ⟨_, h⟩ := s.account_obs o; rw [h]
@[simp] theorem State.account_mem (s : State) (o : Output) : (s.account o).mem = s.mem := by obtain ⟨_, h⟩ := s.account_obs o; rw [h]
@[simp] theorem State.account_journal (s : State) (o : Output) : (s.account o).journal = s.journal := by obtain ⟨_, h⟩ := s.account_obs o; rw [h]
@[simp] theorem State.account_pads (s : State) (o : Output) : (s.account o).pads = s.pads := by obtain ⟨_, h⟩ := s.account_obs o; rw [h]
@[simp] theorem State.account_memUE (s : State) (o : Output) : (s.account o).memUE = s.memUE := by obtain ⟨_, h⟩ := s.account_obs o; rw [h]
@[simp] theorem State.account_memCE (s : State) (o : Output) : (s.account o).memCE = s.memCE := by obtain ⟨_, h⟩ := s.account_obs o; rw [h]
@[simp] theorem State.account_keyTags (s : State) (o : Output) : (s.account o).keyTags = s.keyTags := by obtain ⟨_, h⟩ := s.account_obs o; rw [h]
@[simp] theorem State.account_tiles (s : State) (o : Output) : (s.account o).tiles = s.tiles := by obtain ⟨_, h⟩ := s.account_obs o; rw [h]
@[simp] theorem State.account_wmEvents (s : State) (o : Output) : (s.account o).wmEvents = s.wmEvents := by obtain ⟨_, h⟩ := s.account_obs o; rw [h]
@[simp] theorem State.account_links (s : State) (o : Output) : (s.account o).links = s.links := by obtain ⟨_, h⟩ := s.account_obs o; rw [h]
@[simp] theorem State.account_rot (s : State) (o : Output) : (s.account o).rot = s.rot := by obtain ⟨_, h⟩ := s.account_obs o; rw [h]
@[simp] theorem State.account_home (s : State) (o : Output) : (s.account o).home = s.home := by obtain ⟨_, h⟩ := s.account_obs o; rw [h]
@[simp] theorem State.account_patterns (s : State) (o : Output) : (s.account o).patterns = s.patterns := by obtain ⟨_, h⟩ := s.account_obs o; rw [h]
@[simp] theorem State.account_zeroing (s : State) (o : Output) : (s.account o).zeroing = s.zeroing := by obtain ⟨_, h⟩ := s.account_obs o; rw [h]
@[simp] theorem State.account_twin (s : State) (o : Output) : (s.account o).twin = s.twin := by obtain ⟨_, h⟩ := s.account_obs o; rw [h]
@[simp] theorem State.account_msixWait (s : State) (o : Output) : (s.account o).msixWait = s.msixWait := by obtain ⟨_, h⟩ := s.account_obs o; rw [h]
@[simp] theorem State.account_pf0 (s : State) (o : Output) : (s.account o).pf0 = s.pf0 := by obtain ⟨_, h⟩ := s.account_obs o; rw [h]
@[simp] theorem State.account_companion (s : State) (o : Output) : (s.account o).companion = s.companion := by obtain ⟨_, h⟩ := s.account_obs o; rw [h]
@[simp] theorem State.account_vfs (s : State) (o : Output) : (s.account o).vfs = s.vfs := by obtain ⟨_, h⟩ := s.account_obs o; rw [h]
@[simp] theorem State.account_hostWrites (s : State) (o : Output) : (s.account o).hostWrites = s.hostWrites := by obtain ⟨_, h⟩ := s.account_obs o; rw [h]
@[simp] theorem State.account_ide (s : State) (o : Output) : (s.account o).ide = s.ide := by obtain ⟨_, h⟩ := s.account_obs o; rw [h]
@[simp] theorem State.account_hostWait (s : State) (o : Output) : (s.account o).hostWait = s.hostWait := by obtain ⟨_, h⟩ := s.account_obs o; rw [h]
@[simp] theorem State.account_xl (s : State) (o : Output) : (s.account o).xl = s.xl := by obtain ⟨_, h⟩ := s.account_obs o; rw [h]
@[simp] theorem State.account_eslots (s : State) (o : Output) : (s.account o).eslots = s.eslots := by obtain ⟨_, h⟩ := s.account_obs o; rw [h]
@[simp] theorem State.account_heads (s : State) (o : Output) : (s.account o).heads = s.heads := by obtain ⟨_, h⟩ := s.account_obs o; rw [h]
@[simp] theorem State.account_riders (s : State) (o : Output) : (s.account o).riders = s.riders := by obtain ⟨_, h⟩ := s.account_obs o; rw [h]
@[simp] theorem State.account_boot (s : State) (o : Output) : (s.account o).boot = s.boot := by obtain ⟨_, h⟩ := s.account_obs o; rw [h]
@[simp] theorem State.account_rst (s : State) (o : Output) : (s.account o).rst = s.rst := by obtain ⟨_, h⟩ := s.account_obs o; rw [h]
@[simp] theorem State.account_accCounts (s : State) (o : Output) : (s.account o).accCounts = s.accCounts := by obtain ⟨_, h⟩ := s.account_obs o; rw [h]
@[simp] theorem State.account_out (s : State) (o : Output) : (s.account o).out = s.out := by obtain ⟨_, h⟩ := s.account_obs o; rw [h]
@[simp] theorem State.account_ioNext (s : State) (o : Output) : (s.account o).ioNext = s.ioNext := by obtain ⟨_, h⟩ := s.account_obs o; rw [h]
@[simp] theorem State.account_fresh (s : State) (o : Output) : (s.account o).fresh = s.fresh := by obtain ⟨_, h⟩ := s.account_obs o; rw [h]
@[simp] theorem State.account_pending (s : State) (o : Output) : (s.account o).pending = s.pending := by obtain ⟨_, h⟩ := s.account_obs o; rw [h]

@[simp] theorem State.emit_regs (s : State) (o : Output) : (s.emit o).regs = s.regs := by obtain ⟨_, h⟩ := s.account_obs o; unfold State.emit; rw [h]
@[simp] theorem State.emit_mem (s : State) (o : Output) : (s.emit o).mem = s.mem := by obtain ⟨_, h⟩ := s.account_obs o; unfold State.emit; rw [h]
@[simp] theorem State.emit_journal (s : State) (o : Output) : (s.emit o).journal = s.journal := by obtain ⟨_, h⟩ := s.account_obs o; unfold State.emit; rw [h]
@[simp] theorem State.emit_pads (s : State) (o : Output) : (s.emit o).pads = s.pads := by obtain ⟨_, h⟩ := s.account_obs o; unfold State.emit; rw [h]
@[simp] theorem State.emit_memUE (s : State) (o : Output) : (s.emit o).memUE = s.memUE := by obtain ⟨_, h⟩ := s.account_obs o; unfold State.emit; rw [h]
@[simp] theorem State.emit_memCE (s : State) (o : Output) : (s.emit o).memCE = s.memCE := by obtain ⟨_, h⟩ := s.account_obs o; unfold State.emit; rw [h]
@[simp] theorem State.emit_keyTags (s : State) (o : Output) : (s.emit o).keyTags = s.keyTags := by obtain ⟨_, h⟩ := s.account_obs o; unfold State.emit; rw [h]
@[simp] theorem State.emit_tiles (s : State) (o : Output) : (s.emit o).tiles = s.tiles := by obtain ⟨_, h⟩ := s.account_obs o; unfold State.emit; rw [h]
@[simp] theorem State.emit_wmEvents (s : State) (o : Output) : (s.emit o).wmEvents = s.wmEvents := by obtain ⟨_, h⟩ := s.account_obs o; unfold State.emit; rw [h]
@[simp] theorem State.emit_links (s : State) (o : Output) : (s.emit o).links = s.links := by obtain ⟨_, h⟩ := s.account_obs o; unfold State.emit; rw [h]
@[simp] theorem State.emit_rot (s : State) (o : Output) : (s.emit o).rot = s.rot := by obtain ⟨_, h⟩ := s.account_obs o; unfold State.emit; rw [h]
@[simp] theorem State.emit_home (s : State) (o : Output) : (s.emit o).home = s.home := by obtain ⟨_, h⟩ := s.account_obs o; unfold State.emit; rw [h]
@[simp] theorem State.emit_patterns (s : State) (o : Output) : (s.emit o).patterns = s.patterns := by obtain ⟨_, h⟩ := s.account_obs o; unfold State.emit; rw [h]
@[simp] theorem State.emit_zeroing (s : State) (o : Output) : (s.emit o).zeroing = s.zeroing := by obtain ⟨_, h⟩ := s.account_obs o; unfold State.emit; rw [h]
@[simp] theorem State.emit_twin (s : State) (o : Output) : (s.emit o).twin = s.twin := by obtain ⟨_, h⟩ := s.account_obs o; unfold State.emit; rw [h]
@[simp] theorem State.emit_msixWait (s : State) (o : Output) : (s.emit o).msixWait = s.msixWait := by obtain ⟨_, h⟩ := s.account_obs o; unfold State.emit; rw [h]
@[simp] theorem State.emit_pf0 (s : State) (o : Output) : (s.emit o).pf0 = s.pf0 := by obtain ⟨_, h⟩ := s.account_obs o; unfold State.emit; rw [h]
@[simp] theorem State.emit_companion (s : State) (o : Output) : (s.emit o).companion = s.companion := by obtain ⟨_, h⟩ := s.account_obs o; unfold State.emit; rw [h]
@[simp] theorem State.emit_vfs (s : State) (o : Output) : (s.emit o).vfs = s.vfs := by obtain ⟨_, h⟩ := s.account_obs o; unfold State.emit; rw [h]
@[simp] theorem State.emit_hostWrites (s : State) (o : Output) : (s.emit o).hostWrites = s.hostWrites := by obtain ⟨_, h⟩ := s.account_obs o; unfold State.emit; rw [h]
@[simp] theorem State.emit_ide (s : State) (o : Output) : (s.emit o).ide = s.ide := by obtain ⟨_, h⟩ := s.account_obs o; unfold State.emit; rw [h]
@[simp] theorem State.emit_hostWait (s : State) (o : Output) : (s.emit o).hostWait = s.hostWait := by obtain ⟨_, h⟩ := s.account_obs o; unfold State.emit; rw [h]
@[simp] theorem State.emit_xl (s : State) (o : Output) : (s.emit o).xl = s.xl := by obtain ⟨_, h⟩ := s.account_obs o; unfold State.emit; rw [h]
@[simp] theorem State.emit_eslots (s : State) (o : Output) : (s.emit o).eslots = s.eslots := by obtain ⟨_, h⟩ := s.account_obs o; unfold State.emit; rw [h]
@[simp] theorem State.emit_heads (s : State) (o : Output) : (s.emit o).heads = s.heads := by obtain ⟨_, h⟩ := s.account_obs o; unfold State.emit; rw [h]
@[simp] theorem State.emit_riders (s : State) (o : Output) : (s.emit o).riders = s.riders := by obtain ⟨_, h⟩ := s.account_obs o; unfold State.emit; rw [h]
@[simp] theorem State.emit_boot (s : State) (o : Output) : (s.emit o).boot = s.boot := by obtain ⟨_, h⟩ := s.account_obs o; unfold State.emit; rw [h]
@[simp] theorem State.emit_rst (s : State) (o : Output) : (s.emit o).rst = s.rst := by obtain ⟨_, h⟩ := s.account_obs o; unfold State.emit; rw [h]
@[simp] theorem State.emit_accCounts (s : State) (o : Output) : (s.emit o).accCounts = s.accCounts := by obtain ⟨_, h⟩ := s.account_obs o; unfold State.emit; rw [h]
@[simp] theorem State.emit_ioNext (s : State) (o : Output) : (s.emit o).ioNext = s.ioNext := by obtain ⟨_, h⟩ := s.account_obs o; unfold State.emit; rw [h]
@[simp] theorem State.emit_fresh (s : State) (o : Output) : (s.emit o).fresh = s.fresh := by obtain ⟨_, h⟩ := s.account_obs o; unfold State.emit; rw [h]
@[simp] theorem State.emit_pending (s : State) (o : Output) : (s.emit o).pending = s.pending := by obtain ⟨_, h⟩ := s.account_obs o; unfold State.emit; rw [h]

/-! ### Registers -/

/-- Erasing a key is what a read of another key does not see. -/
theorem Assoc.get_erase' {α β : Type} [DecidableEq α] (l : List (α × β)) (k a : α) :
    Assoc.get? (Assoc.erase l k) a = if a = k then none else Assoc.get? l a := by
  induction l with
  | nil => simp [Assoc.erase, Assoc.get?]
  | cons x r ih =>
    obtain ⟨k', v⟩ := x
    simp only [Assoc.erase] at ih ⊢
    by_cases h : k' = k
    · subst h
      by_cases e : a = k' <;> simp_all [Assoc.get?, eq_comm]
    · by_cases e : k' = a
      · subst e; simp [Assoc.get?, h]
      · simpa [Assoc.get?, h, e] using ih

/-- Inserting a key is what a read of that key alone sees. -/
theorem Assoc.get_insert' {α β : Type} [DecidableEq α] (rank : α → Nat) (l : List (α × β)) (k a : α) (v : β) :
    Assoc.get? (Assoc.insert rank l k v) a = if a = k then some v else Assoc.get? l a := by
  induction l with
  | nil => simp [Assoc.insert, Assoc.get?, eq_comm]
  | cons x r ih =>
    obtain ⟨k', v'⟩ := x
    simp only [Assoc.insert]
    split
    · rename_i h; subst h
      by_cases e : a = k' <;> simp_all [Assoc.get?, eq_comm]
    · split
      · by_cases e : a = k <;> simp_all [Assoc.get?, eq_comm]
      · by_cases e : k' = a
        · subst e; simp_all [Assoc.get?]
        · simp [Assoc.get?, e, ih]

/-- A register reads as it was last written; every other register reads as before. -/
theorem State.rd_wr (s : State) (r r' : Reg) (v : Word64) : (s.wr r v).rd r' = if r' = r then v else s.rd r' := by
  unfold State.rd State.wr Assoc.put
  dsimp only
  split
  · rename_i h; rw [Assoc.get_erase']; split <;> simp_all
  · rw [Assoc.get_insert']; split <;> simp

@[simp] theorem State.rd_wr_same (s : State) (r : Reg) (v : Word64) : (s.wr r v).rd r = v := by simp [State.rd_wr]

theorem State.rd_wr_other (s : State) {r r' : Reg} (v : Word64) (h : r' ≠ r) : (s.wr r v).rd r' = s.rd r' := by
  simp [State.rd_wr, h]

theorem State.rd_setFld (s : State) (r r' : Reg) (f : Fld) (v : Nat) :
    (s.setFld r f v).rd r' = if r' = r then f.set (s.rd r) v else s.rd r' := by
  unfold State.setFld; rw [State.rd_wr]

theorem State.rd_orReg (s : State) (r r' : Reg) (v : Word64) :
    (s.orReg r v).rd r' = if r' = r then s.rd r ||| v else s.rd r' := by
  unfold State.orReg; rw [State.rd_wr]

@[simp] theorem State.rd_setTile (s : State) (t : TileId) (x : Tile) (r : Reg) : (s.setTile t x).rd r = s.rd r := rfl
@[simp] theorem State.rd_updTile (s : State) (t : TileId) (f : Tile → Tile) (r : Reg) : (s.updTile t f).rd r = s.rd r := rfl
@[simp] theorem State.rd_updCore (s : State) (t : TileId) (c : CoreId) (f : Core → Core) (r : Reg) :
    (s.updCore t c f).rd r = s.rd r := rfl
@[simp] theorem State.rd_setGroup (s : State) (g : GroupId) (x : Option Group) (r : Reg) :
    (s.setGroup g x).rd r = s.rd r := rfl
@[simp] theorem State.rd_updLink (s : State) (l : LinkId) (f : Link → Link) (r : Reg) : (s.updLink l f).rd r = s.rd r := rfl
@[simp] theorem State.rd_updHome (s : State) (f : Home → Home) (r : Reg) : (s.updHome f).rd r = s.rd r := rfl
@[simp] theorem State.rd_wmEvent (s : State) (n : Nat) (cs : List Byte) (m : Option Nat) (r : Reg) :
    (s.wmEvent n cs m).rd r = s.rd r := rfl
@[simp] theorem State.rd_countAt (s : State) (off n : Nat) (r : Reg) : (s.countAt off n).rd r = s.rd r := by
  unfold State.rd; simp
@[simp] theorem State.rd_tileCount (s : State) (t : TileId) (k n : Nat) (r : Reg) : (s.tileCount t k n).rd r = s.rd r := by
  unfold State.rd; simp
@[simp] theorem State.rd_fullCount (s : State) (n b : Nat) (r : Reg) : (s.fullCount n b).rd r = s.rd r := by
  unfold State.rd; simp
@[simp] theorem State.rd_emit (s : State) (o : Output) (r : Reg) : (s.emit o).rd r = s.rd r := by
  unfold State.rd; simp

/-! ### Tiles and groups -/

theorem State.tile_setTile (s : State) (t u : TileId) (x : Tile) : (s.setTile t x).tile u = if u = t then x else s.tile u := by
  unfold State.tile State.setTile
  simp only [Vector.getElem_set]
  by_cases h : u = t
  · subst h; simp
  · have : t.val ≠ u.val := fun e => h (Fin.ext e.symm)
    simp [h, this]

@[simp] theorem State.tile_setTile_same (s : State) (t : TileId) (x : Tile) : (s.setTile t x).tile t = x := by
  simp [State.tile_setTile]

theorem State.tile_updTile (s : State) (t u : TileId) (f : Tile → Tile) :
    (s.updTile t f).tile u = if u = t then f (s.tile t) else s.tile u := State.tile_setTile s t u _

theorem Tile.core_updCore (x : Tile) (c d : CoreId) (f : Core → Core) :
    (x.updCore c f).core d = if d = c then f (x.core c) else x.core d := by
  unfold Tile.updCore Tile.core
  simp only [Vector.getElem_set]
  by_cases h : d = c
  · subst h; simp
  · have : c.val ≠ d.val := fun e => h (Fin.ext e.symm)
    simp [h, this]

theorem Core.group_setGroup (c : Core) (i j : SlotId) (g : Option Group) :
    (c.setGroup i g).group j = if j = i then g else c.group j := by
  unfold Core.group Core.setGroup
  simp only [Vector.getElem_set]
  by_cases h : j = i
  · subst h; simp
  · have : i.val ≠ j.val := fun e => h (Fin.ext e.symm)
    simp [h, this]

/-- A group reads as it was last set; every other group reads as before. -/
theorem State.group_setGroup (s : State) (g h : GroupId) (x : Option Group) :
    (s.setGroup g x).group h = if h = g then x else s.group h := by
  unfold State.group State.setGroup State.updCore State.core
  rw [State.tile_updTile]
  by_cases ht : h.tile = g.tile
  · rw [if_pos ht, Tile.core_updCore]
    by_cases hc : h.core = g.core
    · rw [if_pos hc, Core.group_setGroup]
      by_cases hs : h.slot = g.slot
      · have : h = g := by cases h; cases g; simp_all
        simp [this]
      · have : h ≠ g := fun e => hs (by rw [e])
        simp [hs, this, ht, hc]
    · have : h ≠ g := fun e => hc (by rw [e])
      simp [hc, this, ht]
  · have : h ≠ g := fun e => ht (by rw [e])
    simp [ht, this]

end Sys2Proof.Machine
end

