-- ==== Sys2Proof/WellFormed.lean ====
section
/-! DEFINITION. When a command is well formed: an instruction word carries the opcode of the instruction that the command
names, a message the opcode of its row and the data that goes with it, a register access the size of its row. The machine gives
every command an outcome, well formed or not; an ill-formed one changes nothing that its row would. -/

namespace Sys2Proof

/-- The opcode of a vector word (R156). -/
def vecOpc (w : Word64) : Nat := w.toNat / 2 ^ 56

/-- The opcode of a sequencer word (R172). -/
def seqOpc (w : Word32) : Nat := w.toNat / 2 ^ 26

/-- An atomic in one of its three address spaces, with an operation (R166, R168). -/
def vecAop (w : Word64) (aop : Nat) : Bool :=
  (vecOpc w == 0x46 || vecOpc w == 0x47 || vecOpc w == 0x48) && w.toNat / 2 ^ 10 % 16 == aop

/-- A naturally aligned access of 4 or 8 bytes (R13). -/
def accessOk (off size : Nat) : Bool := (size == 4 || size == 8) && off % size == 0

/-- A message carries a line exactly when DATA is 1 (R353). -/
def CohMsg.shaped (m : CohMsg) : Bool := m.data.length == if m.hasData then 64 else 0

/-- A DATA parcel carries a line, or the bytes of its window that it writes (R253). -/
def DataParcel.shaped (p : DataParcel) : Bool := p.data.length == if p.part then p.plenM1.toNat + 1 else 256

/-- A flit at a link's stop. -/
def LinkFlit.shaped (f : LinkFlit) : Bool :=
  match f.parcel with
  | .inl p => p.shaped
  | .inr _ => true

/-- A container of well-formed messages that fill at most four flit positions (R254). -/
def Container.shaped (c : Container) : Bool :=
  c.flits.all CohMsg.shaped && (c.flits.map (fun m => if m.hasData then 2 else 1)).foldl (· + ·) 0 ≤ 4

/-- A ring slot has 128 bytes (R439). -/
def FetchResult.shaped (r : FetchResult) : Bool :=
  match r with
  | .slot bytes => bytes.length == 128
  | .failed => true

/-- A well-formed command. -/
def Instr.wf (i : Instr) : Bool :=
  match i with
  | .registerWrite off size _ _ => accessOk off size
  | .unsupportedAccess off size _ => !accessOk off size
  | .turnStart _ _ => true
  | .appendedCyclesStart => true
  | .markGapExpiry _ => true
  | .slabDrainDone _ => true
  | .schedFlitArrive f => decide (f.data.length ≤ 256)
  | .schedHbmCommand _ q => decide (q.data.length ≤ 256)
  | .schedHbmData _ q _ => decide (q.data.length ≤ 256)
  | .coherentHbmCommand _ q _ => decide (q.data.length ≤ 256)
  | .refresh _ _ _ => true
  | .iadd _ w => vecOpc w == 0x01 || vecOpc w == 0x81
  | .isub _ w => vecOpc w == 0x02 || vecOpc w == 0x82
  | .imul _ w => vecOpc w == 0x03 || vecOpc w == 0x83
  | .imulh _ w => vecOpc w == 0x04
  | .imad _ w => vecOpc w == 0x05
  | .imin _ w => vecOpc w == 0x06 || vecOpc w == 0x86
  | .imax _ w => vecOpc w == 0x07 || vecOpc w == 0x87
  | .and _ w => vecOpc w == 0x08 || vecOpc w == 0x88
  | .or _ w => vecOpc w == 0x09 || vecOpc w == 0x89
  | .xor _ w => vecOpc w == 0x0A || vecOpc w == 0x8A
  | .shl _ w => vecOpc w == 0x0B || vecOpc w == 0x8B
  | .shr _ w => vecOpc w == 0x0C || vecOpc w == 0x8C
  | .sel _ w => vecOpc w == 0x0D
  | .mov _ w => vecOpc w == 0x0E || vecOpc w == 0x8E
  | .isetp _ w => vecOpc w == 0x0F || vecOpc w == 0x8F
  | .fadd _ w => vecOpc w == 0x10 || vecOpc w == 0x90
  | .fsub _ w => vecOpc w == 0x11 || vecOpc w == 0x91
  | .fmul _ w => vecOpc w == 0x12 || vecOpc w == 0x92
  | .ffma _ w => vecOpc w == 0x13
  | .fmin _ w => vecOpc w == 0x14 || vecOpc w == 0x94
  | .fmax _ w => vecOpc w == 0x15 || vecOpc w == 0x95
  | .fsetp _ w => vecOpc w == 0x16 || vecOpc w == 0x96
  | .hadd2 _ w => vecOpc w == 0x17
  | .hmul2 _ w => vecOpc w == 0x18
  | .hfma2 _ w => vecOpc w == 0x19
  | .badd2 _ w => vecOpc w == 0x1A
  | .bmul2 _ w => vecOpc w == 0x1B
  | .bfma2 _ w => vecOpc w == 0x1C
  | .cvt _ w => vecOpc w == 0x20
  | .wadd _ w => vecOpc w == 0x21
  | .wcvt _ w => vecOpc w == 0x22
  | .wrnd _ w => vecOpc w == 0x23
  | .rcp _ w => vecOpc w == 0x30
  | .sqrt _ w => vecOpc w == 0x31
  | .rsq _ w => vecOpc w == 0x32
  | .ex2 _ w => vecOpc w == 0x33
  | .lg2 _ w => vecOpc w == 0x34
  | .sinpi _ w => vecOpc w == 0x35
  | .cospi _ w => vecOpc w == 0x36
  | .idiv _ w => vecOpc w == 0x37
  | .irem _ w => vecOpc w == 0x38
  | .shfl _ w => vecOpc w == 0x3A
  | .ballot _ w => vecOpc w == 0x3B
  | .movu _ w => vecOpc w == 0x3C
  | .bcast _ w => vecOpc w == 0x3D
  | .sreg _ w => vecOpc w == 0x3E
  | .fflag _ w => vecOpc w == 0x3F
  | .lds _ w => vecOpc w == 0x40
  | .sts _ w => vecOpc w == 0x41
  | .ldl _ w => vecOpc w == 0x42
  | .stl _ w => vecOpc w == 0x43
  | .ld _ w => vecOpc w == 0x44
  | .st _ w => vecOpc w == 0x45
  | .aopAdd _ w => vecAop w 0
  | .aopSmin _ w => vecAop w 1
  | .aopUmin _ w => vecAop w 2
  | .aopSmax _ w => vecAop w 3
  | .aopUmax _ w => vecAop w 4
  | .aopAnd _ w => vecAop w 5
  | .aopOr _ w => vecAop w 6
  | .aopXor _ w => vecAop w 7
  | .exch _ w => vecAop w 8
  | .cas _ w => vecAop w 9
  | .aopFadd _ w => vecAop w 10
  | .ulds _ w => vecOpc w == 0x49
  | .usts _ w => vecOpc w == 0x4A
  | .l1inv _ w => vecOpc w == 0x4B
  | .fenceOrd _ w => vecOpc w == 0x4C
  | .fenceEnd _ w => vecOpc w == 0x4D
  | .fenceComplete _ => true
  | .mxma _ w => vecOpc w == 0x60
  | .mxld _ w => vecOpc w == 0x61
  | .mxst _ w => vecOpc w == 0x62
  | .twait _ w => vecOpc w == 0x63
  | .ttest _ w => vecOpc w == 0x64
  | .tstat _ w => vecOpc w == 0x65
  | .matrixAccept _ _ _ => true
  | .matrixEnd _ _ _ => true
  | .tokenDone _ _ => true
  | .accumClear _ => true
  | .barBlk _ w => vecOpc w == 0x70
  | .exit _ w => vecOpc w == 0x71
  | .bra _ w => vecOpc w == 0x72
  | .braU _ w => vecOpc w == 0x73
  | .jmp _ w => vecOpc w == 0x74
  | .jalU _ w => vecOpc w == 0x75
  | .jrU _ w => vecOpc w == 0x76
  | .trap _ w => vecOpc w == 0x77
  | .nop _ w => vecOpc w == 0x7E
  | .uadd _ w => vecOpc w == 0xC0 || vecOpc w == 0xD0
  | .usub _ w => vecOpc w == 0xC1 || vecOpc w == 0xD1
  | .umul _ w => vecOpc w == 0xC2 || vecOpc w == 0xD2
  | .uand _ w => vecOpc w == 0xC3 || vecOpc w == 0xD3
  | .uor _ w => vecOpc w == 0xC4 || vecOpc w == 0xD4
  | .uxor _ w => vecOpc w == 0xC5 || vecOpc w == 0xD5
  | .ushl _ w => vecOpc w == 0xC6 || vecOpc w == 0xD6
  | .ushr _ w => vecOpc w == 0xC7 || vecOpc w == 0xD7
  | .umin _ w => vecOpc w == 0xC8 || vecOpc w == 0xD8
  | .umax _ w => vecOpc w == 0xC9 || vecOpc w == 0xD9
  | .umov _ w => vecOpc w == 0xCA || vecOpc w == 0xDA
  | .usetp _ w => vecOpc w == 0xCB || vecOpc w == 0xDB
  | .illegal _ => true
  | .lateAccess _ _ _ => true
  | .loadReturn _ _ _ => true
  | .icacheFill _ _ _ => true
  | .mergeFlush _ _ _ => true
  | .rangeWalkDone _ _ _ => true
  | .groupTimeslice _ => true
  | .activeSlotFill _ _ => true
  | .blockStart _ _ => true
  | .alu _ w => seqOpc w == 0x01
  | .aluAdd _ w => seqOpc w == 0x01 && w.toNat % 16 == 0
  | .aluSub _ w => seqOpc w == 0x01 && w.toNat % 16 == 1
  | .aluAnd _ w => seqOpc w == 0x01 && w.toNat % 16 == 2
  | .aluOr _ w => seqOpc w == 0x01 && w.toNat % 16 == 3
  | .aluXor _ w => seqOpc w == 0x01 && w.toNat % 16 == 4
  | .sll _ w => seqOpc w == 0x01 && w.toNat % 16 == 5
  | .srl _ w => seqOpc w == 0x01 && w.toNat % 16 == 6
  | .sra _ w => seqOpc w == 0x01 && w.toNat % 16 == 7
  | .slt _ w => seqOpc w == 0x01 && w.toNat % 16 == 8
  | .sltu _ w => seqOpc w == 0x01 && w.toNat % 16 == 9
  | .mul _ w => seqOpc w == 0x01 && w.toNat % 16 == 10
  | .addi _ w => seqOpc w == 0x02
  | .andi _ w => seqOpc w == 0x03
  | .ori _ w => seqOpc w == 0x04
  | .xori _ w => seqOpc w == 0x05
  | .slli _ w => seqOpc w == 0x06
  | .srli _ w => seqOpc w == 0x07
  | .srai _ w => seqOpc w == 0x08
  | .slti _ w => seqOpc w == 0x09
  | .lui _ w => seqOpc w == 0x0A
  | .seqLd _ w => seqOpc w == 0x10
  | .ldw _ w => seqOpc w == 0x11
  | .seqSt _ w => seqOpc w == 0x12
  | .stw _ w => seqOpc w == 0x13
  | .beq _ w => seqOpc w == 0x18
  | .bne _ w => seqOpc w == 0x19
  | .blt _ w => seqOpc w == 0x1A
  | .bge _ w => seqOpc w == 0x1B
  | .bltu _ w => seqOpc w == 0x1C
  | .bgeu _ w => seqOpc w == 0x1D
  | .jal _ w => seqOpc w == 0x1E
  | .jalr _ w => seqOpc w == 0x1F
  | .wait _ w => seqOpc w == 0x20
  | .waitPointReached _ => true
  | .delay _ w => seqOpc w == 0x21
  | .delayExpiry _ => true
  | .mark _ w => seqOpc w == 0x22
  | .mode _ w => seqOpc w == 0x23
  | .launch _ w => seqOpc w == 0x24
  | .kernelStart _ => true
  | .kernelEnd _ => true
  | .kwait _ w => seqOpc w == 0x25
  | .slgo _ w => seqOpc w == 0x26
  | .slwait _ w => seqOpc w == 0x27
  | .sgwait _ w => seqOpc w == 0x28
  | .sgset _ w => seqOpc w == 0x29
  | .cnsig _ w => seqOpc w == 0x2A
  | .cnrcv _ w => seqOpc w == 0x2B
  | .cnstat _ w => seqOpc w == 0x2C
  | .seqTime _ w => seqOpc w == 0x30
  | .turn _ w => seqOpc w == 0x31
  | .cyc _ w => seqOpc w == 0x32
  | .csrr _ w => seqOpc w == 0x33
  | .csrw _ w => seqOpc w == 0x34
  | .seqTrap _ w => seqOpc w == 0x35
  | .halt _ w => seqOpc w == 0x36
  | .seqFence _ w => seqOpc w == 0x37
  | .seqNop _ w => seqOpc w == 0x3E
  | .pmUncorrectable _ => true
  | .seqLockstepMismatch _ => true
  | .start _ => true
  | .programCopyDone _ => true
  | .stop _ => true
  | .sqSigWrite _ _ _ _ => true
  | .signalWordReceive _ _ _ => true
  | .sluiceDescFetch _ _ => true
  | .sluiceCopy _ _ => true
  | .gather _ _ => true
  | .scatter _ _ => true
  | .sluiceInline _ _ => true
  | .wreduce _ _ => true
  | .sluiceWait _ _ => true
  | .sluiceWaitSatisfied _ _ => true
  | .sluiceSignal _ _ => true
  | .jump _ _ => true
  | .sluiceFlitIssue _ _ => true
  | .sluiceLineArrive _ _ _ _ => true
  | .abort _ _ => true
  | .channelIdle _ _ => true
  | .startArm => true
  | .stopArm => true
  | .epochArm => true
  | .epoch => true
  | .timebaseMismatch => true
  | .pingGo _ => true
  | .pingM1 _ _ => true
  | .pingM2 _ _ => true
  | .pingM3 _ _ => true
  | .pingM4 _ _ => true
  | .pingTimeout _ => true
  | .slot _ n => decide (n < 360)
  | .idle _ n => decide (n < 360)
  | .dataParcel _ p => p.item.shaped && decide (p.slot < 360)
  | .signalParcel _ p => decide (p.slot < 360)
  | .stretch _ _ => true
  | .ping _ _ => true
  | .digest _ _ => true
  | .haltParcel _ _ _ _ => true
  | .container _ c => c.item.shaped && decide (c.slot < 720)
  | .erroredParcel _ x => decide (x.slot < 720) && x.item.bytes.length == 272
  | .sParcelDeliver _ => true
  | .localFlitArrive _ f _ => f.shaped
  | .cReplayTimeout _ => true
  | .linkDown _ => true
  | .linkUp _ => true
  | .cnEnable _ _ => true
  | .retrain _ => true
  | .cnMapdataWrite _ _ => true
  | .remoteRequest m => m.shaped
  | .rdShared _ m => m.shaped && m.opc == 0x01
  | .rdOwn _ m => m.shaped && m.opc == 0x02
  | .claim _ m => m.shaped && m.opc == 0x03
  | .rdPeek _ m => m.shaped && m.opc == 0x04
  | .wrFull _ m => m.shaped && m.opc == 0x05
  | .wrPart _ m => m.shaped && m.opc == 0x06
  | .atomic _ m => m.shaped && m.opc == 0x07
  | .evictClean _ m => m.shaped && m.opc == 0x08
  | .evictDirty _ m => m.shaped && m.opc == 0x09
  | .sigAdd m => m.shaped && m.opc == 0x0A
  | .snpInv m => m.shaped && m.opc == 0x20
  | .snpFwdS m => m.shaped && m.opc == 0x21
  | .snpFwdO m => m.shaped && m.opc == 0x22
  | .snpPeek m => m.shaped && m.opc == 0x23
  | .data m => m.shaped && m.opc == 0x40
  | .gnt m => m.shaped && m.opc == 0x41
  | .cmp m => m.shaped && m.opc == 0x42
  | .rspI _ m => m.shaped && m.opc == 0x43
  | .rspS _ m => m.shaped && m.opc == 0x44
  | .rspKeep _ m => m.shaped && m.opc == 0x45
  | .rspFwd _ m => m.shaped && m.opc == 0x46
  | .rspData _ m => m.shaped && m.opc == 0x47
  | .evictAck m => m.shaped && m.opc == 0x48
  | .ack _ m => m.shaped && m.opc == 0x49
  | .refuse m => m.shaped && m.opc == 0x4A
  | .word m => m.shaped && m.opc == 0x60
  | .cohProtocolError _ m => m.shaped
  | .retryQueueServe _ => true
  | .refillHalf _ _ _ _ => true
  | .agentDeath _ => true
  | .snoopTimeout _ => true
  | .reclaimDone => true
  | .reclaimStart _ => true
  | .setDevice => true
  | .lock => true
  | .unlock => true
  | .biasCmdDone => true
  | .biasFlipDone _ => true
  | .nextLost _ _ _ => true
  | .dirProbeRead _ _ _ => true
  | .scratchWaysWrite _ => true
  | .scratchConvertDone _ => true
  | .patrolScrub _ _ => true
  | .load _ => true
  | .slabOwnWrite _ _ _ => true
  | .slabFillDone _ => true
  | .t2Enable _ _ => true
  | .t2Loss _ => true
  | .t2Poison _ _ => true
  | .ctxCreate => true
  | .ctxDestroy => true
  | .rebase => true
  | .tableCheckDone => true
  | .unmap => true
  | .unmapDrainDone => true
  | .unmapTimeout => true
  | .pin => true
  | .unpin => true
  | .own => true
  | .ownRegionDone => true
  | .trCmdBusy _ => true
  | .faultRetry _ => true
  | .faultAbort _ => true
  | .refusedFaultPost => true
  | .fqEnable _ _ => true
  | .hotListPost _ _ => true
  | .atsTranslationRequest _ _ _ _ => true
  | .pageRequest _ _ _ _ => true
  | .invalidateCompletion _ => true
  | .hostMemRead _ _ _ => true
  | .hostMemWrite _ _ _ bytes => (bytes.length == 64)
  | .culvertMove => true
  | .culvertDisable => true
  | .culvertEnable _ _ => true
  | .culvertMoveDone => true
  | .h2dSnoop _ _ _ => true
  | .cacheWritebackInvalidate _ => true
  | .hostGo _ _ => true
  | .peerReadTimeout _ _ => true
  | .configWrite _ _ => true
  | .msixUnmask _ _ => true
  | .msixRequest _ _ => true
  | .d3hotEntry => true
  | .d0Return => true
  | .req => true
  | .pf0Flr => true
  | .vfFlr _ => true
  | .flrComplete _ => true
  | .hotResetDetach _ => true
  | .hostDetach _ _ => true
  | .linkRetrain _ => true
  | .viralRx _ => true
  | .ideFailure _ => true
  | .pgLinkDown _ => true
  | .doorbell _ _ => true
  | .resume _ => true
  | .hgReset _ => true
  | .slotFetchReturn _ r => r.shaped
  | .refetch _ => true
  | .commandStart _ => true
  | .hgNop _ _ => true
  | .hgCopy _ _ _ _ => true
  | .hgInline _ _ _ => true
  | .hgSignal _ _ => true
  | .hgWait _ _ => true
  | .kernel _ _ => true
  | .completionRecord _ _ => true
  | .hgEnable _ => true
  | .hgDisable _ => true
  | .deliver _ => true
  | .collect _ => true
  | .holdingEntryDelivered => true
  | .hrHeadWrite _ => true
  | .toEnable _ => true
  | .turnoutWrite _ _ => true
  | .turnoutRead _ _ => true
  | .esEnable _ _ => true
  | .engineTrained _ _ => true
  | .esAdmit _ _ _ => true
  | .esReset _ => true
  | .hold _ _ => true
  | .irq _ _ => true
  | .echo _ _ _ => true
  | .heldAck _ => true
  | .echoTimeout _ => true
  | .engineSchedRequest _ r => decide (r.payload.length ≤ 256)
  | .engineD2hRequest _ _ r => decide (r.data.length ≤ 64)
  | .engineLoss _ => true
  | .engineViralRx _ => true
  | .pasidUnbind _ _ => true
  | .pasidBind _ _ => true
  | .mmioRead _ => true
  | .mmioWrite _ => true
  | .mmioCompletion _ _ _ => true
  | .mmioTimeout _ => true
  | .esGrantWrite _ _ _ => true
  | .imageAuthenticated _ => true
  | .imageTimeout _ => true
  | .leveeClose => true
  | .keysLoaded => true
  | .scrubDone => true
  | .runRelease _ => true
  | .runReset _ => true
  | .riderAccessFault _ _ _ => true
  | .challenge => true
  | .grantInstall _ => true
  | .revoke => true
  | .grantExpiry => true
  | .sourceEvent _ _ _ => true
  | .safeDrainDone => true
  | .wmStatusClear _ _ => true
  | .severityWrite _ _ => true
  | .forceWrite _ _ => true
  | .wmRaise _ _ => true
  | .wmSelfcheckFail => true
  | .aliveToggle => true
  | .digestMissing => true
  | .twinItem _ => true
  | .powerOn _ _ _ => true
  | .fundamental => true
  | .hot => true
  | .watchdog => true
  | .parSeq _ => true
  | .parDir _ => true
  | .parLevee => true
  | .parRstc => true
  | .warm => true
  | .twinRstIn => true
  | .clkloss _ => true
  | .blockResetAssert => true
  | .blockRelease => true
  | .unitsRelease => true
  | .sliceInitDone => true
  | .mirrorReload => true
  | .tileReset _ => true
  | .linkReset _ => true
  | .slotReset _ => true
  | .t2Reset _ => true
  | .obsReset => true
  | .riderReset _ => true
  | .unitRelease _ => true
  | .wdEnable _ => true
  | .kick _ => true
  | .retire _ => true
  | .otpPulseEnd _ => true
  | .activityEstimate _ => true
  | .powerReport _ _ _ _ => true
  | .powerBoost => true
  | .powerPeak => true
  | .thermal => true
  | .clear => true
  | .sampleLatch => true
  | .smpEnable _ => true
  | .traceRecord _ => true
  | .fire => true
  | .trigger _ _ => true
  | .rearm => true
  | .trEnable _ => true
  | .trHeadWrite _ => true
  | .go _ => true
  | .dumpFlitIssue _ _ => true
  | .dumpDone _ => true
  | .breakpointHit _ => true
  | .obsHaltGo => true
  | .haltWord _ _ => true
  | .resumeWord _ _ => true
  | .obsResume _ => true
  | .snapGo => true
  | .snapCapture => true
  | .snapDone => true
  | .raceMode _ => true
  | .tracePacketSend _ => true
  | .framePacket p => decide (p.offset < 2 ^ 32)
  | .headraceDeliveryStart _ => true
  | .headraceFlit _ => true
  | .hrMapdataWrite _ => true
  | .pgLinkUp _ _ _ _ _ => true
  | .ideKmRequest _ _ => true
  | .riderFence _ _ => true
  | .clockGoodRise _ => true
  | .clockGoodFallInReset _ => true
  | .ownerCacheFill _ _ => true
  | .tierReadReturn _ m _ => m.shaped
  | .hbmZeroFillDone _ => true
  | .enginePowerExceeded _ => true
  | .raceLanesAligned _ => true

end Sys2Proof
end

