-- ==== Sys2Proof/Tests/Slice0.lean ====
section
/-! SUPPORT. Tests of the model: for each statement a theorem that its hypotheses are met, ill-formed commands, and a few
small steps. -/

namespace Sys2Proof.Tests
open Sys2Proof Sys2Proof.Machine Sys2Proof.Claims

/-! ### States -/

/-- A state with fields of registers set. -/
def withFlds (s : State) (fs : List (Reg × Fld × Nat)) : State := fs.foldl (fun s x => s.setFld x.1 x.2.1 x.2.2) s

/-- A bus that PF0 may use. -/
def sBus : State := withFlds { State.reset with pf0 := { Func.reset with memSpace := true } }
  [(.SLAB_STATUS 0, ⟨2, 0⟩, 7), (.SLAB_ERRADDR 0, ⟨15, 0⟩, 99)]

/-- A stretched turn that has begun. -/
def sTurn : State := withFlds { State.reset with rot := { Rot.reset with m := Vector.ofFn (fun i => i.val + 3) } }
  [(.ROT_STATUS, F.ROT_STATUS_STRETCH, 2), (.TB_CYCLE, F.TB_CYCLE_CYCLE, 1000), (.TB_TURN, ⟨63, 0⟩, 5),
   (.PW_STRETCH, F.PW_STRETCH_FLOOR, 7)]

/-- An armed epoch. -/
def sEpoch : State := withFlds State.reset [(.ROT_STATUS, F.ROT_STATUS_EPOCH_PEND, 1), (.TB_EPOCH, ⟨63, 0⟩, 5000000),
  (.TB_OFFSET, ⟨63, 0⟩, 100)]

/-- A rotation that may be armed. -/
def sArm : State := withFlds State.reset [(.ROT_STATUS, F.ROT_STATUS_EPOCH_VALID, 1), (.ROT_START, ⟨63, 0⟩, 2),
  (.TB_EPOCH, ⟨63, 0⟩, 5000000)]

/-- A rotation that runs. -/
def sRun : State := withFlds State.reset [(.ROT_STATUS, F.ROT_STATUS_STATE, 2), (.ROT_STOP, ⟨63, 0⟩, 9),
  (.ROT_STATUS, F.ROT_STATUS_EPOCH_VALID, 1), (.TB_EPOCH, ⟨63, 0⟩, 100), (.TB_RAW, ⟨63, 0⟩, 70000)]

/-- A link that is up. -/
def sLink (p : PingState) : State :=
  (withFlds sRun [(.CN_STATUS 0, F.CN_STATUS_LSTATE, 2), (.TB_TURN, ⟨63, 0⟩, 20)]).updLink 0 (fun x => { x with ping := p })

/-- A ping that waits here as initiator, or as responder. -/
def sPing (initiator : Bool) : State :=
  sLink { PingState.reset with busy := true, initiator := initiator, a1 := 69000, b1 := 69100, b2 := 69200, valid := true }

/-- The rails are down. -/
def sOff : State := { State.reset with rst := { Rst.reset with powerOn := false } }

/-- A watchdog that is due, a twin, and a host port whose hot reset counts. -/
def sSrc : State := withFlds State.reset [(.RST_WD, F.RST_WD_ENABLE, 1), (.RST_WD, F.RST_WD_TIMEOUT, 2),
  (.TB_RAW, ⟨63, 0⟩, 40000), (.TB_CHIP, F.TB_CHIP_TWIN, 1), (.HF_CTRL, F.HF_CTRL_HR0, 1)]

/-- A block reset in a phase. -/
def sRst (p : RstPhase) (refDown rootDown : Bool) : State :=
  { sSrc with rst := { Rst.reset with phase := p, cold := false, keep := true, refDown := refDown, rootDown := rootDown, lifecycle := 2 } }

/-- A cold reset that is due. -/
def sCold : State := { sSrc with rst := { Rst.reset with phase := .detected } }

/-- A fuse write that runs. -/
def sFuse : State := withFlds { State.reset with rst := { Rst.reset with fuse := some (3, 0) } }
  [(.RST_RETIRE, F.RST_RETIRE_BUSY, 1), (.RST_STATUS, F.RST_STATUS_OTP_BUSY, 1)]

/-- Tile 0 is in reset. -/
def sUnit : State := (withFlds { State.reset with rst := { Rst.reset with units := [.tile 0] } }
  [(.RST_TILE, ⟨0, 0⟩, 1), (.LV_CTRL, F.LV_CTRL_CLOSED, 1), (.RST_RETIRED, ⟨1, 0⟩, 3)]).updTile 0 (fun x =>
    { x with inReset := true })

/-- A sequencer that begins an instruction; s1 to s31 hold values of both signs. -/
def sSeq (w : Word32) : State :=
  (withFlds { State.reset with mem := [(slabAddr 0 0x40, 0xE1), (slabAddr 0 0x47, 0x92), (slabAddr 0 0x5E, 4)] }
    [(.SQ_STATUS 0, F.SQ_STATUS_STATE, 1), (.TB_TURN, ⟨63, 0⟩, 6), (.TB_CYCLE, F.TB_CYCLE_CYCLE, 100),
     (.SQ_SIG 0 3, ⟨63, 0⟩, 50), (.CN_STATUS 0, F.CN_STATUS_LSTATE, 2), (.SL_STATUS 0 1, F.SL_STATUS_STATE, 2),
     (.SL_STATUS 0 1, F.SL_STATUS_STATUS, 3), (.LK_PING 0, F.LK_PING_LAT_VALID, 1), (.LK_LAT 0, F.LK_LAT_OUT, 70)]).updTile 0
    (fun x => { x with
      pmem := [(4, w)], pc := 16, progSize := 1, endStatus := 2, rx := [⟨0, 0x77⟩, ⟨1, 5⟩]
      s := Vector.ofFn (fun i => if i.val = 1 then 0x40 else if i.val = 2 then BitVec.allOnes 64 else if i.val = 3 then 7
        else BitVec.ofNat 64 (i.val * 0x123456789ABCDEF)) })
  |>.updLink 0 (fun x => { x with sigCredit := Vector.replicate 48 true })

/-- Sequencer 0 waits, or its tile holds a kernel. -/
def sTile (f : Tile → Tile) : State :=
  (withFlds (sSeq 0xF8000000#32) [(.SQ_STATUS 0, F.SQ_STATUS_WAITING, 1), (.SQ_CTRL 0, F.SQ_CTRL_MARK_GAP, 3),
    (.SQ_STATUS 0, F.SQ_STATUS_KERNEL, 1)]).updTile 0 f

/-- Sequencer 0 stopped, with a program of one block. -/
def sStopped : State := withFlds (sSeq 0xF8000000#32) [(.SQ_STATUS 0, F.SQ_STATUS_STATE, 0), (.SQ_PROG 0, F.SQ_PROG_SIZE, 1),
  (.SQ_PROG 0, F.SQ_PROG_BASE, 0)]

/-- A group with 32 registers whose words differ, at the slab address 0x100. -/
def gVec : Group :=
  { (default : Group) with
    block := 9, num := 1, blockSlot := 2, pc := 0x100, mask := 0xFFFF0000FFFF1234#64
    v := (List.range 32).map (fun n => Vector.ofFn (fun i => BitVec.ofNat 32 (if n = 7 ∧ i.val % 3 = 0 then i.val / 9
      else (i.val + 1) * (n + 3) * 2654435761)))
    u := Vector.ofFn (fun i => BitVec.ofNat 64 ((i.val + 5) * 0x9E3779B97F4A7C15))
    p := Vector.ofFn (fun i => BitVec.ofNat 64 ((i.val + 1) * 0xD1B54A32D192ED03))
    fflags := 4 }

/-- The kernel of that group. -/
def kVec : Kernel := { (default : Kernel) with started := true, nblocks := 9, vregs := 4, excBase := 16, g := 2 }

/-- Core 0 of tile 0 issues a word for its group 0. -/
def sVec (w : Word64) (gr : Group) : State :=
  (State.reset.updTile 0 (fun x => { x with kernel := some kVec })).updCore 0 0 (fun c =>
    { c.setGroup 0 (some gr) with
      active := c.active.set 0 (some 0)
      l1i := [⟨slabAddr 0 0x100, leBytes 8 w.toNat, false⟩] })

/-- The same core with a second group of the block in slot 1, ready or at the barrier. -/
def sVec2 (w : Word64) (gr : Group) (x : Group) : State :=
  (sVec w gr).updCore 0 0 (fun c => c.setGroup 1 (some x))

/-- A group whose thread i has the address 0x1000 + 16 (63 - i) in v6 and one of five addresses in v9. -/
def gMem : Group :=
  let v := gVec.v.set 6 (Vector.ofFn (fun i => BitVec.ofNat 32 (0x1000 + 16 * (63 - i.val))))
  { gVec with v := v.set 9 (Vector.ofFn (fun i => BitVec.ofNat 32 (0x1000 + 16 * (i.val % 5)))) }

/-- A kernel whose blocks have 16 KB of local memory. -/
def kMem : Kernel := { kVec with localUnits := 4, poolBase := Vector.replicate 4 8 }

/-- The core of that kernel issues a word. -/
def sMem (w : Word64) (gr : Group) : State :=
  { (sVec w gr).updTile 0 (fun x => { x with kernel := some kMem }) with
    mem := [(slabAddr 0 0x1000, 0x85), (slabAddr 0 0x1003, 0x92), (slabAddr 0 0x1017, 0xFF), (slabAddr 0 0x1020, 3)] }

/-- A load or an atomic of 8 bytes in flight, with a lane of thread 7. -/
def lMem (x : Lane) : PendLoad := { (default : PendLoad) with id := 3, vd := 4, sz := 5, lanes := [x], live := [(4, 0x80), (5, 0x80)] }

/-- A group with a load in flight. -/
def sLoad (x : Lane) (wait : Option GWait) : State := sMem 0 { gMem with loads := [lMem x], wait := wait }

/-- A group with a write in flight. -/
def sWrite : State := sMem 0 { gMem with writes := [{ (default : PendWrite) with id := 3 }] }

/-- A merge buffer with a line of tier 1. -/
def sMerge : State := (sMem 0 gMem).updCore 0 0 (fun c => { c with
  merge := [⟨⟨.localMem, 0x1C0, .stream⟩, 0, [(0x1C1, 7), (0x1C2, 8)], [0], default, none⟩] })

/-- A descriptor of 2 rows and 3 columns of a format, at slab offset base, as bytes. -/
def descBytes (base stride fmt rows cols : Nat) : List Byte :=
  leBytes 32 (base + stride * 2 ^ 32 + fmt * 2 ^ 64 + (rows - 1) * 2 ^ 80 + (cols - 1) * 2 ^ 88)

/-- Bytes of memory from an address, without the zeros. -/
def cellsAt (a : Nat) (bs : List Byte) : List (Nat × Byte) :=
  (bs.zipIdx.map (fun x => (a + x.2, x.1))).filter (fun x => x.2 != 0)

/-- Wide partials with values. -/
def wideBits (anchor x : Nat) : BitVec 256 := Wide.toBits ⟨BitVec.ofNat 192 x, BitVec.ofNat 16 anchor, 0⟩

/-- An issued instruction with descriptors at 0x400, 0x420 and 0x440. -/
def mxIssued (op : MxOp) : MxInstr := { (default : MxInstr) with op := op, tok := 3, a := 0x400, b := 0x420, c := 0x440 }

/-- A tile whose array holds instructions; operands at 0x1000 and 0x2000. -/
def sMx (f : Tensor → Tensor) (a b c : List Byte) : State :=
  let s := (sVec 0 gVec).updTile 0 (fun x => { x with ta := f x.ta })
  { s with mem := cellsAt (slabAddr 0 0x400) (a ++ b ++ c) ++
      cellsAt (slabAddr 0 0x1000) (leBytes 32 (wideBits 7 5).toNat ++ leBytes 32 (wideBits 7 9).toNat) ++
      cellsAt (slabAddr 0 0x2000) [1, 2, 3, 4, 5, 0xFF, 0x38] }

/-- An accepted instruction on 1 row and 2 columns. -/
def mxReady (op : MxOp) (fmt : Nat) (add init : Bool) : MxInstr :=
  { mxIssued op with
    da := { DataDesc.none with base := 0x1000, stride := 256, fmt := fmt, rows := 1, cols := 2 }
    db := { DataDesc.none with base := 0x2000, stride := 256, fmt := 5, rows := 1, cols := 2 }
    dc := { region := 1, init := init, add := add, anchor := 7, k := 32 } }

/-- Accumulator entries of region 1. -/
def accs (anchor : Nat) : List (Nat × Wide) := [(8192, Wide.ofBits (wideBits anchor 3)), (8193, Wide.ofBits (wideBits anchor 100))]

/-- A group whose tokens are DONE, all of whose threads are active. -/
def gTok : Group := { gVec with mask := BitVec.allOnes 64, tok := Vector.replicate 16 ⟨true, 0x107⟩ }

/-- Tile 0 in scheduled mode. -/
def sSched : State := withFlds (sVec 0 gVec) [(.SQ_STATUS 0, F.SQ_STATUS_MODE, 1), (.SQ_SIG 0 3, ⟨63, 0⟩, 50)]

/-- A scheduled write in flight of core 1 of tile 2, toward slab 0. -/
def sSchedWrite : State := sSched.updCore 2 1 (fun c => { c with
  orphans := [{ (default : PendWrite) with id := 5, sent := true, tgt := ⟨.localMem, slabAddr 0 0x40, .normal⟩
                                           bytes := [(slabAddr 0 0x40, 1), (slabAddr 0 0x41, 2), (slabAddr 0 0x42, 3)] }] })

/-- A running rotation with tier 1's first granule locked and a SCHEDULED window 2 of stack 0's first pseudo-channel. -/
def sLocked : State := { withFlds State.reset [(.ROT_STATUS, F.ROT_STATUS_STATE, 2), (.LOCK 0, F.LOCK_VALID, 1),
  (.LOCK 0, F.LOCK_COUNT, 0x100), (.TB_CYCLE, F.TB_CYCLE_CYCLE, 1800)] with patterns := [(0, 0x10)], mem := [(0x55, 7)] }

/-- A coherent read of a line of tier 1 waits at its controller. -/
def sTierOp : State := { sLocked with home := { sLocked.home with tierOps := [⟨0x700040, none, false, false⟩] } }

/-- A stack that is being zeroed. -/
def sZero : State := { sLocked with zeroing := [0, 3] }

/-- A conversion of scratch ways from 2 to 5. -/
def sScratch (done : List SliceId) : State :=
  let s := withFlds State.reset [(.RSV_SCRATCH, F.RSV_SCRATCH_BUSY, 1), (.RSV_SCRATCH, F.RSV_SCRATCH_WAYS, 5)]
  { s with home := { s.home with scratchFrom := 2, scratchDone := done }
           mem := [(0x40202000000, 9), (0x40202000101, 9), (0x40205000000, 9)] }

/-- A filling slab unit. -/
def sFill : State := State.reset.updTile 0 (fun x => { x with fill := some (1, 0x105) })

/-- A tier-2 group that is ready, with two reservoir lines, one dirty. -/
def sT2 : State :=
  let s := withFlds State.reset [(.T2_STATUS 0, F.T2_STATUS_STATE, 1), (.T2_DROP 0, F.T2_DROP_COUNT, 6)]
  { s with home := { s.home with resv := [⟨0x10000000040, List.replicate 64 0, true, 0, true, false⟩, ⟨0x10000000080, List.replicate 64 0, false, 0, true, false⟩,
                                          ⟨0x40, List.replicate 64 0, true, 0, true, false⟩] } }

/-- A translation unit with contexts 1 and 5, whose tables lie at 0x200000 with two ranges; field 1 has tile 0 and key slot 2. -/
def sTr (arg0 arg1 arg2 : Nat) : State :=
  let entry (v p n cls perm : Nat) : List Byte := leBytes 8 v ++ leBytes 8 p ++ leBytes 4 n ++ [BitVec.ofNat 8 cls, BitVec.ofNat 8 perm] ++ leBytes 10 0
  let s := withFlds State.reset [(.CTX_ENTRY1 1, F.CTX_ENTRY1_VALID, 1), (.CTX_ENTRY1 5, F.CTX_ENTRY1_VALID, 1),
    (.CTX_ENTRY0 5, F.CTX_ENTRY0_RT_BASE, 0x200), (.CTX_ENTRY1 5, F.CTX_ENTRY1_RT_COUNT, 2), (.CTX_ENTRY1 5, F.CTX_ENTRY1_FIELD, 1),
    (.CTX_ENTRY0 1, F.CTX_ENTRY0_RT_BASE, 0x200), (.CTX_ENTRY1 1, F.CTX_ENTRY1_RT_COUNT, 2),
    (.LV_TILE 0, ⟨3, 0⟩, 1), (.LV_KEY 2, F.LV_KEY_FIELD, 1), (.TR_ARG0, ⟨63, 0⟩, arg0), (.TR_ARG1, ⟨63, 0⟩, arg1), (.TR_ARG2, ⟨63, 0⟩, arg2)]
  { s with mem := cellsAt 0x200000 (entry 0x10000 0x700000 2 0 0x27 ++ entry 0x20000 0x800000 1 0 0x27) }

/-- The unit runs a command. -/
def sTrRun (x : TrRun) : State :=
  let s := sTr 5 0x10000 0x20000
  (withFlds { s with xl := { s.xl with run := some x } } [(.TR_STATUS, F.TR_STATUS_BUSY, 1)]).updTile 0 (fun y =>
    { y with rcV := [⟨5, 0x10000, 0x700000, 2, .localMem, 7, false, 0, false⟩, ⟨5, 0x20000, 0x800000, 1, .localMem, 7, false, 0, true⟩] })

/-- A slot that owes an invalidation. -/
def sOwes (s : State) : State := s.updEslot 3 (fun x => { x with owes := [(5, false)] })

/-- A cached range of context 5 in tile 0. -/
def sCached (s : State) (n : Nat) : State := s.updTile 0 (fun y => { y with
  rcV := (List.range n).map (fun i => ⟨5, 0x10000 + i * 0x10000, 0x700000, 2, .localMem, 7, false, 0, true⟩) })

/-- An OWN of a region of tier 1 runs. -/
def sOwn (shared : Bool) : State :=
  { sTrRun (.own 5 shared 0x600000 1) with mem := [(4, 3), (0x600010, 9), (0x7FFFFF, 9)] }

/-- A fault queue that is enabled, with a host port that takes writes. -/
def fqOn (s : State) : State :=
  { withFlds s [(.FQ_CTRL, F.FQ_CTRL_ENABLE, 1), (.FQ_HEAD, F.FQ_HEAD_INDEX, 7), (.FQ_TAIL, F.FQ_TAIL_INDEX, 3),
      (.FQ_BASE, ⟨63, 0⟩, 0x5000), (.PG_STATUS 0, F.PG_STATUS_LSTATE, 2)] with
    pf0 := { s.pf0 with busMaster := true, cacheEnable := true, d3 := false } }

/-- Group 0 of context 5 waits for a walk or a fault. -/
def sWaits (wait : GWait) : State :=
  let s := sTr 0 0 0
  let x := sVec 0 { gVec with wait := some wait }
  { s with tiles := x.tiles.set 0 { x.tile 0 with kernel := some { kVec with ctx := 5 } } }

/-- A pending fault with one waiter. -/
def sFault (who : Walker) (wait : GWait) : State :=
  let s := sWaits wait
  { s with xl := { s.xl with faults := [⟨7, 5, 0x3, accR, [(who, 0x30008, accR)]⟩, ⟨0, 5, 0x4, accR, []⟩] } }

/-- A remembered refusal. -/
def sRefused : State :=
  let s := sWaits (.refusedFault 0x30008 accR 0)
  { s with xl := { s.xl with refused := [⟨.group ⟨0, 0, 0⟩, 5, 0x30008, accR, 0⟩] } }

/-- An admitted engine with context 5 bound. -/
def sEngine (s : State) (state : Nat) : State :=
  (withFlds s [(.ES_STATUS 1, F.ES_STATUS_STATE, state)]).setBound 1 5 true

/-- A page that has reached the threshold. -/
def sHot : State := { withFlds (fqOn State.reset) [(.AC_CTRL, F.AC_CTRL_THRESH, 4), (.HL_CTRL, F.HL_CTRL_ENABLE, 1)] with
  accCounts := [⟨5, 7, 4⟩, ⟨5, 6, 3⟩] }

/-- Slot 1 in a state, with context 5 bound, a descriptor of a caching engine that joins the rotation, and grant 0. -/
def sSlot (state : Nat) (f : ESlot → ESlot) : State :=
  (withFlds (sEngine (sTr 0 0 0) state) [(.ES_FIELD 1, F.ES_FIELD_FIELD, 1), (.ES_DESC 1 0, ⟨31, 0⟩, 0x041301),
    (.ES_DESC 1 1, ⟨31, 0⟩, 20 * 2 ^ 16), (.ES_DESC 1 2, ⟨31, 0⟩, 3), (.ES_LAT 1, F.ES_LAT_RTT, 5), (.ES_BIND 1, F.ES_BIND_VEC_BASE, 7),
    (.ES_GRANT 1 0, F.ES_GRANT_KIND_LO, 1), (.TB_TURN, ⟨63, 0⟩, 20), (.ES_CTRL 1, F.ES_CTRL_HOLD, 1)]).updEslot 1 f

/-- Slot 1 of a running rotation, with tier 1 locked and tile 0 in scheduled mode. -/
def sSlotSched (state : Nat) : State :=
  withFlds (sSlot state (fun x => { x with descOk := true })) [(.ES_STATUS 1, F.ES_STATUS_SCHED, 1), (.ES_CTRL 1, F.ES_CTRL_SCHED_REQ, 1),
    (.ROT_STATUS, F.ROT_STATUS_STATE, 2), (.SQ_STATUS 0, F.SQ_STATUS_MODE, 1), (.SLAB_OWN 0 0, F.SLAB_OWN_CTX, 5)]

/-- A register access of slot 1 in progress. -/
def sMmio (state bar busy write : Nat) : State :=
  withFlds (sSlot state id) [(.ES_MMIO_ADDR 1, F.ES_MMIO_ADDR_BAR, bar), (.ES_MMIO_ADDR 1, F.ES_MMIO_ADDR_WRITE, write),
    (.ES_MMIO_STAT 1, F.ES_MMIO_STAT_BUSY, busy), (.ES_MMIO_DATA 1, F.ES_MMIO_DATA_DATA, 77), (.ES_MMIO_ADDR 1, F.ES_MMIO_ADDR_OFFSET, 9)]

/-- Channel 0 of tile 0 in a state, with a descriptor. -/
def sChan (state mode : Nat) (f : Chan → Chan) : State :=
  let s := (withFlds State.reset [(.SL_STATUS 0 0, F.SL_STATUS_STATE, state), (.SL_STATUS 0 0, F.SL_STATUS_MODE, mode),
    (.SQ_SIG 0 3, ⟨63, 0⟩, 50), (.TB_TURN, ⟨63, 0⟩, 6), (.TB_CYCLE, F.TB_CYCLE_CYCLE, 100), (.SL_COUNT 0 0, ⟨31, 0⟩, 2 ^ 32 - 1)]).updChan 0 0 f
  { s with mem := cellsAt (slabAddr 0 0x1000) (leBytes 32 (wideBits 7 5).toNat ++ leBytes 32 (wideBits 7 9).toNat ++ leBytes 32 (wideBits 8 9).toNat) }

/-- A descriptor at offset 0x80. -/
def slDesc (op : Nat) (ends : Bool) (a : Vector Word64 7) : SlDesc :=
  { (default : SlDesc) with op := op, ends := ends, link := 255, off := 0x80, a := a }

/-- A place in slab 0. -/
def own (a : Nat) : Target := ⟨.localMem, slabAddr 0 a, .normal⟩

/-- A piece of 32 bytes. -/
def slMove (id : Nat) (role : MoveRole) (src dst : Option Target) : SlMove :=
  { (default : SlMove) with id := id, desc := 0x80, role := role, src := src, dst := dst, bytes := 32, data := if src = none then List.replicate 32 7 else [] }

/-- Link 0 in a state, with map page 0 and parcels. -/
def sCanal (lstate rot : Nat) (f : Link → Link) : State :=
  let s := withFlds State.reset [(.CN_STATUS 0, F.CN_STATUS_LSTATE, lstate), (.CN_STATUS 35, F.CN_STATUS_LSTATE, lstate), (.CN_CTRL 0, F.CN_CTRL_ENABLE, 1), (.ROT_STATUS, F.ROT_STATUS_STATE, rot),
    (.ROT_STATUS, F.ROT_STATUS_STRETCH, 3), (.LK_PING 0, F.LK_PING_LAT_VALID, 1), (.LK_LAT 0, F.LK_LAT_IN, 40),
    (.TB_CHIP, F.TB_CHIP_CHIP_ID, 1), (.CN_REACH 0 0, ⟨31, 0⟩, 0x11), (.CN_STREAM 0 1, ⟨31, 0⟩, 0xFFFF23FF)]
  (s.updLink 0 f).updLink 35 f

/-- Link 35 of a twin. -/
def sTwinLink (f : Link → Link) : State :=
  { withFlds (sCanal 2 0 f) [(.TB_CHIP, F.TB_CHIP_TWIN, 1), (.CN_STATUS 35, F.CN_STATUS_LSTATE, 2), (.ROT_STATUS, F.ROT_STATUS_EPOCH_VALID, 1)] with
    twin := { Twin.reset with own := some ⟨7, 3, 2, 1, false, false⟩ } }

/-- Parcels of stream 5. -/
def dparcel (chip : BitVec 9) (a : Nat) (part : Bool) : DataParcel :=
  { stream := 5, destChip := chip, part := part, win := 2, ctx := 0, plenM1 := 9, laddr := BitVec.ofNat 35 (a / 256), data := (List.range 256).map (BitVec.ofNat 8) }

def sparcel (chip : BitVec 9) (tile : BitVec 6) : SignalParcel := { stream := 5, destChip := chip, ctx := 0, tile := tile, sig := 3, add := 9 }

/-- Source 190 with a status, a level and a severity. -/
def sWmSrc (n enable status level severity : Nat) : State := withFlds State.reset [(.WM_SRC n, F.WM_SRC_ENABLE, enable),
  (.WM_SRC n, F.WM_SRC_STATUS, status), (.WM_SRC n, F.WM_SRC_LEVEL, level), (.WM_SRC n, F.WM_SRC_SEVERITY, severity)]

/-- An event of a source that is on its way, with a kernel of context 5 in tile 0, a busy channel and an admitted engine. -/
def sWmEvent (n enable status level severity : Nat) (ctxs : List Byte) (map : Option Nat) : State :=
  let s := withFlds (sWmSrc n enable status level severity) [(.SL_STATUS 1 0, F.SL_STATUS_STATE, 1), (.ES_STATUS 1, F.ES_STATUS_STATE, 3),
    (.SQ_STATUS 0, F.SQ_STATUS_STATE, 1), (.ROT_STATUS, F.ROT_STATUS_STATE, 2), (.WM_VECTOR, F.WM_VECTOR_VECTOR, 9)]
  let s := s.updTile 0 (fun x => { x with kernel := some { (default : Kernel) with ctx := 5 }, wait := some .delay })
  { s with wmEvents := [⟨n, ctxs, map⟩] }

/-- PF0 can send vector 9. -/
def sVector (s : State) : State := { s with pf0 := { s.pf0 with msixEnable := true, unmasked := [9] } }

/-- The safe state before its drain. -/
def sDrain (f : State → State) : State := f { withFlds (sCanal 2 0 (fun x => { x with sendQ := [⟨5, 0, none, 5, .inl (dparcel 4 0 false)⟩] })) [(.WM_STATE, F.WM_STATE_SAFE, 1), (.WM_DISCARD_HOST, ⟨31, 0⟩, 2 ^ 32 - 1)] with
  hostWrites := [⟨3, 0, 0, .block, 0x1000, [(0x1000, 7)], false, false⟩] }

/-- A request of an agent of this chip (chip 0) about an address. -/
def creq (op : Byte) (src : Byte) (a : Nat) : CohMsg where
  cls := 0
  hasData := false
  opc := op
  ctx := 0
  grant := 0
  typ := 0
  status := 0
  srcAgent := src
  srcChip := 0
  dstAgent := 96
  dstChip := 0
  txn := 7
  aop := 0
  sz := 1
  addr := BitVec.ofNat 64 a
  byteMask := 0xF0
  opA := 9
  opB := 3
  data := (List.range 64).map (BitVec.ofNat 8)

/-- A home that holds line 0x700040 in the reservoir, with a directory entry. -/
def sHome (e : Option (DirState × List Byte)) (resv : Bool) : State :=
  { State.reset with mem := [(0x700050, 9)], home := { Home.reset with
      resv := if resv then [⟨0x700040, (List.range 64).map (fun i => BitVec.ofNat 8 (i + 3)), false, 0, true, false⟩, ⟨0x40, List.replicate 64 1, true, 1, true, false⟩] else []
      dir := (e.map (fun x => (⟨0x700040, 3, x.1, x.2⟩ : DirEntry))).toList ++ [⟨0x40, 0, .shared, [4]⟩] } }

/-- Tile 0 with a request of tag 7 and lines in its atomic store; a line of rider core 0. -/
def sAsk (kind : ReqKind) (dirty evicting shared : Bool) : State :=
  let s := (State.reset.updTile 0 (fun x => { x with reqs := [⟨7, kind, 0x700040⟩], atoms := [⟨0x700040, 5, (List.range 64).map (BitVec.ofNat 8), dirty, evicting, shared⟩, ⟨0x40, 5, [], false, false, false⟩] })).updChan 0 0 (fun c =>
    { c with flight := [{ slMove 4 .copy (some ⟨.localMem, 0x700048, .normal⟩) none with bytes := 8 }] })
  let s := (s.updCore 0 1 (fun c => { c with orphans := [{ (default : PendWrite) with id := 9, sent := true }] })).updEslot 1 (fun x =>
    { x with reqs := [⟨7, 5, .rdCurr, 0x40, true, false⟩] })
  { s with home := { s.home with riderLines := [⟨0, 0x700040, [5, 6], dirty, !dirty, false⟩, ⟨1, 0x700040, [5, 6], dirty, !dirty, false⟩] } }

/-- An answer or a snoop for an agent. -/
def cans (op : Byte) (dst : Byte) (txn : BitVec 12) (grant : BitVec 2) : CohMsg :=
  { creq op 3 0x700040 with dstAgent := dst, txn := txn, grant := grant }

/-- A home with a transaction on line 0x700040. -/
def sTxn (e : Option (DirState × List Byte)) (resv : Bool) (q : CohMsg) (stage : TxnStage) (owed : List Byte) (r : List Refill) : State :=
  let s := sHome e resv
  { s with home := { s.home with
      txns := [⟨0x700040, some q, false, stage, owed, [], none, false, []⟩]
      refills := r
      tierOps := [⟨0x700040, none, true, false⟩] } }

/-- Requests that wait at a home. -/
def sWaiting (m : CohMsg) (resv : Bool) : State :=
  let s := sHome none resv
  { s with home := { s.home with retry := [m], ownerWait := [(3, m)] } }

/-- Directory entries, of agents 0, 6 and 50. -/
def sDir (owed : Option (List Byte)) : State :=
  { State.reset with home := { Home.reset with
      dir := [⟨0x700040, 3, .owned, [0]⟩, ⟨0x40, 0, .shared, [4, 0]⟩, ⟨0x80, 1, .shared, [0]⟩, ⟨0x1000, 2, .owned, [50, 6]⟩, ⟨0x40000, 6, .lost, []⟩, ⟨0x60000, 6, .lost, []⟩]
      txns := (owed.map (fun o => (⟨0x700040, none, false, .snoop, o, [], none, false, []⟩ : Txn))).toList } }

/-- A bias unit with an argument. -/
def sBias (entry start count : Nat) (busy : Nat) (b : Option BiasOp) : State :=
  let s := withFlds State.reset [(.BIAS_ARG, F.BIAS_ARG_ENTRY, entry), (.BIAS_ARG, F.BIAS_ARG_START, start), (.BIAS_ARG, F.BIAS_ARG_COUNT, count),
    (.BIAS_STATUS, F.BIAS_STATUS_BUSY, busy), (.LOCK 1, F.LOCK_VALID, 1), (.LOCK 1, F.LOCK_START, 50), (.LOCK 1, F.LOCK_COUNT, 10),
    (.CUL_CTRL, F.CUL_CTRL_ENABLE, 1), (.CUL_BASE, F.CUL_BASE_GIB, 2)]
  { s with home := { s.home with bias := b, hostBias := [3, 1, 2], flips := [⟨2, [], []⟩, ⟨7, [creq 1 72 0x80010000], []⟩], txns := [] } }

/-- The sample unit: enabled, in a mode, with groups and a tail. -/
def sSample (mode groups tail head : Nat) : State :=
  let s := withFlds State.reset [(.SMP_CTRL, F.SMP_CTRL_ENABLE, 1), (.SMP_CTRL, F.SMP_CTRL_MODE, mode), (.SMP_CTRL, F.SMP_CTRL_GROUPS, groups),
    (.SMP_CTRL, F.SMP_CTRL_PERIOD, 3), (.SMP_TAIL, F.SMP_TAIL_INDEX, tail), (.SMP_HEAD, F.SMP_HEAD_INDEX, head), (.SMP_BASE, F.SMP_BASE_REGION, 4),
    (.TB_RAW, ⟨63, 0⟩, 60), (.TB_TURN, ⟨63, 0⟩, 6), (.TB_CHIP, F.TB_CHIP_CHIP_ID, 5)]
  { s with obs := { s.obs with counts := [(0x1D1000, 7), (0x1D4008, 0x8000000000000005)], smpSeq := 9, smpSkipped := 3, smpStart := 3, boundary := [(0x1D4008, 4)], boundaryAt := 60 } }

/-- The trace ring, with a count, a tail, the records left after a trigger, and flags. -/
def sTrace (tail head count : Nat) (left : Option Nat) (fs : List (Reg × Fld × Nat)) : State :=
  let s := withFlds (withFlds State.reset [(.TR_CTRL, F.TR_CTRL_ENABLE, 1), (.TR_CTRL, F.TR_CTRL_LOG2SIZE, 21), (.TR_CTRL, F.TR_CTRL_SYNC, 15),
    (.TR_CTRL, F.TR_CTRL_KERNEL, 1), (.TR_MIN, F.TR_MIN_MIN, 2), (.TR_TAIL, ⟨25, 0⟩, tail), (.TR_HEAD, ⟨25, 0⟩, head), (.TR_COUNT, ⟨25, 0⟩, count),
    (.TR_BASE, F.TR_BASE_REGION, 4), (.TR_TOTAL, ⟨63, 0⟩, 99), (.TB_RAW, ⟨63, 0⟩, 60), (.TR_DROP, ⟨31, 0⟩, 4)]) fs
  { s with obs := { s.obs with trigLeft := left } }

/-- A record of a unit. -/
def trRecord (typ : Byte) (cls : BitVec 3) (idx : BitVec 13) : TraceRecord := ⟨typ, 3, cls, idx, 4, 5, 100, 200, 0x1234567890⟩

/-- Tile 1 at its breakpoint or not, links 3 and 34 UP, a halt under way or not. -/
def sHalt (twin enable : Nat) (h : Option Halt) (halted : Nat) : State :=
  let s := withFlds (sSeq 0xF8000000#32) [(.SQ_STATUS 1, F.SQ_STATUS_STATE, 1), (.OBS_BP 1, F.OBS_BP_ENABLE, enable), (.OBS_BP 1, F.OBS_BP_ADDR, 4),
    (.CN_STATUS 3, F.CN_STATUS_LSTATE, 2), (.CN_STATUS 34, F.CN_STATUS_LSTATE, 2), (.TB_CHIP, F.TB_CHIP_CHIP_ID, 5), (.TB_CHIP, F.TB_CHIP_TWIN, twin),
    (.ROT_STATUS, F.ROT_STATUS_EPOCH_VALID, 1), (.OBS_HALT, F.OBS_HALT_NUMBER, 0xFFFF), (.OBS_STATUS, F.OBS_STATUS_HALTED, halted),
    (.TR_TRIG, F.TR_TRIG_ARM, 1), (.TR_TRIG, F.TR_TRIG_KIND, 3)]
  { (s.updTile 1 (fun x => { x with pc := 16 })) with obs := { s.obs with halt := h, seen := [(7, 2), (9, 4)] } }

/-- A word over a link. -/
def wordMsg (cls : BitVec 2) (src : Byte) (dest v : Word64) : CohMsg := { creq 1 src 0x40 with cls := cls, opB := dest, opA := v }

/-- Tile 1 with dump request 2 armed, in a mode, and a dump under way or not. -/
def sDump (sched : Nat) (tag max : Nat) (fs : List (Reg × Fld × Nat)) (d : Option Dump) : State :=
  let s := withFlds (withFlds State.reset [(.SQ_STATUS 1, F.SQ_STATUS_MODE, sched), (.OBS_DP_TAG 1, F.OBS_DP_TAG_TAG, tag), (.OBS_DP_STEP 1, F.OBS_DP_STEP_STEP, 7),
    (.OBS_DP_CTRL 1, F.OBS_DP_CTRL_LINES, 3), (.OBS_DP_CTRL 1, F.OBS_DP_CTRL_PACE, 9), (.OBS_DP_SRC 1, F.OBS_DP_SRC_LINE, 4), (.DUMP_DEST 2, F.DUMP_DEST_LINE, 0x9000),
    (.DUMP_MAX 2, F.DUMP_MAX_LINES, max), (.DUMP_CTRL 2, F.DUMP_CTRL_ARM, 1), (.DUMP_CTRL 2, F.DUMP_CTRL_TAG, 5), (.DUMP_CTRL 2, F.DUMP_CTRL_ANYSTEP, 1),
    (.DUMP_CTRL 3, F.DUMP_CTRL_ARM, 1), (.DUMP_CTRL 3, F.DUMP_CTRL_TAG, 6), (.DUMP_STEP 3, F.DUMP_STEP_STEP, 7), (.DUMP_CTRL 5, F.DUMP_CTRL_ARM, 1), (.DUMP_CTRL 5, F.DUMP_CTRL_TAG, 5), (.DUMP_STEP 5, F.DUMP_STEP_STEP, 7),
    (.TB_RAW, ⟨63, 0⟩, 70000), (.TB_TURN, ⟨63, 0⟩, 38), (.TB_CYCLE, F.TB_CYCLE_CYCLE, 100), (.LC_STATE, F.LC_STATE_STATE, 0), (.TB_CHIP, F.TB_CHIP_CHIP_ID, 5)]) fs
  { s with mem := [(slabAddr 1 0x400, 7), (slabAddr 1 0x5FF, 9), (slabAddr 1 0x600, 3), (0x900105, 4)], obs := { s.obs with dumps := s.obs.dumps.set 1 d } }

/-- A dump of 3 lines. -/
def dump3 (sched : Bool) (count next : Nat) (go src dest : Nat) (r : Option Nat) : Option Dump :=
  some ⟨some 2, sched, src, dest, 3, count, next, go, 111, 222, 5, 7, 8, 9, r⟩

/-- The race port in a mode with lanes in a state, and stream 2. -/
def sRace (mode ls : Nat) (fs : List (Reg × Fld × Nat)) (x : Stream) : State :=
  let s := withFlds (withFlds State.reset [(.RACE_CTRL, F.RACE_CTRL_MODE, mode), (.RACE_STATUS, F.RACE_STATUS_LSTATE, ls), (.HR_SCFG 2, F.HR_SCFG_ENABLE, 1),
    (.HR_SCFG 2, F.HR_SCFG_TILE, 1), (.HR_SCFG 2, F.HR_SCFG_NBUF_M1, 1), (.HR_SCFG 2, F.HR_SCFG_CTX, 6), (.HR_SCFG 2, F.HR_SCFG_NSTART_M1, 1), (.HR_SSTART 2 1, F.HR_SSTART_INDEX, 3), (.HR_SBASE 2, F.HR_SBASE_LINE, 4),
    (.HR_SLEN 2, F.HR_SLEN_LINES, 2), (.ROT_STATUS, F.ROT_STATUS_STATE, 2), (.ROT_PERIOD, F.ROT_PERIOD_PERIOD_M1, 7), (.TB_TURN, ⟨63, 0⟩, 21), (.TB_RAW, ⟨63, 0⟩, 40000),
    (.TB_CYCLE, F.TB_CYCLE_CYCLE, 100), (.SQ_STATUS 1, F.SQ_STATUS_MODE, 1), (.SLAB_OWN 1 0, F.SLAB_OWN_CTX, 6)]) fs
  { s with
    rot := { s.rot with start := 10 }
    obs := { s.obs with hrMap := [(30, 0x8002), (33, 0x8002), (40, 0x8001)], streams := s.obs.streams.set 2 x } }

/-- A stream with a part, frames and a delivery. -/
def hrStream (part : Option Frame) (bad : Bool) (ready : List Frame) (d : Option Delivery) : Stream :=
  { part := part, bad := bad, ready := ready, delivery := d, count := 5, started := some 20 }

/-- A tailrace with held records. -/
def sTailrace (lc held head : Nat) : State :=
  let s := withFlds (sTrace 7 head held none [(.TR_CTRL, F.TR_CTRL_DRAIN, 1)]) [(.RACE_CTRL, F.RACE_CTRL_MODE, 1), (.RACE_STATUS, F.RACE_STATUS_LSTATE, 2), (.LC_STATE, F.LC_STATE_STATE, lc)]
  { s with mem := [(0x800000, 5), (0x8000A0, 7), (0x9FFFE1, 9)] }

/-! ### Witnesses: for each statement, states and operands that meet its hypotheses -/

theorem test_witness_StepRunsTheQueue :
    let s := withFlds State.reset [(.TB_CYCLE, F.TB_CYCLE_CYCLE, 1798)]
    Runs s ∧ s.pending = [] ∧ s.fld .TB_CYCLE F.TB_CYCLE_CYCLE = 1798 := by unfold Runs; decide

theorem test_witness_StepKeepsTidy : State.reset.tidy ∧ ∃ t, Sys2Proof.Machine.step { State.reset with pending := [.tileReset 3] } = .next t :=
  ⟨by unfold State.tidy; decide, _, rfl⟩

theorem test_witness_HeldUnitsKeepTheirState :
    (sRst .asserted false false).dark = true ∧ (sRst .none false true).dark = true ∧ ofResetController .startArm = false := by decide

theorem test_witness_RegisterWritesFollowFieldTypes :
    HostOpen sBus ∧ (sBus.tile 47).inReset = false ∧ sBus.dark = false ∧ sBus.ideKeepsOut (.rider 2) = false := by
  unfold HostOpen Runs; decide

theorem test_witness_TurnsAdvanceTheTimebase :
    let s := withFlds sTurn [(.TB_CYCLE, F.TB_CYCLE_CYCLE, 1799)]
    let e := withFlds sEpoch [(.TB_RAW, ⟨63, 0⟩, 4999900)]
    Runs s ∧ s.fld .ROT_STATUS F.ROT_STATUS_STRETCH ≠ 0 ∧ s.cycle = 1799 ∧ s.obs.halt = none ∧ s.twinActive = false ∧ s.home.held = [] ∧
    Runs State.reset ∧ State.reset.fld .ROT_STATUS F.ROT_STATUS_STRETCH = 0 ∧ State.reset.fld .ROT_STATUS F.ROT_STATUS_EPOCH_PEND = 0 ∧
    Runs e ∧ e.fld .ROT_STATUS F.ROT_STATUS_EPOCH_PEND = 1 ∧ (e.rd .TB_RAW + e.rd .TB_OFFSET).toNat = (e.rd .TB_EPOCH).toNat := by
  unfold Runs; decide

theorem test_witness_RotationArms :
    Runs sArm ∧ (sArm.rd .ROT_START).toNat = (sArm.rd .TB_TURN).toNat + 2 ∧ Runs sRun ∧ sRun.fld .ROT_STATUS F.ROT_STATUS_STATE = 2 ∧
    let s := { sBus with regs := sEpoch.regs }
    HostOpen s ∧ s.fld .ROT_STATUS F.ROT_STATUS_EPOCH_PEND = 1 := by unfold HostOpen Runs; decide

theorem test_witness_PingsMeasureALink :
    let lost := sLink { PingState.reset with busy := true, waited := 8 }
    Runs (sPing true) ∧ (sPing true).linkUp 0 = true ∧ ((sPing true).link 0).ping.initiator = true ∧ ((sPing true).link 0).ping.busy = true ∧
    ((sPing true).link 0).ping.due = none ∧ ((sPing false).link 0).ping.busy = true ∧ ((sPing false).link 0).ping.initiator = false ∧
    ((sPing false).link 0).ping.due = none ∧ (sLink PingState.reset).fld (.LK_PING 0) F.LK_PING_PSTATE ≠ 1 ∧
    Runs lost ∧ (lost.link 0).ping.busy = true ∧ (lost.link 0).ping.due = none ∧ (lost.link 0).ping.waited = 8 := by unfold Runs; decide

theorem test_witness_BlockResetRunsItsPhases :
    let s := sRst .detected true false
    let a := sRst .asserted false false
    sCold.journal = [] ∧ sCold.rst.phase = .detected ∧ sCold.rst.refDown = false ∧ sCold.rst.fuse = none ∧
    s.journal = [] ∧ s.rst.phase = .detected ∧ s.rst.refDown = true ∧ s.rst.fuse = none ∧
    (sRst .asserted false true).rst.rootDown = true ∧ a.rst.phase = .asserted ∧ a.rst.powerOn = true ∧ a.rst.lifecycle ≤ 3 ∧
    (sRst .released false false).rst.rootDown = false ∧ (sRst .units false false).rst.rootDown = false ∧
    (sRst .mirrors false false).rst.rootDown = false ∧ sFuse.rst.phase = .none ∧ sFuse.rst.fuse = some (3, 0) := by decide

theorem test_witness_UnitResetsHoldTheirUnit :
    Runs sUnit ∧ sUnit.rst.phase = .none ∧ ResetUnit.tile 0 ∈ sUnit.rst.units ∧ ResetUnit.tile 47 ∉ sUnit.rst.units ∧
    ResetUnit.link 35 ∉ sUnit.rst.units ∧ ResetUnit.slot 15 ∉ sUnit.rst.units ∧ ResetUnit.tier2 3 ∉ sUnit.rst.units ∧
    sUnit.fld .LV_CTRL F.LV_CTRL_CLOSED = 1 ∧ State.reset.fld .LV_CTRL F.LV_CTRL_CLOSED = 0 ∧ sUnit.rst.units = [.tile 0] := by
  unfold Runs; decide

theorem test_witness_WatchdogRetirementAndPower :
    Runs State.reset ∧ State.reset.fld .RST_WD F.RST_WD_ENABLE = 0 ∧ State.reset.fld .RST_RETIRE F.RST_RETIRE_BUSY = 0 ∧
    sSrc.journal = [] ∧ sSrc.rst.phase = .none ∧ sSrc.rst.powerOn = true ∧ sOff.rst.powerOn = false ∧ sOff.rst.phase = .none ∧
    sSrc.fld .HF_CTRL F.HF_CTRL_HR0 = 1 ∧ sSrc.fld .TB_CHIP F.TB_CHIP_TWIN = 1 ∧ sSrc.fld .RST_WD F.RST_WD_ENABLE = 1 ∧
    max 1 (sSrc.fld .RST_WD F.RST_WD_TIMEOUT) * 18000 ≤ (sSrc.rd .TB_RAW - sSrc.rst.wdStart).toNat ∧
    sSrc.rst.rootDown = false ∧ sSrc.rst.refDown = false := by unfold Runs; decide

theorem test_witness_SequencerArithmetic :
    SeqAt (sSeq 0x04221800#32) 0 0x04221800#32 ∧ (bitsOf 0x04221800#32 31 26 = 1 ∧ bitsOf 0x0422180B#32 3 0 = 11) ∧ bitsOf 0x04221810#32 10 4 ≠ 0 ∧
    (bitsOf 0x1822003F#32 31 26 = 6 ∧ bitsOf 0x1822003F#32 15 0 = 63) ∧ (bitsOf 0x20220040#32 31 26 = 8 ∧ bitsOf 0x20220040#32 15 0 = 64) ∧
    bitsOf 0x2820FFFF#32 31 26 = 0x0A ∧ bitsOf 0x2820FFFF#32 20 16 = 0 := by
  unfold SeqAt Runs; (repeat' apply And.intro) <;> decide

theorem test_witness_SequencerControlFlow :
    SeqAt (sSeq 0x6021FFFF#32) 0 0x6021FFFF#32 ∧ bitsOf 0x6021FFFF#32 31 26 = 0x18 ∧ bitsOf 0xC0200000#32 31 26 = 0x30 ∧ bitsOf 0xC0200000#32 20 0 = 0 ∧
    bitsOf 0xD4000FFF#32 31 26 = 0x35 ∧ bitsOf 0xD4000FFF#32 25 12 = 0 ∧ bitsOf 0xF8000000#32 31 26 = 0x3E := by
  unfold SeqAt Runs; (repeat' apply And.intro) <;> decide

/-- The sequencer begins a word with s5 holding an address. -/
def sSeqAt (w : Word32) (v : Word64) : State := (sSeq w).updTile 0 (fun x => { x with s := x.s.set 5 v })

theorem test_witness_SequencerAccesses :
    SeqAt (sSeqAt 0x40650000#32 0x5FFFF8) 0 0x40650000#32 ∧ bitsOf 0x40650000#32 31 26 = 0x10 ∧
    (sSeqAt 0x40650000#32 0x5FFFF8).rdS 0 5 = 0x5FFFF8 ∧ (sSeqAt 0x40650000#32 0x5FFFF8).ueIn (slabAddr 0 0x5FFFF8) 8 = none ∧
    (sSeqAt 0x40650000#32 0x600000).rdS 0 5 = 0x600000 ∧ (sSeqAt 0x40650000#32 0x5FFFFC).rdS 0 5 = 0x5FFFFC ∧
    (sSeqAt 0x40650000#32 0x5FFFF8).home.resv = [] ∧
    Reg.atOffset (0x100000 + 4 * bitsOf 0xCC200200#32 11 0) ≠ none ∧ Reg.atOffset (0x100000 + 4 * bitsOf 0xCC200FFF#32 11 0) = none ∧
    4 * bitsOf 0xD001000F#32 11 0 = 0x3C ∧ 4 * bitsOf 0xD001027E#32 11 0 = 0x800 + 8 * 63 := by
  unfold SeqAt Runs; (repeat' apply And.intro) <;> decide

/-- A wait of the sequencer of tile 0, with the turn's stretch. -/
def sWait (w : SeqWait) (left stretch : Nat) : State :=
  withFlds (sTile (fun x => { x with wait := some w, delayLeft := left, markGap := 3 })) [(.ROT_STATUS, F.ROT_STATUS_STRETCH, stretch)]

/-- Turn 6, cycle 100 runs: the points are cycles 101, 100 and 99 of turn 6. -/
theorem test_witness_SequencerPointsAndMarks :
    SeqAt (sSeqAt 0x80050065#32 6) 0 0x80050065#32 ∧ (sSeqAt 0x80050065#32 6).rd .TB_TURN = 6 ∧ (sSeqAt 0x80050065#32 6).cycle = 100 ∧
    bitsOf 0x80050065#32 11 0 = 101 ∧ bitsOf 0x80050064#32 11 0 = 100 ∧ bitsOf 0x88050063#32 11 0 = 99 ∧ bitsOf 0x84050000#32 31 26 = 0x21 ∧
    Runs (sWait (.point 6 1799) 0 0) ∧ ((sWait (.point 6 1799) 0 0).tile 0).wait = some (.point 6 1799) ∧
    (sWait (.point 6 1799) 0 0).rd .TB_TURN = 6 ∧ (sWait (.point 6 1799) 0 0).cycle ≤ 1799 ∧
    Runs (sWait .delay 1799 0) ∧ ((sWait .delay 1799 0).tile 0).wait = some .delay ∧ ((sWait .delay 1799 0).tile 0).delayLeft = 1799 ∧
    (sWait .delay 1799 0).fld (.SQ_CTRL 0) F.SQ_CTRL_MARK_GAP = ((sWait .delay 1799 0).tile 0).markGap ∧
    ((sWait .delay 1800 1).tile 0).delayLeft = 1800 ∧ (sWait .delay 1800 1).fld .ROT_STATUS F.ROT_STATUS_STRETCH ≠ 0 := by
  unfold SeqAt Runs; (repeat' apply And.intro) <;> decide

theorem test_witness_SequencerModeChannelsAndKernels :
    SeqAt (sSeq 0x98030000#32) 0 0x98030000#32 ∧ bitsOf 0x98030000#32 31 26 = 0x26 ∧ bitsOf 0x98030001#32 15 3 = 0 ∧
    (sSeq 0).fld (.SL_STATUS 0 0) F.SL_STATUS_STATE = 0 ∧ (sSeq 0).fld (.SL_STATUS 0 1) F.SL_STATUS_STATE = 2 ∧
    ((sSeq 0).tile 0).kernel = none ∧ ((sTile (fun x => { x with kernel := some kVec })).tile 0).kernel ≠ none ∧
    (sSeq 0).schedMode 0 = false ∧ (withFlds (sSeq 0) [(.SQ_STATUS 0, F.SQ_STATUS_MODE, 1)]).schedMode 0 = true ∧
    (∀ c, c < 8 → (withFlds (sSeq 0x8C000001#32) [(.SL_STATUS 0 1, F.SL_STATUS_STATE, 0)]).fld (.SL_STATUS 0 c) F.SL_STATUS_STATE = 0) := by
  unfold SeqAt Runs; (repeat' apply And.intro) <;> decide

theorem test_witness_SlabDrainDone :
    (sTile (fun x => { x with draining := true, wait := some (.instr 0x8C000001#32) })).slabBusy 0 = false := by decide +kernel

/-- Link 35 keeps a word for tile 0, whose receive queue has one place left. -/
def sHeldWord : State :=
  ((sSeq 0).updLink 35 (fun x => { x with sigHeld := [(0, 9)] })).updTile 0 (fun x => { x with rx := List.replicate 31 ⟨0, 1⟩ })

theorem test_witness_SequencerSignals :
    SeqAt (sSeq 0xA0030003#32) 0 0xA0030003#32 ∧ bitsOf 0xA0030003#32 31 26 = 0x28 ∧
    (sSeq 0).rdS 0 3 ≤ (sSeq 0).rd (.SQ_SIG 0 3) ∧ (sSeq 0).rd (.SQ_SIG 0 3) < (sSeq 0).rdS 0 2 ∧
    (sSeq 0).linkUp 0 = true ∧ ((sSeq 0).link 0).sigCredit[0] = true ∧ (sSeq 0).linkUp 1 = false ∧ ((sSeq 0).tile 0).rx = [⟨0, 0x77⟩, ⟨1, 5⟩] ∧
    Runs sHeldWord ∧ (sHeldWord.tile 0).wait = none ∧ (sHeldWord.tile 0).inReset = false ∧ (sHeldWord.tile 0).rx.length = 31 ∧
    (sHeldWord.link 35).sigHeld = [(0, 9)] := by
  unfold SeqAt Runs; (repeat' apply And.intro) <;> decide

theorem test_witness_SequencerStartsStopsAndKernelEnds :
    Runs sStopped ∧ (sStopped.tile 0).inReset = false ∧ sStopped.fld (.SQ_STATUS 0) F.SQ_STATUS_STATE = 0 ∧
    (∀ sb ∈ [(256, 0x5F00), (1, 0x5FFF)], let s := withFlds sStopped [(.SQ_PROG 0, F.SQ_PROG_SIZE, sb.1), (.SQ_PROG 0, F.SQ_PROG_BASE, sb.2)]
      s.fld (.SQ_PROG 0) F.SQ_PROG_SIZE = sb.1 ∧ (s.fld (.SQ_PROG 0) F.SQ_PROG_BASE + sb.1) * 256 = 0x600000) ∧
    (let s := sTile (fun x => { x with starting := true, progBase := 0, progSize := 1 })
     (s.tile 0).starting = true ∧ s.ueIn (slabAddr 0 0) 256 = none) ∧
    (sSeq 0).seqReady 0 = true ∧ ((sSeq 0).tile 0).starting = false ∧
    (∀ q ∈ [{ kVec with started := false, status := 3 }, { kVec with started := false, status := 0 }],
      let s := sTile (fun x => { x with kernel := some q })
      Runs s ∧ (s.tile 0).kernel = some q ∧ (s.tile 0).wait = none ∧ q.sched = false) ∧
    (let s := sTile (fun x => { x with kernel := some { kVec with nblocks := 0, failed := true } })
     (s.tile 0).ta.idle = true ∧ (s.tile 0).atoms = [] ∧ (s.tile 0).reqs = [] ∧
       ∀ c : CoreId, (s.core 0 c).groupsDone { kVec with nblocks := 0, failed := true } = true ∧ (s.core 0 c).storesDone = true) := by
  unfold Runs; decide

/-- Group 0 of core 0 of tile 0. -/
def g00 : GroupId := ⟨0, 0, 0⟩

/-- A Maelette-V word by its fields (R153). -/
def vw (opc vd va vb vc mod sub : Nat) : Word64 :=
  BitVec.ofNat 64 (opc * 2 ^ 56 + vd * 2 ^ 40 + va * 2 ^ 32 + vb * 2 ^ 24 + vc * 2 ^ 16 + mod * 2 ^ 13 + sub * 2 ^ 5)

/-- A word meets what VecRuns asks of the word alone, in group gVec. -/
def formOk (x : VForm × Word64) : Bool :=
  x.1.hasOpc x.2 && x.1.legal x.2 && (x.1.sources x.2 ++ x.1.dests x.2).all (fun r => r < gVec.v.length) &&
    !gVec.waitsFor (x.1.sources x.2) && (gVec.markedBy (x.1.sources x.2)).isNone && gVec.rfUE.isEmpty

theorem test_witness_VectorFloatLanes :
    VecRuns (sVec (vw 0x10 4 5 6 0 4 0) gVec) g00 (vw 0x10 4 5 6 0 4 0) (.bin 0x10 true .rm) gVec kVec ∧
    VecRuns (sVec 0x9000041F3F800000#64 gVec) g00 0x9000041F3F800000#64 (.bin 0x10 true .rm) gVec kVec ∧
    [(VForm.bin 0x11 true .rm, vw 0x11 31 5 6 0 1 0), (.bin 0x12 true .rm, vw 0x12 4 5 6 0 2 0), (.tri 0x13 .rm, vw 0x13 4 5 6 7 3 0),
     (.bin 0x14 true .res0, vw 0x14 4 5 6 0 0 0), (.bin 0x15 true .res0, vw 0x15 4 5 6 0 0 0), (.bin 0x17 false .rm, vw 0x17 4 5 6 0 0 0),
     (.bin 0x18 false .rm, vw 0x18 4 5 6 0 4 0), (.tri 0x19 .rm, vw 0x19 4 5 6 7 0 0), (.bin 0x1A false .rm, vw 0x1A 4 5 6 0 0 0),
     (.bin 0x1B false .rm, vw 0x1B 4 5 6 0 0 0), (.tri 0x1C .rm, vw 0x1C 4 5 6 31 0 0),
     (⟨0x20, none, true, .v 1, .v 1, .none, .none, .rm, cvtSub⟩, vw 0x20 4 5 0 0 1 0x10), (.un 0x30 .rm, vw 0x30 4 5 0 0 4 0),
     (.un 0x31 .rm, vw 0x31 4 5 0 0 0 0), (.un 0x32 .res0, vw 0x32 4 5 0 0 0 0), (.un 0x33 .res0, vw 0x33 4 5 0 0 0 0),
     (.un 0x34 .res0, vw 0x34 4 5 0 0 0 0), (.un 0x35 .res0, vw 0x35 4 5 0 0 0 0), (.un 0x36 .res0, vw 0x36 4 5 0 0 0 0)].all formOk = true := by
  unfold VecRuns VecAt Runs; (repeat' apply And.intro) <;> first | rfl | decide +kernel

/-- The form of WADD. -/
def fWadd : VForm := ⟨0x21, none, true, .v 8, .v 8, .v 8, .none, .res0, (· == 0)⟩

theorem test_witness_VectorComparesAndGroupValues :
    VecRuns (sVec (vw 0x0F 7 5 6 0 7 0) gVec) g00 (vw 0x0F 7 5 6 0 7 0) (.cmp 0x0F) gVec kVec ∧
    VecRuns (sVec (vw 0x21 24 8 8 0 0 0) gVec) g00 (vw 0x21 24 8 8 0 0 0) fWadd gVec kVec ∧
    (∀ i, i < 64 → (gVec.taking (vw 0x21 24 8 8 0 0 0)).getLsbD i = true → (gVec.rdWide 8 i).mismatch (gVec.rdWide 8 i) = false) ∧
    formOk (fWadd, vw 0x21 24 8 16 0 0 0) = true ∧ (gVec.taking (vw 0x21 24 8 16 0 0 0)).getLsbD 2 = true ∧
    (gVec.rdWide 8 2).mismatch (gVec.rdWide 16 2) = true ∧
    (∀ i, i < 64 → (sVec (vw 0x21 24 8 16 0 0 0) gVec).resLine (excRecordAt g00 kVec + i) = none) ∧
    [(VForm.cmp 0x16, vw 0x16 0 5 6 0 5 0), (.uni 0xCB .p .u .cond, vw 0xDB 7 63 255 0 0 0), (.uni 0xCB .p .u .cond, vw 0xCB 7 63 62 0 7 0),
     (.bin 0x3A false .res0, vw 0x3A 4 5 6 0 0 0), (⟨0x3B, none, true, .u, .p, .none, .none, .res0, (· == 0)⟩, vw 0x3B 63 7 0 0 0 0),
     (⟨0x3C, none, true, .u, .v 1, .none, .none, .res0, (· == 0)⟩, vw 0x3C 63 7 0 0 0 0),
     (⟨0x3D, none, true, .v 1, .u, .none, .none, .bit0, (· == 0)⟩, vw 0x3D 4 7 0 0 1 0),
     (⟨0x3E, none, true, .v 1, .none, .none, .none, .res0, fun x => x / 32 ≤ 8 && x % 32 == 0⟩, vw 0x3E 4 0 0 0 0 8),
     (⟨0x3F, none, false, .u, .none, .none, .none, .bit0, (· == 0)⟩, vw 0x3F 63 0 0 0 1 0),
     (⟨0x22, none, true, .v 1, .v 8, .none, .none, .rm, wcvtSub⟩, vw 0x22 4 8 0 0 4 0x38),
     (⟨0x23, none, true, .v 8, .v 1, .v 1, .none, .res0, (· == 0)⟩, vw 0x23 8 4 5 0 0 0)].all formOk = true := by
  unfold VecRuns VecAt Runs; (repeat' apply And.intro) <;> first | rfl | decide +kernel

theorem test_witness_VectorIntegerLanes :
    VecRuns (sVec (vw 0x01 255 5 31 0 0 0) gVec) g00 (vw 0x01 255 5 31 0 0 0) (.bin 0x01 true .res0) gVec kVec ∧
    VecRuns (sVec (vw 0xC7 63 5 255 0 1 0) gVec) g00 (vw 0xC7 63 5 255 0 1 0) (.uni 0xC7 .u .u .bit0) gVec kVec ∧
    [(VForm.bin 0x02 true .res0, vw 0x82 4 5 6 0 0 0), (.bin 0x03 true .res0, vw 0x03 4 5 6 0 0 0), (.bin 0x04 false .bit0, vw 0x04 4 5 6 0 1 0),
     (.tri 0x05 .res0, vw 0x05 4 5 6 7 0 0), (.bin 0x06 true .bit0, vw 0x06 4 5 6 0 1 0), (.bin 0x07 true .bit0, vw 0x87 4 5 6 0 7 0),
     (.bin 0x08 true .res0, vw 0x08 4 5 6 0 0 0), (.bin 0x09 true .res0, vw 0x09 4 5 6 0 0 0), (.bin 0x0A true .res0, vw 0x0A 4 5 6 0 0 0),
     (.bin 0x0B true .res0, vw 0x0B 4 5 6 0 0 0), (.bin 0x0C true .bit0, vw 0x0C 4 5 6 0 1 0),
     (⟨0x0D, none, true, .v 1, .v 1, .v 1, .p, .res0, (· == 0)⟩, vw 0x0D 4 5 6 7 0 0), (.un 0x0E .res0, vw 0x0E 4 5 0 0 0 0),
     (⟨0x8E, some 0x8E, true, .v 1, .none, .none, .none, .res0, (· == 0)⟩, vw 0x8E 4 0 9 0 0 0),
     (.bin 0x37 false .bit0, vw 0x37 4 5 6 0 1 0), (.bin 0x38 false .bit0, vw 0x38 4 5 6 0 0 0)].all formOk = true ∧
    [(VForm.uni 0xC0 .u .u .res0, vw 0xD0 4 5 128 0 0 0), (.uni 0xC1 .u .u .res0, vw 0xC1 4 5 6 0 0 0), (.uni 0xC2 .u .u .res0, vw 0xC2 4 5 6 0 0 0), (.uni 0xC3 .u .u .res0, vw 0xC3 4 5 6 0 0 0),
     (.uni 0xC4 .u .u .res0, vw 0xC4 4 5 6 0 0 0), (.uni 0xC5 .u .u .res0, vw 0xC5 4 5 6 0 0 0), (.uni 0xC6 .u .u .res0, vw 0xC6 4 5 6 0 0 0),
     (.uni 0xC8 .u .u .bit0, vw 0xC8 4 5 6 0 1 0), (.uni 0xC9 .u .u .bit0, vw 0xC9 4 5 6 0 0 0),
     (⟨0xCA, none, false, .u, .u, .none, .none, .res0, (· == 0)⟩, vw 0xCA 4 63 0 0 0 0),
     (⟨0xDA, some 0xDA, false, .u, .none, .none, .none, .res0, (· == 0)⟩, vw 0xDA 4 0 255 255 7 0)].all formOk = true := by
  unfold VecRuns VecAt Runs; (repeat' apply And.intro) <;> first | rfl | decide +kernel

/-- A BRA by its predicate field, its reconvergence offset and its branch offset (R168). -/
def braW (p rec_ off : Nat) : Word64 := BitVec.ofNat 64 (0x72 * 2 ^ 56 + p * 2 ^ 44 + rec_ * 2 ^ 24 + off)

/-- The group with clear predicates. -/
def gFalse : Group := { gVec with p := Vector.replicate _ 0 }

/-- A word that meets what CtlRuns asks of the word alone. -/
def ctlOk (opc : Nat) (guard : Bool) (w : Word64) : Bool := bitsOf w 63 56 == opc && guardOk w guard && bitsOf w 50 48 == 0

theorem test_witness_GroupControlFlow :
    CtlRuns (sVec (braW 1 5 0xFFFFFF) gVec) g00 (braW 1 5 0xFFFFFF) 0x72 false gVec kVec ∧
    gVec.rdP 1 &&& gVec.mask ≠ 0 ∧ gVec.mask &&& ~~~ (gVec.rdP 1 &&& gVec.mask) ≠ 0 ∧ gVec.stack = [] ∧
    ctlOk 0x72 false (braW 1 1 1) = true ∧ ctlOk 0x72 false (braW 9 1 2) = true ∧ gFalse.rdP 1 = 0 ∧
    bitOf (braW 9 1 2) 47 = true ∧ bitOf (braW 1 1 1) 47 = false ∧
    ctlOk 0x73 false (vw 0x73 0 0 0 0 0 0) = true ∧ ctlOk 0x74 false (vw 0x74 0 0 0 255 7 0) = true ∧
    ctlOk 0x75 false (vw 0x75 252 0 0 1 0 0) = true ∧ ctlOk 0x76 false (vw 0x76 252 0 0 0 0 0) = true ∧ ctlOk 0x7E false (vw 0x7E 0 0 0 0 0 0) = true ∧
    ctlOk 0x77 true (vw 0x77 0 0 0 0 1 0) = true ∧ gVec.taking (vw 0x77 0 0 0 0 1 0) ≠ 0 ∧
    ctlOk 0x77 true (vw 0x77 0 0 0 0 1 0 ||| 0x80000000000000#64) = true ∧ gFalse.taking (vw 0x77 0 0 0 0 1 0 ||| 0x80000000000000#64) = 0 ∧
    VecAt (sVec (vw 0xFF 0 0 0 0 0 0) gVec) g00 (vw 0xFF 0 0 0 0 0 0) gVec kVec ∧ vecDefined (vw 0xFF 0 0 0 0 0 0) = false ∧
    (VForm.bin 0x01 true .res0).hasOpc (vw 0x01 4 32 6 0 0 0) = true ∧ (VForm.bin 0x01 true .res0).legal (vw 0x01 4 32 6 0 0 0) = true ∧
    (32 ∈ (VForm.bin 0x01 true .res0).sources (vw 0x01 4 32 6 0 0 0) ∧ gVec.v.length ≤ 32) ∧
    (∀ i, i < 64 → (sVec (vw 0xFF 0 0 0 0 0 0) gVec).resLine (excRecordAt g00 kVec + i) = none) ∧
    SeqAt (sSeq 0xFC000000#32) 0 0xFC000000#32 ∧ seqDefined 0xFC000000#32 = false := by
  unfold CtlRuns VecAt SeqAt Runs; (repeat' apply And.intro) <;> first | rfl | decide +kernel

/-- A group at a block barrier of its block, and one that is divergent. -/
def gAll : Group := { gVec with mask := BitVec.allOnes 64 }

/-- A group with an entry of the reconvergence stack. -/
def gStack : Group := { gVec with stack := [⟨0x800, BitVec.allOnes 64, 0, [⟨0x600, 0xF⟩]⟩] }

/-- The block's other group, ready since 3. -/
def sPair (wait : Option GWait) : State := sVec2 (vw 0x70 0 0 0 0 0 0) gAll { gVec with readyAt := some 3, wait := wait }

/-- A core without groups whose kernel has blocks left. -/
def sEmpty : State := (sVec 0 gVec).updCore 0 0 (fun c => { (c.setGroup 0 none) with active := Vector.replicate _ none, nextBlock := 0, blocks := Vector.replicate _ none })

theorem test_witness_GroupsEndMeetAndStart :
    CtlRuns (sVec (vw 0x71 0 0 0 0 0 0) gVec) g00 (vw 0x71 0 0 0 0 0 0) 0x71 true gVec kVec ∧
    gVec.mask &&& ~~~ gVec.taking (vw 0x71 0 0 0 0 0 0) = 0 ∧ gVec.stack = [] ∧
    ctlOk 0x71 true (vw 0x71 0 0 0 0 0 0 ||| 0x80000000000000#64) = true ∧
    gVec.mask &&& ~~~ gVec.taking (vw 0x71 0 0 0 0 0 0 ||| 0x80000000000000#64) ≠ 0 ∧
    (gStack.exitThreads (gStack.taking (vw 0x71 0 0 0 0 0 0))).settle.mask ≠ 0 ∧
    CtlRuns (sPair none) g00 (vw 0x70 0 0 0 0 0 0) 0x70 false gAll kVec ∧ gAll.mask = ~~~ gAll.exited ∧ gVec.mask ≠ ~~~ gVec.exited ∧
    ((sPair none).core 0 0).group 1 = some { gVec with readyAt := some 3, wait := none } ∧
    ((sPair (some .barrier)).core 0 0).group 1 = some { gVec with readyAt := some 3, wait := some .barrier } ∧
    ctlOk 0x4B false (vw 0x4B 0 0 0 0 0 0) = true ∧ (sVec 0 gVec).fetchAt 0 kVec gVec.pc = .at_ ⟨.localMem, slabAddr 0 0x100, .normal⟩ ∧
    (sVec 0 gVec).ueIn (localOf (slabAddr 0 0x100) / 256 * 256) 256 = none ∧
    (sPair none).tileHolds 0 = false ∧ ((sPair none).core 0 0).isActive 0 = true ∧ ((sPair none).core 0 0).earliestReady = some 1 ∧
    ((sPair none).core 0 0).freeActive = some 1 ∧
    Runs sEmpty ∧ sEmpty.tileHolds 0 = false ∧ (sEmpty.tile 0).kernel = some kVec ∧ kVec.started = true ∧ kVec.failed = false ∧
    (sEmpty.core 0 0).canStart kVec 0 = true ∧ (sEmpty.core 0 0).freeBlockSlot (kVec.blockLimit 0) = some 0 := by
  unfold CtlRuns VecAt Runs; (repeat' apply And.intro) <;> first | rfl | decide +kernel

/-- A memory word by its fields (R167, R168): SZ, the sign bit of the address register, u register UB, and the immediate. -/
def mw (opc vd va vb ub sz sx imm : Nat) : Word64 :=
  BitVec.ofNat 64 (opc * 2 ^ 56 + vd * 2 ^ 40 + va * 2 ^ 32 + vb * 2 ^ 24 + ub * 2 ^ 18 + sz * 2 ^ 15 + sx * 2 ^ 14 + imm)

/-- gMem with u3 = 0x1000 and u4 = a base. -/
def gU (base : Nat) : Group := { gMem with u := (gMem.u.set 3 0x1000).set 4 (BitVec.ofNat 64 base) }

/-- A word that meets what MemRuns asks of the word alone. -/
def memOk (opc : Nat) (sp : MSpace) (kind : MKind) (w : Word64) : Bool :=
  bitsOf w 63 56 == opc && mLegal w sp kind && (mSources w kind ++ mDests w kind).all (fun r => r < gMem.v.length)

/-- v9 of the group with one address in every thread. -/
def gAddr (a : Nat) : Group := { gMem with mask := BitVec.allOnes 64, v := gMem.v.set 9 (Vector.replicate _ (BitVec.ofNat 32 a)) }

theorem test_witness_SlabAccesses :
    MemRuns (sMem (mw 0x40 16 6 0 0 6 0 16) gMem) g00 (mw 0x40 16 6 0 0 6 0 16) 0x40 .ownSlab .load gMem kMem ∧
    Reaches (sMem (mw 0x40 16 6 0 0 6 0 16) gMem) g00 gMem kMem (mw 0x40 16 6 0 0 6 0 16) false (((mw 0x40 16 6 0 0 6 0 16).setWidth 14).signExtend 32) 16 ∧
    memOk 0x42 .blockLocal .load (mw 0x42 16 9 0 0 0 0 0x2FFF) = true ∧ memOk 0x41 .ownSlab .store (mw 0x41 16 6 0 0 4 0 0) = true ∧
    memOk 0x43 .blockLocal .store (mw 0x43 16 9 0 0 5 0 0) = true ∧
    (threadsOf ((gAddr 0x3FFC).taking (mw 0x42 16 9 0 0 4 0 0))).head? = some 0 ∧
    (lane (gAddr 0x3FFC) 9 0).toNat + 4 ≤ kMem.localUnits * 4096 ∧ kMem.localUnits * 4096 < (lane (gAddr 0x3FFD) 9 0).toNat + 4 ∧
    (lane (gAddr 0x5FFFFC) 9 0).toNat + 4 ≤ 0x600000 ∧ 0x600000 ≤ (lane (gAddr 0x600000) 9 0).toNat ∧
    (sMem 0 gMem).revoked kMem.ctx = false ∧ (sMem 0 gMem).slabOwned 0 kMem.ctx 0x5FFFFC = true ∧
    (withFlds (sMem 0 gMem) [(.SLAB_OWN 0 0, F.SLAB_OWN_CTX, 5)]).slabOwned 0 5 0x3FFFF = true ∧
    (withFlds (sMem 0 gMem) [(.SLAB_OWN 0 0, F.SLAB_OWN_CTX, 5)]).slabOwned 0 4 0x3FFFF = false ∧
    (∀ i, i < 64 → (sMem 0 gMem).resLine (excRecordAt g00 kMem + i) = none) ∧ (sMem 0 gMem).home.resv = [] := by
  unfold MemRuns VecAt Reaches Runs; (repeat' apply And.intro) <;> first | rfl | decide +kernel | (intros; rfl)

theorem test_witness_SlabAtomicsAndUniformAccesses :
    VecAt (sMem (vw 0x49 63 3 0 0 0 0) (gU 0)) g00 (vw 0x49 63 3 0 0 0 0) (gU 0) kMem ∧
    ((gU 0).rdU 3).toNat = 0x1000 ∧ guardOk (vw 0x49 63 3 0 0 0 0) false = true ∧ DstKind.u.ok 63 = true ∧ SrcKind.u.ok 3 = true ∧
    (gU 0).waitsFor [] = false ∧ (gU 0).markedBy [] = none ∧ bitsOf (vw 0x4A 63 3 0 0 0 0) 63 56 = 0x4A ∧
    MemRuns (sMem (mw 0x46 16 9 20 0 5 0 9216) gMem) g00 (mw 0x46 16 9 20 0 5 0 9216) 0x46 .ownSlab .atomic gMem kMem ∧
    bitsOf (mw 0x46 16 9 20 0 5 0 9216) 13 10 = 9 ∧
    Reaches (sMem (mw 0x46 16 9 20 0 5 0 9216) gMem) g00 gMem kMem (mw 0x46 16 9 20 0 5 0 9216) false 0 8 ∧
    gMem.taking (mw 0x46 16 9 20 0 5 0 9216) ≠ 0 ∧ gFalse.taking (mw 0x46 16 9 20 0 5 0 0 ||| 0x80000000000000#64) = 0 ∧
    (((sMem 0 gMem).core 0 0).findLoad ((sMem 0 gMem).core 0 0).nextId).isNone = true ∧
    (List.range 11).all (fun aop => [0x46, 0x47, 0x48].all (fun opc =>
      memOk opc (if opc = 0x46 then .ownSlab else if opc = 0x47 then .blockLocal else .virt) .atomic (mw opc 16 9 20 (if opc = 0x48 then 4 else 0) 4 0 (aop * 1024)))) = true ∧
    VirtReaches (sMem (mw 0x48 16 9 20 4 4 0 1024) (gU slabBase)) g00 (gU slabBase) kMem (mw 0x48 16 9 20 4 4 0 1024) accA 0 4
      (fun i => 0x1000 + 16 * (i % 5)) := by
  unfold MemRuns VecAt Reaches VirtReaches Runs; (repeat' apply And.intro) <;> first | rfl | decide +kernel | (intros; rfl)

/-- u4 reaches tier 1 at 0x700000; the L1 data cache holds its lines or not. -/
def sTier1 (w : Word64) (lines : List DLine) : State := (sMem w (gU 0x700000)).updCore 0 0 (fun c => { c with l1d := lines })

/-- Lines of tier 1. -/
def tier1Lines : List DLine := (List.range 17).map (fun i => ⟨.localMem, 0x701000 + 64 * i, List.replicate 64 7, false⟩)

/-- The load word of these tests. -/
def wLd : Word64 := mw 0x44 16 6 0 4 6 0 0

/-- A load of host memory in flight for thread 7. -/
def hostLane : Lane := { (default : Lane) with thread := 7, tgt := ⟨.host0, 0x1000, .stream⟩ }

theorem test_witness_VirtualAccessesFencesAndReports :
    MemRuns (sTier1 wLd []) g00 wLd 0x44 .virt .load (gU 0x700000) kMem ∧
    Tier1Reaches (sTier1 wLd []) g00 (gU 0x700000) kMem wLd accR 16 ∧
    (∀ i ∈ threadsOf ((gU 0x700000).taking wLd), l1Line (sTier1 wLd []) g00 (tier1Of (sTier1 wLd []) g00 (gU 0x700000) kMem wLd accR i) = none) ∧
    (∀ i ∈ threadsOf ((gU 0x700000).taking wLd), (l1Line (sTier1 wLd tier1Lines) g00
      (tier1Of (sTier1 wLd tier1Lines) g00 (gU 0x700000) kMem wLd accR i)).any (fun d => !d.parity) = true) ∧
    memOk 0x45 .virt .store (mw 0x45 16 6 0 4 6 1 0) = true ∧
    CtlRuns (sVec (vw 0x4C 0 0 0 0 0 0) gVec) g00 (vw 0x4C 0 0 0 0 0 0) 0x4C false gVec kVec ∧ ctlOk 0x4D false (vw 0x4D 0 0 0 0 0 0) = true ∧
    ((sVec 0 gVec).core 0 0).merge = [] ∧ gVec.loads = [] ∧ gVec.writes = [] ∧
    (sLoad hostLane (some (.fence true))).group g00 = some { gMem with loads := [lMem hostLane], wait := some (.fence true) } ∧
    Runs (sLoad hostLane none) ∧ (sLoad hostLane none).tileHolds 0 = false ∧
    ((sLoad hostLane none).core 0 0).findLoad 3 = some (some 0, lMem hostLane) ∧ (lMem hostLane).vd = 4 ∧
    hostLane.val.isNone = true ∧ (lMem hostLane).atomic = none ∧ (lMem hostLane).live = liveRegs 4 5 (1#64 <<< 7) ∧ (lMem hostLane).forward = [] ∧
    szBytes 5 = 8 ∧ (sWrite.core 0 0).findLoad 3 = none ∧
    (sWrite.core 0 0).findWrite 3 = some (some 0, { (default : PendWrite) with id := 3 }) ∧
    Runs sMerge ∧ (sMerge.core 0 0).merge.length = 1 ∧ ((sMerge.core 0 0).merge.head?.map (fun e => e.tgt.addr)) = some 0x1C0 ∧
    placeOf (localOf 0x1C0) = .tier1 ∧ chipOf 0x1C0 = sMerge.chipId ∧ ((sMerge.tile 0).kernel.map (fun k => k.sched)) ≠ some true := by
  unfold MemRuns CtlRuns VecAt Tier1Reaches Runs; (repeat' apply And.intro) <;> first | rfl | decide +kernel | (intros; rfl)

/-- A matrix word by its token and u registers (R75, R76). -/
def mtw (opc td ua ub uc ud pd : Nat) : Word64 :=
  BitVec.ofNat 64 (opc * 2 ^ 56 + td * 2 ^ 44 + ua * 2 ^ 38 + ub * 2 ^ 32 + uc * 2 ^ 26 + ud * 2 ^ 20 + pd * 2 ^ 17)

/-- Tile 0 with n instructions ahead of the multiplying unit. -/
def sAhead (n : Nat) : State := (sVec (mtw 0x60 15 4 5 6 0 0) gTok).updTile 0 (fun x => { x with
  ta := { x.ta with issued := List.replicate (n - 1) (mxIssued .mxma), mq := [mxIssued .mxma], tq := [mxIssued .mxld] } })

/-- An instruction of the group that has ended. -/
def mxEnd : MxInstr := { mxIssued .mxma with block := 9, num := 1, word := 0x55 }

theorem test_witness_MatrixIssueAndTokens :
    CtlRuns (sAhead 7) g00 (mtw 0x60 15 4 5 6 0 0) 0x60 true gTok kVec ∧
    bitsOf (mtw 0x60 15 4 5 6 0 0) 25 17 = 0 ∧ vG (mtw 0x60 15 4 5 6 0 0) = false ∧ gTok.mask = BitVec.allOnes 64 ∧
    (gTok.tok[tokOf (mtw 0x60 15 4 5 6 0 0)]).done = true ∧
    (((sAhead 7).tile 0).ta.issued.filter (fun m => m.op == .mxma)).length + ((sAhead 7).tile 0).ta.mq.length = 7 ∧
    (((sAhead 8).tile 0).ta.issued.filter (fun m => m.op == .mxma)).length + ((sAhead 8).tile 0).ta.mq.length = 8 ∧
    (gVec.tok[(0 : Fin 16)]).done = false ∧ gVec.mask ≠ BitVec.allOnes 64 ∧
    ctlOk 0x61 true (mtw 0x61 3 4 0 6 0 0) = true ∧ bitsOf (mtw 0x61 3 4 0 6 0 0) 37 32 = 0 ∧ ctlOk 0x62 true (mtw 0x62 3 4 0 6 0 0) = true ∧
    ctlOk 0x63 false (mtw 0x63 3 0 0 0 0 0) = true ∧ ctlOk 0x64 true (mtw 0x64 3 0 0 0 0 7) = true ∧ ctlOk 0x65 false (mtw 0x65 3 0 0 0 63 0) = true ∧
    (let s := sMx (fun ta => { ta with ended := [mxEnd], clearing := true, acc := accs 7 }) [] [] []
     Runs s ∧ s.tileHolds 0 = false ∧ (s.tile 0).ta.ended.find? (fun m => m.group == g00 && m.tok == 3) = some mxEnd ∧
       (s.tile 0).ta.ended.find? (fun m => m.group == g00 && m.tok == 4) = none ∧ gVec.block = mxEnd.block ∧ gVec.num = mxEnd.num ∧
       (s.tile 0).ta.clearing = true) := by
  unfold CtlRuns VecAt Runs; (repeat' apply And.intro) <;> first | rfl | decide +kernel

/-- An MXMA that is accepted: 2 rows and 3 columns, FP32 operands, 1 product each. -/
def sAccept (fmt : Nat) : State :=
  sMx (fun ta => { ta with issued := [mxIssued .mxma] }) (descBytes 0x1000 256 fmt 2 1) (descBytes 0x2000 256 5 1 3) (leBytes 32 (1 + 2 + 7 * 2 ^ 16))

/-- A queue of the array with one instruction. -/
def sEnd (op : MxOp) (fmt : Nat) (add : Bool) (acc : List (Nat × Wide)) : State :=
  sMx (fun ta => if op = .mxma then { ta with mq := [mxReady op fmt add true], acc := acc } else { ta with tq := [mxReady op fmt add false], acc := acc }) [] [] []

/-- Whether the wide partials of the slab have another anchor than the entries. -/
def endDiffers (s : State) : Bool := (List.range 2).any (fun c =>
  (accAt (s.tile 0) 1 0 c).mismatch (Wide.ofBits (BitVec.ofNat 256 (s.rdNat (slabAddr 0 (0x1000 + c * 32)) 32))))

theorem test_witness_MatrixInstructionsAcceptAndEnd :
    (∀ f ∈ [5, 15], Runs (sAccept f) ∧ (sAccept f).safe = false ∧ (sAccept f).tileHolds 0 = false ∧ ((sAccept f).tile 0).ta.clearing = false ∧
      (sAccept f).memUE = []) ∧
    ((sAccept 5).tile 0).ta.issued.find? (fun m => (if m.op = .mxma then MxUnit.multiply else .transfer) == MxUnit.multiply) = some (mxIssued .mxma) ∧
    (∀ a ∈ [0x400, 0x420, 0x440], (sAccept 5).slabOwned 0 0 a = true) ∧
    (let x (f : Nat) (a : Nat) : Nat := (sAccept f).rdNat (slabAddr 0 a) 32
     descFieldsOk .mxma (x 5 0x400) (x 5 0x420) (x 5 0x440) = true ∧ descFieldsOk .mxma (x 15 0x400) (x 15 0x420) (x 15 0x440) = false ∧
     (sAccept 5).runsOk 0 0 ({ mxIssued .mxma with da := DataDesc.ofNat (x 5 0x400), db := DataDesc.ofNat (x 5 0x420), dc := AccDesc.ofNat (x 5 0x440) } : MxInstr).runs = true) ∧
    MayEnd (sEnd .mxma 5 false (accs 7)) 0 .multiply (mxReady .mxma 5 false true) ∧ MayEnd (sEnd .mxld 10 true (accs 7)) 0 .transfer (mxReady .mxld 10 true false) ∧
    endDiffers (sEnd .mxld 10 true (accs 7)) = false ∧ endDiffers (sEnd .mxld 10 true (accs 8)) = true ∧
    MayEnd (sEnd .mxst 10 true (accs 8)) 0 .transfer (mxReady .mxst 10 true false) ∧ (sEnd .mxst 10 true (accs 8)).home.resv = [] ∧
    ((sEnd .mxma 5 false (accs 7)).tile 0).ta.residueAt 8192 ≠ residueOf (accAt ((sEnd .mxma 5 false (accs 7)).tile 0) 1 0 0).int := by
  unfold MayEnd Runs; (repeat' apply And.intro) <;> first | rfl | decide +kernel

/-- A scheduled write in flight is one that the cores or the channels hold. -/
theorem alone_of (s : State) (h : ∀ t c, (s.core t c).allWrites = []) (h2 : ∀ t c, (s.chan t c).flight = []) (ctx : Byte) (a : Nat) (d : List Byte) :
    s.schedWriter ctx a d = none := by
  simp only [State.schedWriter, h, h2, List.find?_nil, Option.map_none, List.findSome?_eq_none_iff]
  intro x _
  have e1 : List.findSome? (fun c : CoreId => (none : Option (TileId × CoreId × Nat))) (List.finRange 4) = none := rfl
  have e2 : List.findSome? (fun c : ChanId => (none : Option (TileId × ChanId × SlMove))) (List.finRange 8) = none := rfl
  simp [e1, e2]

theorem tile_reset (n : TileId) : State.reset.tile n = Tile.reset := by
  simp [State.tile, State.reset]

/-- No write is in flight. -/
theorem test_witness_schedAlone (ctx : Byte) (a : Nat) (d : List Byte) : (withFlds State.reset [(.SQ_STATUS 0, F.SQ_STATUS_MODE, 1)]).schedWriter ctx a d = none :=
  alone_of _ (fun t c => by
    have e : (withFlds State.reset [(.SQ_STATUS 0, F.SQ_STATUS_MODE, 1)]).core t c = Tile.reset.core c := by
      show (State.reset.tile t).core c = _
      rw [tile_reset]
    rw [e]; clear e; revert c; decide +kernel) (fun t c => by
    have e : (withFlds State.reset [(.SQ_STATUS 0, F.SQ_STATUS_MODE, 1)]).chan t c = Tile.reset.chan c := by
      show (State.reset.tile t).chan c = _
      rw [tile_reset]
    rw [e]; clear e; revert c; decide +kernel) ctx a d

theorem patternRefusal_congr (w v : Nat → Word64) (h : ∀ j, j < 4 → w j = v j) : patternRefusal w = patternRefusal v := by
  have e : ∀ k ∈ List.range 50, windowCode w k = windowCode v k := fun k hk => by
    have : k / 16 < 4 := by have := List.mem_range.1 hk; omega
    simp [windowCode, h _ this]
  have e1 := List.map_congr_left e
  have e2 : (List.range 50).filter (fun k => windowCode w k == 2) = (List.range 50).filter (fun k => windowCode v k == 2) :=
    List.filter_congr (fun k hk => by rw [e k hk])
  simp only [patternRefusal, e1, e2]

/-- Staged patterns of stack 0 for some pseudo-channels: REFRESH in windows 0 to 3 and 25 to 28. -/
def stagePats (L : List Nat) (s : State) : State :=
  L.foldl (fun s q => (s.wr (.HB_PAT 0 q 0) 0xAA#64).wr (.HB_PAT 0 q 1) (BitVec.ofNat 64 (0xAA * 4 ^ 9))) s

theorem stagePats_staged (L : List Nat) (s : State) (p j : Nat) (_ : j < 4) : (stagePats L s).staged 0 p j =
    if p ∈ L ∧ j = 0 then 0xAA else if p ∈ L ∧ j = 1 then BitVec.ofNat 64 (0xAA * 4 ^ 9) else s.staged 0 p j := by
  induction L generalizing s with
  | nil => simp [stagePats]
  | cons q L ih =>
    have e : stagePats (q :: L) s = stagePats L ((s.wr (.HB_PAT 0 q 0) 0xAA#64).wr (.HB_PAT 0 q 1) (BitVec.ofNat 64 (0xAA * 4 ^ 9))) := rfl
    rw [e, ih]
    by_cases h : p = q <;> by_cases h0 : j = 0 <;> by_cases h1 : j = 1 <;> simp_all [State.staged, State.rd_wr]

theorem test_witness_TierControls_load : (List.range 64).find? (fun p => patternRefusal ((stagePats (List.range 64) State.reset).staged 0 p) != 0) = none := by
  rw [List.find?_eq_none]
  intro p hp
  rw [patternRefusal_congr _ (fun j => if j = 0 then 0xAA else if j = 1 then BitVec.ofNat 64 (0xAA * 4 ^ 9) else 0)
    (fun j hj => by rw [stagePats_staged _ _ _ _ hj]; simp [hp]; rfl)]
  decide

/-- A flit toward slab 0, and a request of tier 1. -/
def flit0 : SchedFlit := { stop := .tile 0, ctx := 0, addr := slabAddr 0 0x40, data := [1, 2, 3], signal := none, crcOk := true, collided := false }
def hbm0 : HbmRequest := { write := true, ctx := 0, addr := 0x700050, data := [1, 0, 3], window := 2, position := 0, arrival := 60, source := .core 0 0 3 }

/-- The locked granule in a cycle. -/
def sLockedAt (cycle : Nat) : State := withFlds sLocked [(.TB_CYCLE, F.TB_CYCLE_CYCLE, cycle)]

theorem test_witness_ScheduledAccessesAtTheirEnds :
    Runs sSched ∧ sSched.cycle < 1800 ∧ 1800 ≤ (sLockedAt 1800).cycle ∧ sSched.home.resv = [] ∧ sSched.memUE = [] ∧
    sSched.fld (.SQ_STATUS 0) F.SQ_STATUS_MODE = 1 ∧ sSched.fld (.SQ_STATUS 1) F.SQ_STATUS_MODE = 0 ∧
    (sSched.tile 0).wait = none ∧ sSched.ownerOk 0 (slabBase + 0x5FFFFF) true = true ∧
    (sSchedWrite.schedWriter 0 flit0.addr flit0.data).bind (fun x => x.getLeft?) = some (2, 1, 5) ∧
    MayCommand (sLockedAt 50) 0 hbm0 ∧ MayCommand (sLockedAt 72) 0 hbm0 ∧ (sLockedAt 50).ownerOk 0 hbm0.addr true = true ∧
    (withFlds (sLockedAt 50) [(.SLAB_OWN 0 0, F.SLAB_OWN_CTX, 5)]).ownerOk 5 (slabAddr 0 0) true = true ∧
    ¬ MayCommand (sLockedAt 73) 0 hbm0 ∧
    (let s := { sLockedAt 50 with home := { sLocked.home with hbmReads := [⟨.core 0 0 3, 0, 0x700000, List.replicate 256 1, false, 100, false⟩] } }
     s.home.hbmReads.find? (fun r => !r.arrived && r.source == hbm0.source && r.ctx == hbm0.ctx && r.line == hbm0.addr / 256 * 256) =
       some ⟨.core 0 0 3, 0, 0x700000, List.replicate 256 1, false, 100, false⟩ ∧ s.cycle + (100 - (1800 * (s.rd .TB_TURN).toNat + s.cycle)) < 1800 ∧
       s.ueIn 0x700000 256 = none) ∧
    sTierOp.home.tierOps.find? (fun o => o.line == 0x700040 && o.write.isSome == false && !o.issued) = some ⟨0x700040, none, false, false⟩ ∧
    (sLockedAt 50).window 0 (0x700050 / 2048 % 64) 1 = 0 ∧ (50 < 36 * (1 + 1)) ∧ sTierOp.home.held = [] ∧ sTierOp.zeroing = [] ∧
    Runs sZero ∧ (3 : StackId) ∈ sZero.zeroing ∧ (2 : StackId) ∉ sZero.zeroing := by
  unfold MayCommand FreePosition Runs; (repeat' apply And.intro) <;> decide +kernel

theorem test_witness_TierControls :
    (∀ x ∈ [(State.reset, 0, 0), (sScratch [], 5, 1)], Runs x.1 ∧ x.1.fld .RSV_SCRATCH F.RSV_SCRATCH_WAYS = x.2.1 ∧
      x.1.fld .RSV_SCRATCH F.RSV_SCRATCH_BUSY = x.2.2 ∧ x.1.fld .ROT_STATUS F.ROT_STATUS_STATE = 0) ∧
    (sScratch []).home.resv = [] ∧ (sScratch []).home.held = [] ∧ (3 : SliceId) ∉ (sScratch []).home.scratchDone ∧
    (sScratch ((List.finRange 32).drop 1)).home.scratchDone.length = 31 ∧ (0 : SliceId) ∉ (sScratch ((List.finRange 32).drop 1)).home.scratchDone ∧
    (List.range 64).find? (fun p => patternRefusal (State.reset.staged 0 p) != 0) = some 0 ∧
    sLocked.fld .ROT_STATUS F.ROT_STATUS_STATE ≠ 0 ∧
    State.reset.rd (.SLAB_OWN 47 23) ≠ (0x1FF#32).setWidth 64 ∧ sSched.fld (.SQ_STATUS 0) F.SQ_STATUS_MODE = 1 ∧
    (State.reset.tile 47).kernel = none ∧ (State.reset.tile 47).fill = none ∧ (∀ c ∈ List.range 8, State.reset.chanState 47 c = 0) ∧
    (sFill.tile 0).fill = some (1, 0x105) ∧
    Runs sT2 ∧ sT2.fld (.T2_STATUS 0) F.T2_STATUS_STATE = 1 ∧ sT2.fld (.T2_STATUS 3) F.T2_STATUS_STATE = 0 ∧ sT2.home.txns = [] ∧ sT2.home.retry = [] ∧
    sT2.home.ownerWait = [] ∧ sT2.home.held = [] ∧ inTier2 0 0x10000000040 = true ∧ inTier2 1 0x10000000040 = false ∧ sT2.txnAt 0x10000000040 = none := by
  unfold Runs; (repeat' apply And.intro) <;> decide +kernel

theorem test_witness_ContextAndTableCommands :
    (let s := sTrRun (.unmap 5 [])
     Runs s ∧ s.rst.phase ≠ .mirrors ∧ s.fld .TR_STATUS F.TR_STATUS_BUSY = 1 ∧ s.xl.run = some (.unmap 5 []) ∧ s.drained 5 [] = true ∧
       (sOwes s).drained 5 [] = false) ∧
    (let s := sTr 0x20107 0x200000 2
     TrFree s ∧ (s.rd .TR_ARG0).toNat = 7 + 1 * 2 ^ 8 + 2 * 2 ^ 16 + 0 * 2 ^ 24 ∧ (s.rd .TR_ARG2).toNat = 2 ∧ s.ctxValid 7 = false ∧ s.ctxValid 5 = true ∧
       s.createFieldBad 1 2 0 = false ∧ s.createFieldBad 0 2 0 = true ∧ (List.range 255).find? (fun n => !s.ctxValid (BitVec.ofNat 8 (n + 1))) = some 1) ∧
    (let s := sTr 5 0 0
     (s.rd .TR_ARG0).toNat < 256 ∧ s.rd .TR_ARG1 = 0 ∧ s.rd .TR_ARG2 = 0 ∧ s.ctxInUse 5 = false ∧ (sWaits .barrier).ctxInUse 5 = true) ∧
    (let s := sTr 5 0x10000 0x11000
     (s.rd .TR_ARG1).toNat % 4096 = 0 ∧ (s.rd .TR_ARG2).toNat % 4096 = 0 ∧ (s.rangesIn 5 0x10000 0x21000).length = 2 ∧ s.rangesIn 5 0x30000 0x31000 = [] ∧
       s.home.resv = [] ∧ s.fld .ROT_STATUS F.ROT_STATUS_STATE = 0 ∧ (∀ e : EngineId, s.bound e 5 = false) ∧
       (sCached s 1).pinnedCopy 5 (s.rangesIn 5 0x10000 0x21000) = true) ∧
    (sTrRun (.create 7 1 2 0 0x200000 2)).tableOk 0x200000 2 = true ∧ (sTrRun (.create 7 1 2 0 0x200010 2)).tableOk 0x200010 2 = false ∧
    (sTrRun (.rebase 5 0x200000 4097)).xl.run = some (.rebase 5 0x200000 4097) ∧
    (let s := sTrRun (.destroy 5 []); s.drained 5 [] = true ∧ s.xl.faults = [] ∧ s.xl.refused = []) := by
  unfold TrFree Runs; (repeat' apply And.intro) <;> decide +kernel

theorem test_witness_PinsAndOwners :
    (let s := sTr 0x4005 0x10004 0
     TrFree s ∧ (s.rd .TR_ARG0).toNat < 2 ^ 15 ∧ s.argCtx = 5 ∧ s.ctxValid 5 = true ∧ bitsOf (s.rd .TR_ARG0) 13 8 = 0 ∧ s.rd .TR_ARG2 = 0 ∧
       s.rangeWalk 5 0x10004 ≠ none ∧ s.rangeWalk 5 0x30000 = none ∧ (s.rangeWalk 5 0x10004).any (fun e => e.cls == .localMem) = true ∧
       (s.tile 0).rcS.length = 0 ∧ ((sCached s 48).tile 0).rcV.length = 48 ∧ ((sCached s 48).tile 0).rcV.all (fun e => e.pinned) = true) ∧
    bitsOf ((sTr 0x3005 0 0).rd .TR_ARG0) 13 8 = 48 ∧
    (let s := sTr 0x100 0x600000 2
     TrFree s ∧ (s.rd .TR_ARG0).toNat < 512 ∧ s.ctxValid s.argCtx = true ∧ s.ownRefusal 0 0x600000 2 = 0 ∧ s.ownRefusal 5 0x600000 2 = 10 ∧
       s.home.resv = [] ∧ s.home.dir = [] ∧ s.home.culvert = none ∧ ownerIndex 0x600000 = some 3) ∧
    (let s := sOwn true
     Runs s ∧ s.xl.run = some (.own 5 true 0x600000 1) ∧ s.home.resv = [] ∧ s.home.dir = [] ∧ s.home.txns = [] ∧ s.home.retry = [] ∧ s.home.flips = [] ∧
       s.home.tierOps = [] ∧ s.home.refills = [] ∧ ownerIndex (0x600000 + 0x200000) = some 4 ∧ s.regionBusy 0x600000 = false ∧
       ({ s with home := { s.home with tierOps := [⟨0x7FFFC0, none, false, false⟩] } } : State).regionBusy 0x600000 = true) := by
  unfold TrFree Runs; (repeat' apply And.intro) <;> decide +kernel

theorem test_witness_FaultsOfTranslation :
    (let s := sWaits (.walk 0x1FFFF accR 0x10008)
     Runs s ∧ (s.group g00).map (fun g => g.wait) = some (some (.walk 0x1FFFF accR 0x10008)) ∧ ((s.tile 0).kernel).map (fun k => k.ctx) = some 5 ∧
       s.rangeWalk 5 0x11FFF ≠ none ∧ s.rangeWalk 5 0x30008 = none ∧ s.joins 5 0x30008 accR = none ∧ s.faultRoom = false ∧
       (fqOn s).faultRoom = true ∧ (fqOn s).safe = false) ∧
    (let s := sEngine (fqOn (sTr 0 0 0)) 3
     Runs s ∧ s.fld (.ES_STATUS 1) F.ES_STATUS_STATE = 3 ∧ s.pasidCtx 1 5 = some 5 ∧ s.joins 5 0x30008 accR = none ∧ s.faultRoom = true) ∧
    (sEngine (fqOn (sTr 0 0 0)) 2).fld (.ES_STATUS 1) F.ES_STATUS_STATE = 2 ∧
    (let s := sFault (.group g00) (.fault 7 0x30008 accR 0x10008)
     Runs s ∧ s.xl.faults.find? (fun f => f.id == 7) = some ⟨7, 5, 0x3, accR, [(.group g00, 0x30008, accR)]⟩ ∧ s.xl.faults.find? (fun f => f.id == 4095) = none ∧
       (s.group g00).map (fun g => g.wait) = some (some (.fault 7 0x30008 accR 0x10008)) ∧ s.fld (.VC_EXC 0 0) F.VC_EXC_VALID = 0 ∧
       (∀ i, i < 64 → s.resLine (excRecordAt g00 { kVec with ctx := 5 } + i) = none)) ∧
    (sFault (.engine 1) .barrier).xl.faults.head? = some ⟨7, 5, 0x3, accR, [(.engine 1, 0x30008, accR)]⟩ ∧
    (sRefused.xl.refused = [⟨.group g00, 5, 0x30008, accR, 0⟩] ∧ sRefused.joins 5 0x30008 accR = none ∧ sRefused.safe = false ∧ sRefused.faultRoom = false ∧
      (fqOn sRefused).faultRoom = true) ∧
    (Runs sHot ∧ sHot.safe = false ∧ sHot.fld .AC_CTRL F.AC_CTRL_THRESH = 4 ∧ sHot.accCounts = [⟨5, 7, 4⟩, ⟨5, 6, 3⟩] ∧ sHot.fld .HL_CTRL F.HL_CTRL_ENABLE = 1 ∧
      (sHot.fld .HL_TAIL F.HL_TAIL_INDEX + 1) % 1024 ≠ sHot.fld .HL_HEAD F.HL_HEAD_INDEX % 1024) := by
  unfold Runs; (repeat' apply And.intro) <;> decide +kernel

theorem test_witness_EngineSlotsAndTheirMessages :
    (∀ n, n < 5 → Runs (sSlot n id) ∧ (sSlot n id).fld (.ES_STATUS 1) F.ES_STATUS_STATE = n) ∧
    ((sSlot 2 id).eslot 1).descOk = false ∧ ((sSlotSched 2).eslot 1).descOk = true ∧ (sSlotSched 2).fld (.ES_FIELD 1) F.ES_FIELD_FIELD = 1 ∧
    (withFlds (sSlotSched 2) [(.ES_FIELD 1, F.ES_FIELD_FIELD, 15)]).fld (.ES_FIELD 1) F.ES_FIELD_FIELD = 15 ∧
    (sSlotSched 2).fld (.ES_CTRL 1) F.ES_CTRL_SCHED_REQ = 1 ∧ (sSlot 2 id).fld (.ES_CTRL 1) F.ES_CTRL_SCHED_REQ = 0 ∧ bitOf ((sSlotSched 2).rd (.ES_DESC 1 0)) 9 = true ∧
    ((List.range 360).filter ((sSlotSched 2).esIssue 1)).length = 1 ∧ bitsOf ((sSlotSched 2).rd (.ES_DESC 1 2)) 8 0 = 3 ∧
    bitsOf ((withFlds (sSlotSched 2) [(.ES_DESC 1 2, ⟨31, 0⟩, 0)]).rd (.ES_DESC 1 2)) 8 0 = 0 ∧
    (sSlot 3 id).capOn 0 1 = true ∧ (withFlds (sSlot 3 id) [(.LV_CTRL, F.LV_CTRL_CLOSED, 1), (.LC_STATE, F.LC_STATE_STATE, 1)]).capOn 0 1 = false ∧
    (sSlot 3 id).fld (.ES_CTRL 1) F.ES_CTRL_HOLD = 1 ∧ ((sSlot 3 id).eslot 1).halted = false ∧
    (sSlot 3 id).fld (.ES_BIND 1) F.ES_BIND_FUNCTION = 0 ∧ (sSlot 3 id).fld (.ES_BIND 1) F.ES_BIND_VEC_BASE + 31 ≤ 2047 ∧
    (sSlot 3 id).safe = false ∧ (sSlot 3 id).twinActive = false ∧ (sSlot 3 id).hostWrites = [] ∧ (sSlot 3 id).pf0.sendable 8 = false ∧
    ({ State.reset.pf0 with msixEnable := true, msixMask := false, d3 := false, unmasked := [8] } : Func).sendable 8 = true ∧
    ((sSlot 3 (fun x => { x with ping := some (6, 8) })).eslot 1).ping = some (6, 8) ∧ (8 : Word16).toNat = 8 ∧ (7 : Word16).toNat < 8 ∧
    bitsOf ((sSlot 3 id).rd (.ES_DESC 1 1)) 31 16 = 20 ∧ (sSlot 3 id).fld (.ES_LAT 1) F.ES_LAT_RTT = 5 ∧
    sLocked.fld .ROT_STATUS F.ROT_STATUS_STATE ≠ 0 ∧ (sSlot 3 id).fld .ROT_STATUS F.ROT_STATUS_STATE = 0 := by
  unfold Runs; (repeat' apply And.intro) <;> decide +kernel

/-- A read of 32 bytes of slab 0, by context 5, in the slot's first granted issue. -/
def engReq : EngineRequest :=
  { inIssue := true, kind := 0, part := true, win := 2, entry := 0, ctx := 5, laddr := BitVec.ofNat 35 (slabAddr 0 0x100 / 256), sig := 3, tile := 4,
    payload := List.replicate 300 7 }

theorem test_witness_EngineRequestsAndAccesses :
    (let s := sSlot 3 id
     Runs s ∧ s.safe = false ∧ s.pasidCtx 1 5 = some 5 ∧ s.pasidCtx 1 6 = none ∧ s.rangeWalk 5 0x30000 = none ∧
       (s.rangeWalk 5 0x11FFF).any (fun x => x.cls == .localMem && x.vstart % 4096 == 0) = true ∧ bitOf (s.rd (.ES_DESC 1 0)) 8 = true ∧
       bitsOf (s.rd (.ES_DESC 1 0)) 24 16 = 4 ∧ (s.eslot 1).reqs.length + (s.eslot 1).walks.length = 0 ∧ s.translate (s.eslot 1).rc false 5 0x10044 accR = .miss ∧
       s.bound 1 5 = true ∧ s.bound 1 1 = false ∧ (s.eslot 1).owes = []) ∧
    (let s := sSlot 3 (fun x => { x with reqs := List.replicate 4 ⟨3, 5, .rdCurr, 0x40, true, true⟩, owes := [(5, true)] })
     bitsOf (s.rd (.ES_DESC 1 0)) 24 16 ≤ (s.eslot 1).reqs.length ∧ (s.eslot 1).owes.head? = some (5, true)) ∧
    bitOf ((withFlds (sSlot 3 id) [(.ES_DESC 1 0, ⟨31, 0⟩, 0x040201)]).rd (.ES_DESC 1 0)) 8 = false ∧
    (let s := (sSlot 3 id).setBound 1 5 false
     s.ctxField 5 = s.fld (.ES_FIELD 1) F.ES_FIELD_FIELD ∧ s.fld (.CTX_ENTRY1 5) F.CTX_ENTRY1_FUNCTION = s.fld (.ES_BIND 1) F.ES_BIND_FUNCTION ∧
       (s.setFld (.CTX_ENTRY1 5) F.CTX_ENTRY1_FIELD 2).ctxField 5 ≠ s.fld (.ES_FIELD 1) F.ES_FIELD_FIELD) ∧
    (let s := sSlotSched 3
     Runs s ∧ s.fld (.ES_STATUS 1) F.ES_STATUS_STATE = 3 ∧ s.fld (.ES_STATUS 1) F.ES_STATUS_SCHED = 1 ∧ s.engineSchedOk 1 engReq = true ∧
       s.engineSchedOk 1 { engReq with entry := 1 } = false ∧ s.engineOwnerRefused 1 { engReq with entry := 1 } = false ∧
       s.ueIn (slabAddr 0 0x100 + 64) 32 = none ∧ ({ s with memUE := [slabAddr 0 0x100 + 64] } : State).ueIn (slabAddr 0 0x100 + 64) 32 ≠ none) ∧
    (∀ b, b < 2 → (sMmio 3 5 b 1).fld (.ES_MMIO_STAT 1) F.ES_MMIO_STAT_BUSY = b) ∧ (sMmio 3 5 0 1).fld (.ES_MMIO_ADDR 1) F.ES_MMIO_ADDR_BAR = 5 ∧
    (sMmio 3 6 0 0).fld (.ES_MMIO_ADDR 1) F.ES_MMIO_ADDR_BAR = 6 ∧ (sMmio 1 5 0 1).fld (.ES_STATUS 1) F.ES_STATUS_STATE = 1 ∧ (sMmio 3 5 0 1).twinActive = false := by
  unfold Runs; (repeat' apply And.intro) <;> decide +kernel

/-- A list of four arguments. -/
def args7 (a b c d : Word64) : Vector Word64 7 := ⟨#[a, b, c, d, 0, 0, 0], rfl⟩

/-- Channel 0 of tile 0 executes a descriptor. -/
def sDesc (d : SlDesc) (pieces : List SlMove) : State := sChan 1 0 (fun x => { x with nextId := 9, desc := some d, todo := pieces, enq := pieces.length })

/-- A slab with a COPY-less INLINE descriptor at 0x40. -/
def sFetch (dst : Nat) : State :=
  { sChan 1 0 (fun x => { x with next := 0x40 }) with
    mem := cellsAt (slabAddr 0 0x40) ([0x13, 0, 0, 0xFF, 0, 0, 0, 0] ++ leBytes 8 0 ++ leBytes 8 dst ++ leBytes 8 32 ++ [1, 2, 3]) }

/-- The anchor of a wide partial of that slab. -/
def slabAnchor (a : Nat) : BitVec 16 := (Wide.ofBits (BitVec.ofNat 256 ((sChan 1 0 id).rdNat (slabAddr 0 a) 32))).anchor

theorem test_witness_SluiceChannels :
    (let s := sFetch 0x400
     let d := SlDesc.ofBytes (s.rdBytes (slabAddr 0 0x40) 64) 0x40
     Runs s ∧ s.chanLive 0 0 = true ∧ (s.chan 0 0).desc = none ∧ (s.chan 0 0).ahead = [] ∧ (s.chan 0 0).next = 0x40 ∧ s.memUE = [] ∧
       d.wordStatus (s.rdBytes (slabAddr 0 0x40) 64) false = 0 ∧ s.descStatus 0 d = 0 ∧ (s.slParts 0 d false).length = 1 ∧ s.slIndex 0 d = 0 ∧
       ((s.slParts 0 d false).head?.bind (fun p => moveOf (s.slPiece 0 d false 0 0 none p))).isSome = true) ∧
    (let d := slDesc 0 false (args7 0x1000 0x5FFFE0 32 1)
     let s := sDesc d [slMove 4 .copy (some (own 0x1000)) (some (own 0x5FFFE0))]
     ChanAt s 0 0 d 0 ∧ (s.chan 0 0).desc = some d ∧ s.memUE = [] ∧ s.home.resv = [] ∧ (s.chan 0 0).flight = [] ∧ s.slAll 0 0 d = true ∧
       OwnPlace s 0 0 (some (own 0x5FFFE0)) 0x5FFFE0 32) ∧
    (let d := slDesc 4 false (args7 0x1000 0x3000 1 0x1020)
     let s := sDesc d [slMove 4 .first (some (own 0x1000)) none, slMove 5 .second (some (own 0x1020)) none, slMove 6 .sum none (some (own 0x3000))]
     s.slAll 0 0 d = true ∧ d.dsp = 0 ∧ d.a[2] = 1 ∧ (s.chan 0 0).todo.length = 3) ∧
    slabAnchor 0x1000 = 7 ∧ slabAnchor 0x1020 = 7 ∧ slabAnchor 0x1040 = 8 ∧
    (let s := sChan 2 0 id
     Runs s ∧ s.fld (.SL_STATUS 0 0) F.SL_STATUS_STATE = 2 ∧ s.rd (.SQ_SIG 0 3) = 50 ∧ s.rd .TB_TURN = 6 ∧ s.cycle = 100 ∧ s.chipId = 0 ∧
       bitsOf (0x2F03 : Word64) 13 8 = 47) ∧
    (∀ l, l < 3 → ((sChan 1 0 (fun x => { x with lc := l })).chan 0 0).lc = l) ∧
    (let s := sChan 1 0 (fun x => { x with flight := [slMove 4 .copy (some ⟨.host0, 0x5000, .normal⟩) (some (own 0x1008))] })
     (s.chan 0 0).flight.length = 1 ∧ (s.chan 0 0).ending = none ∧ s.chanSched 0 0 = false) ∧
    ((sChan 1 0 (fun x => { x with ending := some 9 })).chan 0 0).ending = some 9 ∧
    (State.reset.tile 47).wait = none ∧ (cans 0x0A 47 7 0).dstAgent.toNat = 47 ∧ (cans 0x0A 48 7 0).dstAgent.toNat = 48 ∧
    (cans 0x0A 47 7 0).dstChip.toNat = State.reset.chipId := by
  unfold ChanAt OwnPlace Runs; (repeat' apply And.intro) <;> decide +kernel

/-- A tile of a state whose tiles are those of reset. -/
theorem nothingWaits_of (s : State) (h : s.tiles = State.reset.tiles) (hl : ∀ l : LinkId, (s.link l).carried = []) : NothingWaits s := by
  have ht (k : TileId) : s.tile k = Tile.reset := by
    rw [← tile_reset k]; simp [State.tile, h]
  have hc (k : TileId) (c : ChanId) : s.chan k c = Tile.reset.chan c := by simp [State.chan, ht]
  refine ⟨fun k => by rw [ht]; exact ⟨rfl, rfl⟩, hl, fun k c => ?_⟩
  rw [hc]; revert c; decide +kernel

/-- Link 0 with an S-SEND slot 5 of stream 5, a queue for it and a parcel that is relayed. -/
def sSlots (kind : Nat) (point : Nat) : State := sCanal 2 2 (fun x => { x with
  slotMap := [(5, BitVec.ofNat 16 (kind * 2 ^ 14 + 5))], sendQ := [⟨5, 0, none, 5, .inl (dparcel 4 0 false)⟩]
  relayQ := [⟨point, .inl (dparcel 4 0 false)⟩] })

theorem test_witness_SlotsOfCanalLinks :
    (∀ n ∈ [0, 1, 2, 359], SlotDue (sCanal 2 2 id) 0 n) ∧ SlotDue (withFlds (sCanal 2 2 id) [(.TB_CYCLE, F.TB_CYCLE_CYCLE, 1800)]) 0 386 ∧
    (sCanal 2 2 id).safe = false ∧ (sCanal 2 2 id).epochValid = false ∧ (withFlds (sCanal 2 2 id) [(.ROT_STATUS, F.ROT_STATUS_EPOCH_VALID, 1)]).epochValid = true ∧
    (sCanal 2 2 id).fld (.LK_PING 0) F.LK_PING_LAT_VALID = 1 ∧ ((sCanal 2 2 id).link 0).ping.due = none ∧
    (withFlds (sCanal 2 2 id) [(.WM_STATE, F.WM_STATE_SAFE, 1)]).safe = true ∧
    SlotDue (sTwinLink id) 35 2 ∧ (sTwinLink id).fld .TB_CHIP F.TB_CHIP_TWIN = 1 ∧ (sTwinLink id).twin.own ≠ none ∧
    ((sCanal 2 0 id).link 0).replaying = 0 ∧ ((sCanal 2 0 id).link 0).retry = [] ∧ ((sCanal 2 0 id).link 0).cOut = [] ∧ ((sCanal 2 0 id).link 0).sigOut = [] ∧
    ((sCanal 2 0 (fun x => { x with cOut := [creq 1 3 0x40], credReq := 1 })).link 0).cOut.length = 1 ∧ ((sCanal 2 0 (fun x => { x with credReq := 1 })).link 0).credit (creq 1 3 0x40) = true ∧
    (sSlots 1 0).rotRunning = true ∧ bitsOf ((Assoc.get? ((sSlots 1 0).link 0).slotMap 5).getD 0) 15 14 = 1 ∧
    bitsOf ((Assoc.get? ((sSlots 2 0).link 0).slotMap 5).getD 0) 15 14 = 2 ∧ ((sSlots 2 0).link 0).halted = false ∧
    (sSlots 2 0).fld (.CN_STATUS 0) F.CN_STATUS_S_BLOCKED = 0 ∧ (∀ p ∈ [23, 24], ((sSlots 2 p).link 0).relayQ.length = 1) ∧
    1800 * ((sSlots 2 23).rd .TB_TURN).toNat + 5 * 5 = 23 + 2 ∧
    5 ∈ ((sCanal 2 2 (fun x => { x with mapUE := [5] })).link 0).mapUE ∧
    (sCanal 1 0 id).fld (.CN_STATUS 0) F.CN_STATUS_LSTATE ≠ 2 ∧ (sCanal 2 2 id).rotState ≠ 0 ∧ (sCanal 2 0 id).rotState = 0 := by
  unfold SlotDue Runs; (repeat' apply And.intro) <;> decide +kernel

theorem test_witness_CanalLinkStates :
    (∀ st, st < 4 → Runs (sCanal st 0 id) ∧ (sCanal st 0 id).fld (.CN_STATUS 0) F.CN_STATUS_LSTATE = st) ∧ NothingWaits (sCanal 2 0 id) ∧
    ((sCanal 2 0 id).link 0).ping.busy = false ∧ (sCanal 3 0 id).fld (.CN_CTRL 0) F.CN_CTRL_ENABLE = 1 ∧
    (sCanal 2 0 id).fld (.LK_LAT 0) F.LK_LAT_IN = 40 ∧ (sCanal 2 0 id).linkUp 0 = true ∧ (sCanal 1 0 id).linkUp 0 = false ∧ (sCanal 2 0 id).chipId = 1 ∧
    ((sCanal 2 0 id).rd (.CN_REACH 0 0)).getLsbD 4 = true ∧ ({ creq 1 3 0x40 with dstChip := 4 } : CohMsg).dstChip.toNat / 32 = 0 ∧
    (∀ k : LinkId, ((sCanal 2 0 id).rd (.CN_REACH k.val 0)).getLsbD 5 = false) := by
  refine ⟨?_, nothingWaits_of _ rfl (by decide +kernel), ?_⟩
  · unfold Runs; decide +kernel
  · (repeat' apply And.intro) <;> decide +kernel

/-- An arrival of link 0 at a point. -/
def sArrival (p : DataParcel ⊕ SignalParcel) : State :=
  { sCanal 2 2 (fun x => { x with arrivals := [⟨1799, p⟩] }) with pending := [] }

theorem test_witness_CanalParcelsReceived :
    (let s := sArrival (.inl (dparcel 1 (slabAddr 0 0x1000) true))
     Runs s ∧ s.fld (.CN_STATUS 0) F.CN_STATUS_LSTATE = 2 ∧ s.rotRunning = true ∧ (s.link 0).arrivals.length = 1 ∧ s.appended = false ∧
       (1799 : Nat) < 1800 * (s.rd .TB_TURN).toNat + 1800 ∧ s.chipId = 1 ∧ s.memUE = [] ∧ s.home.resv = [] ∧ s.schedMode 0 = false ∧
       (withFlds s [(.SQ_STATUS 0, F.SQ_STATUS_MODE, 1)]).schedMode 0 = true ∧ s.slabOwned 0 0 0x1000 = true ∧
       (dparcel 1 (slabAddr 0 0x1000) true).laddr.toNat * 256 = slabAddr 0 0x1000 ∧
       (s.link 0).relayQ.length < 16 ∧ bitsOf (s.rd (.CN_STREAM 0 1)) 15 8 = 0x23 ∧ bitsOf (s.rd (.CN_STREAM 0 1)) 23 16 = 0xFF) ∧
    placeOf ((dparcel 1 0x700000 true).laddr.toNat * 256) = .tier1 ∧ (sArrival (.inr (sparcel 1 47))).backed 0xFFFFFFFF00 = false ∧
    (sparcel 1 47).tile.toNat = 47 ∧ (sparcel 1 48).tile.toNat = 48 ∧ NothingWaits (sArrival (.inr (sparcel 1 47))) ∧
    ((sCanal 2 0 (fun x => { x with errored := 7 })).link 0).errored + 1 = 8 ∧ ((sCanal 2 0 (fun x => { x with errored := 6 })).link 0).errored + 1 < 8 ∧
    slotAllows ((sCanal 2 2 id).twinLink 0) true 359 0 = true ∧ slotAllows ((sCanal 2 2 id).twinLink 0) true 360 0 = false ∧
    (let c : Container := { flits := [], seq := 0, ack := 3, nak := true, crReq := 4, crSnp := 5, crRsp := 6, crSigTile := none }
     let s := sCanal 2 0 (fun x => { x with retry := [{ c with seq := 3 }, { c with seq := 4 }], replays := 7 })
     (s.link 0).retry.length = 2 ∧ c.ack ∈ (s.link 0).retry.map (fun r => r.seq) ∧ c.crSigTile = none ∧ (s.link 0).replays < 8) := by
  have h := nothingWaits_of (sArrival (.inr (sparcel 1 47))) rfl (by decide +kernel)
  unfold Runs; (repeat' apply And.intro) <;> first | exact h.1 | exact h.2.1 | exact h.2.2 | decide +kernel

theorem test_witness_SeverityWritesAndAcceptedClears :
    (sWmSrc 191 1 0 0 2).dark = false ∧ (sWmSrc 191 1 0 0 2).journal = [] ∧ (sWmSrc 191 1 0 0 2).fld (.WM_SRC 191) F.WM_SRC_STATUS = 0 ∧
    (sWmSrc 0 1 1 3 2).fld (.WM_SRC 0) F.WM_SRC_STATUS = 1 ∧ (sWmSrc 0 1 1 3 2).causeHolds 0 = false := by
  (repeat' apply And.intro) <;> decide +kernel

theorem test_witness_RaiseIsAnEvent :
    State.reset.dark = false ∧ State.reset.journal = [] ∧ State.reset.wmEvents = [] ∧ (156 : Byte).toNat = 156 ∧ (191 : Byte).toNat = 191 ∧ (155 : Byte).toNat < 156 := by
  decide

theorem test_witness_WatermasterTakesEvents :
    (∀ x ∈ [(0, 0, 0, 0), (1, 0, 0, 0), (1, 0, 0, 1), (1, 0, 0, 2), (1, 1, 1, 0), (1, 1, 2, 0), (1, 1, 3, 0)],
      let s := sWmEvent 13 x.1 x.2.1 x.2.2.1 x.2.2.2 [5] (some 47)
      s.dark = false ∧ s.journal = [] ∧ s.wmEvents = [⟨13, [5], some 47⟩] ∧ s.fld .TR_TRIG F.TR_TRIG_ARM = 0 ∧ s.pf0.d3 = false ∧ s.safe = false ∧
        s.fld (.WM_SRC 13) F.WM_SRC_ENABLE = x.1 ∧ s.fld (.WM_SRC 13) F.WM_SRC_STATUS = x.2.1 ∧ s.fld (.WM_SRC 13) F.WM_SRC_LEVEL = x.2.2.1) ∧
    State.reset.fld .LC_STATE F.LC_STATE_STATE = 0 ∧ (withFlds State.reset [(.LC_STATE, F.LC_STATE_STATE, 1)]).fld .LC_STATE F.LC_STATE_STATE ≠ 0 ∧
    State.reset.fld (.WM_SRC 7) F.WM_SRC_FORCE = 0 ∧ (withFlds State.reset [(.WM_SRC 7, F.WM_SRC_FORCE, 1)]).fld (.WM_SRC 7) F.WM_SRC_FORCE = 1 ∧
    (sVector (sWmEvent 13 1 0 0 1 [] none)).pf0.sendable 9 = true ∧ (sWmEvent 13 1 0 0 1 [] none).pf0.sendable 9 = false ∧
    (sDrain id).safe = true ∧ (sDrain id).fld .WM_STATE F.WM_STATE_DRAINED = 0 ∧ (sDrain id).msixWait = [] ∧
    (sDrain id).hostWrites.all (fun w => w.src == .block) = true ∧ (∀ l : LinkId, ((sDrain id).link l).cOut = []) := by
  (repeat' apply And.intro) <;> decide +kernel

theorem test_witness_TwinChecking :
    Runs (sTwinLink id) ∧ (sTwinLink id).twinActive = true ∧ (sTwinLink id).safe = false ∧ (sTwinLink id).linkUp 35 = true ∧ (sTwinLink id).twinLink 35 = true ∧
    (sTwinLink id).twinLink 0 = false ∧ (sTwinLink id).twin.own = some ⟨7, 3, 2, 1, false, false⟩ ∧ (sTwinLink id).chipId = 1 ∧ (sTwinLink id).twin.copy = none ∧
    (sTwinLink id).twin.rb.length < 16384 ∧ State.reset.twinActive = false := by
  unfold Runs; (repeat' apply And.intro) <;> decide +kernel

/-- The home slice of line 0x700040. -/
def n7 : SliceId := homeSlice 0x700040

theorem test_witness_RequestsAtTheirHome :
    HomeAt (sHome none true) n7 (creq 1 3 0x700040) 1 ∧ (sHome none true).dirFind 0x700040 = none ∧ HomeAt (sHome none true) n7 (creq 7 55 0x700048) 7 ∧
    ((sHome none true).resLine 0x700040).any (fun l => l.addr == 0x700040 && l.bytes.length == 64 && !l.parity) = true ∧
    (sHome none true).dirWay 0x700040 = .way 0 ∧ (creq 5 3 0x700040).data.length = 64 ∧
    (sHome none false).resLine 0x700040 = none ∧ ((sHome none false).resvRoom 0x700040).isSome = true ∧ (creq 1 3 0x700060).addr.toNat % 64 = 32 ∧
    HomeAt (sHome (some (.owned, [4])) true) n7 (creq 2 3 0x700040) 2 ∧
    ((sHome (some (.owned, [4])) true).dirFind 0x700040).any (fun e => e.line == 0x700040 && e.presence == [4]) = true ∧
    ((sHome (some (.owned, [3])) true).dirFind 0x700040).any (fun e => e.line == 0x700040 && e.presence == [3]) = true ∧
    ((sHome (some (.lost, [])) true).dirFind 0x700040).any (fun e => e.state == .lost) = true ∧
    localOf (creq 1 3 (slabAddr 0 0x5FFFC0)).addr.toNat = slabAddr 0 0x5FFFC0 ∧ (sHome none false).schedMode 0 = false ∧ sSched.schedMode 0 = true ∧
    ((sHome none false).tile 0).draining = false ∧ (sHome none false).slabOwned 0 0 0x5FFFC0 = true ∧ (sHome none false).memUE = [] ∧ (sHome none false).home.resv = [] ∧
    (sHome none false).agentDead 3 = false ∧ (creq 8 3 0).opc.toNat ≠ 9 := by
  unfold HomeAt HomeOpen FromRider Runs; (repeat' apply And.intro) <;> decide +kernel

theorem test_witness_AnswersAtTheRequester :
    (let s := sAsk .acquire false true false
     Runs s ∧ (s.tile 0).findReq 7 = some ⟨7, .acquire, 0x700040⟩ ∧ (s.tile 0).findReq 8 = none ∧ (cans 0x40 0 7 2).dstAgent.toNat = 0 ∧ (cans 0x40 0 7 2).dstChip.toNat = s.chipId ∧
       ((sAsk .acquire true true false).tile 0).atoms.length = 2 ∧ ((s.updTile 0 (fun x => { x with atoms := [] })).tile 0).atomicsAt 0x700040 = []) ∧
    (let s := sAsk (.chan 0 4) false false false
     ((s.chan 0 0).flight.map (fun y => (y.id, y.src.isSome))) = [(4, true)]) ∧
    (let s := sAsk (.write 1 9) false false false; (s.tile 0).findReq 7 = some ⟨7, .write 1 9, 0x700040⟩ ∧ ∀ g : SlotId, (s.core 0 1).group g = none) ∧
    (cans 0x40 55 7 1).dstAgent.toNat = 48 + (7 : RiderId).val ∧ (cans 0x40 57 7 1).dstAgent.toNat = 56 + (1 : EngineId).val ∧
    ((sAsk .evict false false false).eslot 1).reqs.head? = some ⟨7, 5, .rdCurr, 0x40, true, false⟩ ∧ (cans 0x42 73 1 0).dstAgent.toNat = 72 + (1 : HostPortId).val := by
  unfold Runs; (repeat' apply And.intro) <;> decide +kernel

theorem test_witness_SnoopedAgents :
    Here (sAsk .evict true false false) (cans 0x20 0 7 0) 0x20 ∧ ((sAsk .evict true false false).heldLine 0 0x700040).map (fun x => x.2) = some true ∧
    ((sAsk .evict false false false).heldLine 0 0x700040).map (fun x => x.2) = some false ∧ (sAsk .evict false false true).heldShared 0 0x700040 = true ∧
    (sAsk .evict false false false).heldShared 0 0x700040 = false ∧ (sAsk .evict true false false).heldLine 1 0x700040 = none ∧
    ((sAsk .evict true false false).heldLine 48 0x700040).map (fun x => x.2) = some true ∧ (cans 0x23 55 7 0).dstAgent.toNat < 56 ∧ 56 ≤ (cans 0x23 56 7 0).dstAgent.toNat := by
  unfold Here Runs; (repeat' apply And.intro) <;> decide +kernel

/-- The transaction of sTxn. -/
def txn7 (q : CohMsg) (stage : TxnStage) (owed : List Byte) : Txn := ⟨0x700040, some q, false, stage, owed, [], none, false, []⟩

theorem test_witness_RepliesAndDataAtTheHome :
    (∀ o ∈ [1, 2, 4],
      let q := creq o 3 0x700040
      let s := sTxn (some (.owned, [4])) true q .snoop [4] []
      s.home.txns.head? = some (txn7 q .snoop [4])) ∧
    ReplyAt (sTxn (some (.owned, [4])) true (creq 1 3 0x700040) .snoop [4] []) n7 { creq 0x47 4 0x700040 with dstAgent := 96 } 0x47 (txn7 (creq 1 3 0x700040) .snoop [4]) (creq 1 3 0x700040) ∧
    (sTxn (some (.owned, [4])) true (creq 1 3 0x700040) .snoop [4] []).dirFind 0x700040 ≠ none ∧
    (sTxn (some (.shared, [4])) true (creq 2 3 0x700040) .snoop [4] []).resLine 0x700040 ≠ none ∧
    TxnIs (sTxn none true (creq 1 3 0x700040) .ack [] []) n7 0x700040 (txn7 (creq 1 3 0x700040) .ack []) (creq 1 3 0x700040) .ack ∧
    TxnIs (sTxn none false (creq 4 3 0x700040) .mem [] []) n7 0x700040 (txn7 (creq 4 3 0x700040) .mem []) (creq 4 3 0x700040) .mem ∧
    (sTxn none false (creq 4 3 0x700040) .mem [] []).home.tierOps = [⟨0x700040, none, true, false⟩] ∧
    (∀ d ∈ [false, true], (sTxn none false (creq 6 3 0x700040) .mem [] [⟨0x700040, d, [], false, false⟩]).home.refills = [⟨0x700040, d, [], false, false⟩] ∧
      inHalf (creq 6 3 0x700040) d = !d) ∧
    (sTxn none false (creq 6 3 0x700040) .mem [] []).memUE = [] ∧ (∀ i, i < 64 → (sTxn none false (creq 6 3 0x700040) .mem [] []).resLine (0x700040 + i) = none) ∧
    ((sTxn none false (creq 6 3 0x700040) .mem [] []).resvRoom 0x700040).isSome = true ∧
    HomeOpen (sWaiting (creq 4 3 0x700040) true) n7 (creq 4 3 0x700040) 4 ∧ (sWaiting (creq 4 3 0x700040) true).home.retry = [creq 4 3 0x700040] ∧
    (sWaiting (creq 4 3 0x700040) true).home.ownerWait = [(3, creq 4 3 0x700040)] := by
  unfold ReplyAt TxnIs HomeOpen FromRider Runs; (repeat' apply And.intro) <;> decide +kernel

theorem test_witness_BiasAndLocks :
    (∀ b, b < 2 → Runs (sBias 5 100 10 b none) ∧ (sBias 5 100 10 b none).fld .BIAS_STATUS F.BIAS_STATUS_BUSY = b ∧ (sBias 5 100 10 b none).home.held = []) ∧
    (sBias 5 100 10 0 none).rotState = 0 ∧ (sBias 5 100 10 0 none).home.culvert = none ∧ (sBias 5 100 10 0 none).home.dir = [] ∧ (sBias 5 100 10 0 none).home.resv = [] ∧
    (sBias 5 100 10 0 none).fld (.LOCK 1) F.LOCK_START + (sBias 5 100 10 0 none).fld (.LOCK 1) F.LOCK_COUNT = 60 ∧
    (sBias 5 59 1 0 none).fld .BIAS_ARG F.BIAS_ARG_START < 60 ∧ (sBias 5 60 1 0 none).fld .BIAS_ARG F.BIAS_ARG_START = 60 ∧
    (sBias 5 100 0 0 none).fld .BIAS_ARG F.BIAS_ARG_COUNT = 0 ∧ (sBias 5 0 0x900000 0 none).fld .BIAS_ARG F.BIAS_ARG_COUNT = 0x900000 ∧
    (sBias 5 100 10 0 none).fld .CUL_BASE F.CUL_BASE_GIB * 2 ^ 14 = 0x8000 ∧
    (sBias 5 1 2 1 (some (.setDevice 1 2))).home.bias = some (.setDevice 1 2) ∧ (sBias 5 1 2 1 none).home.flips.find? (fun f => f.granule == 2) = some ⟨2, [], []⟩ ∧
    Runs (sDir none) ∧ ((sDir none).home.dir.map (fun e => e.line)).Nodup ∧ (sDir none).home.txns = [] ∧ (sDir none).home.held = [] ∧
    (sDir none).fld .LL_CTRL F.LL_CTRL_ENABLE = 0 ∧ ((sDir none).rd (.COH_DEAD 2)).getLsbD 9 = false ∧ (sDir (some [0])).home.txns.length = 1 ∧
    ((sDir (some [0])).home.txns.head?.map (fun x => x.owed)) = some [0] ∧
    (sDir none).home.dir.any (fun e => e.state == .lost && e.way == 6) = true := by
  unfold Runs; (repeat' apply And.intro) <;> decide +kernel

theorem test_witness_SamplesAndTheTraceRing :
    (let s := sSample 0 0 5 2
     Runs s ∧ s.fld .SMP_CTRL F.SMP_CTRL_ENABLE = 1 ∧ s.cycle = 0 ∧ s.turnNo.toNat % 3 = 0 ∧ s.home.resv = [] ∧
       placeOf (4 * 2 ^ 21 + 5 * 64) = .tier1 ∧ s.ownerOk 0 (4 * 2 ^ 21 + 5 * 64) true = true) ∧
    ((sSample 1 0 5 2).rd .TB_RAW - (sSample 1 0 5 2).obs.smpStart).toNat % 3 = 0 ∧ (sSample 0 1 5 9).fld .SMP_CTRL F.SMP_CTRL_GROUPS = 1 ∧
    (sSample 1 0 5 6).fld .SMP_TAIL F.SMP_TAIL_INDEX + 2 ^ 15 = (sSample 1 0 5 6).fld .SMP_HEAD F.SMP_HEAD_INDEX + 2 ^ 15 - 1 ∧
    (let s := sTrace 7 5 3 none []
     Runs s ∧ RingOpen s 2 ∧ traceSize s = 0x10000 ∧ s.fld .TR_CTRL F.TR_CTRL_ENABLE = 1 ∧ s.fld .TR_CTRL F.TR_CTRL_SYNC = 15 ∧
       s.fld .TR_CTRL F.TR_CTRL_KERNEL = 1 ∧ s.fld .TR_CTRL F.TR_CTRL_COMMAND = 0 ∧ s.obs.gaps = [] ∧
       s.fld .TRACE_STATUS F.TRACE_STATUS_FROZEN = 0 ∧ s.fld .TR_CTRL F.TR_CTRL_KEEP = 0 ∧
       (s.unitField (trRecord 1 0 0)).any (fun f => !s.capOn Cap.TRACE f) = false ∧
       s.fld .TR_MIN F.TR_MIN_MIN ≤ ((trRecord 1 0 0).t1 - (trRecord 1 0 0).t0).toNat ∧ (trRecord 5 1 1).typ = 5) ∧
    RingOpen (sTrace 0xFFFF 5 0x10000 (some 1) []) 2 ∧
    (let s := sTrace 7 5 3 none [(.LC_STATE, F.LC_STATE_STATE, 2)]
     (s.unitField (trRecord 1 0 0)).any (fun f => !s.capOn Cap.TRACE f) = true) ∧
    (let s := sTrace 7 5 0xE000 none [(.TR_CTRL, F.TR_CTRL_KEEP, 1)]
     traceSize s - traceSize s / 8 = s.fld .TR_COUNT F.TR_COUNT_VALUE ∧ s.obs.trigLeft = none) ∧
    (let s := { sTrace 7 5 3 none [(.TR_TRIG, F.TR_TRIG_ARM, 1)] with obs := { Obs.reset with triggers := [(1, 7, 45)], gaps := [(0xE000, 3, 11, 12)] } }
     s.obs.gaps.length = 1 ∧ s.obs.trigLeft = none ∧ s.fld .TR_TRIG F.TR_TRIG_ARM = 1 ∧ s.fld .TR_TRIG F.TR_TRIG_KIND = 0 ∧
       (s.obs.triggers.head?.map (fun x => (x.1, x.2.1))) = some ((1 : BitVec 3).toNat, (7 : Byte).toNat)) ∧
    (let s := sTrace 7 5 3 (some 8) [(.TR_TRIG, F.TR_TRIG_ARM, 1), (.TR_TRIG, F.TR_TRIG_KIND, 4), (.TR_TRIGTIME, ⟨63, 0⟩, 60)]
     s.fld .TR_TRIG F.TR_TRIG_KIND = 4 ∧ s.rd .TR_TRIGTIME = s.timestamp) ∧
    (let s := sTrace 7 5 3 none [(.TR_CTRL, F.TR_CTRL_ENABLE, 0), (.TRACE_STATUS, F.TRACE_STATUS_FROZEN, 1)]
     s.fld .TR_CTRL F.TR_CTRL_ENABLE = 0 ∧ s.fld .TRACE_STATUS F.TRACE_STATUS_FROZEN = 1) ∧
    (sTrace 7 5 3 none [(.TR_CTRL, F.TR_CTRL_DRAIN, 1)]).fld .TR_CTRL F.TR_CTRL_DRAIN = 1 := by
  unfold RingOpen Runs; (repeat' apply And.intro) <;> decide +kernel

theorem test_witness_BreakpointsAndHalts :
    (let s := sHalt 0 1 none 0
     Runs s ∧ s.seqReady 1 = true ∧ s.atBreak 1 = true ∧ s.obs.halt = none ∧ s.twinActive = false ∧
       (0x20007 : Word64).getLsbD 9 = false ∧ bitsOf (0x20007 : Word64) 8 0 = 7 ∧ (0x30007 : Word64).getLsbD 9 = false ∧ bitsOf (0x30007 : Word64) 31 16 = 3 ∧ (7, 2) ∈ s.obs.seen ∧ (7, 3) ∉ s.obs.seen ∧
       s.linkUp 3 = true ∧ s.linkUp 4 = false ∧ (wordMsg 3 137 47 78).srcAgent.toNat = 134 + (3 : LinkId).val ∧ (wordMsg 3 137 47 78).cls = 3 ∧
       (wordMsg 3 137 47 78).opB.toNat % 64 = (47 : TileId).val ∧ (wordMsg 3 137 48 1).opB.toNat % 64 = 48 ∧ (wordMsg 3 137 63 0x30007).opB.toNat % 64 = 63 ∧
       (wordMsg 3 138 1 1).srcAgent.toNat = 134 + (4 : LinkId).val ∧ (wordMsg 3 133 1 1).srcAgent.toNat < 134) ∧
    (sHalt 0 0 none 0).atBreak 1 = false ∧ (sHalt 1 1 none 0).twinActive = true ∧
    (let s := sHalt 0 1 (some ⟨1, 7, 2, 3, 4, false, none⟩) 1
     s.obs.halt = some ⟨1, 7, 2, 3, 4, false, none⟩ ∧ s.fld .OBS_STATUS F.OBS_STATUS_HALTED = 1 ∧ s.turnNo.toNat + 2 ≤ (100 : Word64).toNat ∧ 0 < (8 + 2 ^ 32 - s.turnNo.toNat % 2 ^ 32) % 2 ^ 32 ∧ (8 + 2 ^ 32 - s.turnNo.toNat % 2 ^ 32) % 2 ^ 32 < 2 ^ 31 ∧
       (0x800020207 : Word64).getLsbD 9 = true ∧ bitsOf (0x800020207 : Word64) 8 0 = 7 ∧ bitsOf (0x800020207 : Word64) 31 16 = 2 ∧
       bitsOf (0x800020207 : Word64) 63 32 = 8 ∧ bitsOf (0x0020207 : Word64) 63 32 = 0 ∧ bitsOf (0x8000000000020207 : Word64) 63 32 = 2 ^ 31) := by
  unfold Runs; (repeat' apply And.intro) <;> decide +kernel

theorem test_witness_DumpsAndSnapshots :
    (let s := sDump 0 5 2 [] none
     Runs s ∧ s.fld (.OBS_DP_CTRL 1) F.OBS_DP_CTRL_BUSY = 0 ∧ s.fld (.DUMP_CTRL 2) F.DUMP_CTRL_ARM = 1 ∧ s.fld (.DUMP_CTRL 2) F.DUMP_CTRL_TAG = s.fld (.OBS_DP_TAG 1) F.OBS_DP_TAG_TAG ∧
       s.fld (.DUMP_CTRL 2) F.DUMP_CTRL_ANYSTEP = 1 ∧ (∀ i ∈ List.range 2, s.fld (.DUMP_CTRL i) F.DUMP_CTRL_ARM ≠ 1) ∧
       s.capOn Cap.DUMP (s.leveeNibble .LV_TILE 1) = true ∧ s.schedMode 1 = false ∧ s.fld .TR_CTRL F.TR_CTRL_ENABLE = 0 ∧ s.memUE = [] ∧ s.home.resv = [] ∧
       s.fld (.DUMP_DEST 2) F.DUMP_DEST_LINE * 256 = 0x900000 ∧ placeOf 0x900000 = .tier1 ∧ s.rotLocked 0x900000 = false ∧ s.ownerOk 0 0x900000 true = true ∧
       s.fld .SNAP_CTRL F.SNAP_CTRL_BUSY = 0 ∧ s.obs.snap = false ∧ placeOf 0 = .tier1 ∧ (ownerIndex 0).any (fun e => s.ownerEntry e % 256 == 0) = true) ∧
    (∀ n ∈ List.range 16, ¬ ((sDump 0 4 2 [] none).fld (.DUMP_CTRL n) F.DUMP_CTRL_ARM = 1 ∧ (sDump 0 4 2 [] none).fld (.DUMP_CTRL n) F.DUMP_CTRL_TAG = 4)) ∧
    (let s := sDump 1 5 2 [(Reg.LOCK 0, F.LOCK_VALID, 1), (.LOCK 0, F.LOCK_START, 0x90), (.LOCK 0, F.LOCK_COUNT, 1), (.ROT_STATUS, F.ROT_STATUS_STATE, 2)] none
     s.schedMode 1 = true ∧ ∀ i ∈ List.range 3, placeOf (0x900000 + 256 * i) = .tier1 ∧ s.rotLocked (0x900000 + 256 * i) = true) ∧
    (let s := sDump 0 5 2 [(.LC_STATE, F.LC_STATE_STATE, 2)] none; s.capOn Cap.DUMP (s.leveeNibble .LV_TILE 1) = false) ∧
    (let s := sDump 0 5 2 [] (dump3 false 2 1 0 0x400 0x900000 none)
     (s.dump 1).map (fun d => (d.next, d.count, d.lines, d.sched, d.src + 256, d.result.isNone)) = some (1, 2, 3, false, 0x500, true) ∧ s.dump 2 = none) ∧
    (let s := sDump 1 5 2 [] (dump3 true 2 1 68492 0x400 0x900000 none)
     s.turnNo.toNat = (68492 + 8 + 1 * (s.fld (.OBS_DP_CTRL 1) F.OBS_DP_CTRL_PACE + 1)) / 1800 ∧ s.cycle = (68492 + 8 + 1 * (s.fld (.OBS_DP_CTRL 1) F.OBS_DP_CTRL_PACE + 1)) % 1800 - 10) ∧
    (let s := sDump 0 5 2 [(.TR_CTRL, F.TR_CTRL_ENABLE, 1), (.TR_CTRL, F.TR_CTRL_LOG2SIZE, 21), (.TR_BASE, F.TR_BASE_REGION, 4)] (dump3 false 2 4 0 0x400 0x900000 (some 3))
     RingOpen s 1 ∧ s.fld .TR_CTRL F.TR_CTRL_ENABLE = 1 ∧ s.obs.gaps = [] ∧ s.leveeNibble .LV_TILE 1 < 16 ∧ s.lifecycle = 0 ∧
       (s.dump 1).map (fun d => (d.result, d.request)) = some (some 3, some 2)) ∧
    ({ sDump 0 5 2 [(.SQ_SIG 1 63, ⟨63, 0⟩, 0x123456789A)] none with obs := { Obs.reset with snap := true } }).obs.snap = true ∧
    (let s := { sDump 0 5 2 [(.SNAP_BASE, F.SNAP_BASE_REGION, 9)] none with obs := { Obs.reset with captured := some ⟨3, [(0, 16)], [(16, 7)]⟩ } }
     s.obs.captured = some ⟨3, [(0, 16)], [(16, 7)]⟩ ∧ placeOf (s.fld .SNAP_BASE F.SNAP_BASE_REGION * 2 ^ 20) = .tier1 ∧ s.ownerOk 0 0x900000 true = true) := by
  unfold RingOpen Runs; (repeat' apply And.intro) <;> decide +kernel

/-- The culvert over a line of tier 1, with the line held or not and a move under way or not. -/
def sWin (dirHeld : Bool) (mv : Option (Option Nat)) (fs : List (Reg × Fld × Nat)) : State :=
  let s := sHome (if dirHeld then some (.owned, [6]) else none) true
  let s := withFlds s ([(.CUL_CTRL, F.CUL_CTRL_ENABLE, 1), (.PG_STATUS 0, F.PG_STATUS_LSTATE, 2), (.CUL_MOVE, F.CUL_MOVE_TARGET, 64)] ++ fs)
  { s with home := { s.home with culvert := mv, hostBias := [0x70, 0] , dir := if dirHeld then s.home.dir else [] } }

/-- A line of a host that a rider core holds. -/
def hrl (p : HostPortId) (c : RiderId) (a : Nat) (d : Bool) : HostPortId × RiderLine := (p, ⟨c, a, List.replicate 64 9, d, false, false⟩)

/-- A write toward a host. -/
def hw (id : Nat) (p : HostPortId) (src : HostSrc) : HostWr := ⟨id, p, 0, src, 0x5000, [(0x5000, 7)], true, false⟩

/-- A lane that reads a peer. -/
def lanePeer : Lane := {(default:Lane) with thread := 7, tgt := ⟨.peer, 0x1000, .stream⟩, sent := true, va := 0x99}

/-- Functions of the host ports, and contexts. -/
def sFn (fs : List (Reg × Fld × Nat)) (g : Func → Func) : State :=
  let s := withFlds State.reset ([(.PG_STATUS 0, F.PG_STATUS_LSTATE, 2), (.PG_STATUS 1, F.PG_STATUS_LSTATE, 2), (.LV_CTRL, F.LV_CTRL_CLOSED, 1), (.CTX_ENTRY1 5, F.CTX_ENTRY1_VALID, 1), (.CTX_ENTRY1 5, F.CTX_ENTRY1_FUNCTION, 1), (.CTX_ENTRY1 1, F.CTX_ENTRY1_VALID, 1), (.PG_ROLE, F.PG_ROLE_ROLE, 0x5A5), (.HG_CFG 3, F.HG_CFG_ENABLE, 1), (.HG_CFG 3, F.HG_CFG_LOG2N, 4)] ++ fs)
  { s with pf0 := g { s.pf0 with vfEnable := true, numVfs := 4 }, companion := g s.companion, vfs := s.vfs.map g }

/-- The bytes of a slot. -/
def hgBytes (opc ctl seq len caddr a0 a1 n : Nat) : List Byte := [BitVec.ofNat 8 opc, BitVec.ofNat 8 ctl, BitVec.ofNat 8 seq, BitVec.ofNat 8 len, 0x11, 0x22, 0x33, 0x44] ++ leBytes 8 caddr ++ leBytes 8 a0 ++ leBytes 8 a1 ++
  (if opc = 3 then (List.range 96).map (fun i => BitVec.ofNat 8 (i+1)) else leBytes 8 n ++ List.replicate 88 0)

/-- A consumed command. -/
def hcmd (slot : Nat) (started : Bool) (bs : List Byte) : HgCmd := ⟨slot, bs, started, 0, false, 0, [], [], none, [], false⟩

/-- Headgate 3, with a ring and ranges of its context. -/
def sHg (loc st : Nat) (fs : List (Reg × Fld × Nat)) (f : Head → Head) : State :=
  let entry (v p n cls perm : Nat) : List Byte := leBytes 8 v ++ leBytes 8 p ++ leBytes 4 n ++ [BitVec.ofNat 8 cls, BitVec.ofNat 8 perm] ++ leBytes 10 0
  let s := withFlds (sTr 0 0 0) ([(.CTX_ENTRY1 5, F.CTX_ENTRY1_RT_COUNT, 4), (.HG_CFG 3, F.HG_CFG_ENABLE, 1), (.HG_CFG 3, F.HG_CFG_LOG2N, 4), (.HG_CFG 3, F.HG_CFG_CTX, 5), (.HG_CFG 3, F.HG_CFG_LOC, loc), (.HG_BASE 3, ⟨63,0⟩, 0x300000),
    (.HG_STATUS 3, F.HG_STATUS_STATE, st), (.HG_STATUS 3, F.HG_STATUS_EXPPHASE, 1), (.HG_PTR 3, F.HG_PTR_HEAD, 2), (.HG_PTR 3, F.HG_PTR_TAIL, 2), (.PG_STATUS 0, F.PG_STATUS_LSTATE, 2), (.PG_STATUS 1, F.PG_STATUS_LSTATE, 2), (.LV_PORTMASK, ⟨31,0⟩, 0xFFFFFFFF), (.HR_BASE, F.HR_BASE_REGION, 3)] ++ fs)
  let fn (x : Func) : Func := { x with memSpace := true, busMaster := true, cacheEnable := true, d3 := false, msixEnable := true, msixMask := false, unmasked := [0,1,2,3] }
  { s with mem := [(12, 5)] ++ cellsAt 0x200000 (entry 0x10000 0x700000 2 0 0x27 ++ entry 0x20000 0x800000 1 0 0x27 ++ entry 0x40000 0x5000 1 1 0x23 ++ entry 0x50000 0x6000 1 2 0x23) ++ [(0x300101, 1), (0x300181, 1), (0x300182, 1), (0x700005, 7), (0x700044, 8)]
           pf0 := fn s.pf0, companion := fn s.companion }.updHead 3 f

/-- Commands that wait. -/
def u3 (n : Nat) : List HgCmd := (List.range n).map (fun i => hcmd (20 + i) false (hgBytes 1 1 0 0 0 0 0 0))

/-- Headgate 3 with a command in slot 12. -/
def sCmd (opc ctl len caddr a0 a1 n : Nat) (fs : List (Reg × Fld × Nat)) (f : HgCmd → HgCmd) : State := sHg 0 1 fs (fun x => {x with cmds := [f (hcmd 12 true (hgBytes opc ctl 0 len caddr a0 a1 n)), hcmd 13 false (hgBytes 1 1 1 0 0 0 0 0)]})

theorem test_witness_TheRacePort :
    (∀ m, m < 4 → (sRace m 1 [] (hrStream none false [] none)).fld .RACE_CTRL F.RACE_CTRL_MODE = m) ∧
    (let s := sTailrace 0 9 5
     Runs s ∧ s.fld .RACE_CTRL F.RACE_CTRL_MODE = 1 ∧ s.fld .RACE_STATUS F.RACE_STATUS_LSTATE = 2 ∧ s.fld .TR_CTRL F.TR_CTRL_DRAIN = 1 ∧ s.lifecycle = 0 ∧
       s.fld .TR_COUNT F.TR_COUNT_VALUE = 9) ∧
    (sTailrace 2 9 5).lifecycle ≠ 0 ∧ (sTailrace 2 9 5).capOn Cap.TRACE 1 = false ∧ (sTailrace 0 0 5).fld .TR_COUNT F.TR_COUNT_VALUE = 0 ∧
    (let s := sRace 2 2 [] (hrStream (some ⟨9, [1, 2], 70⟩) false [] none)
     Runs s ∧ s.fld .RACE_CTRL F.RACE_CTRL_MODE = 2 ∧ s.fld .RACE_STATUS F.RACE_STATUS_LSTATE = 2 ∧ s.fld (.HR_SCFG 2) F.HR_SCFG_ENABLE = 1 ∧
       (s.stream 2).part = some ⟨9, [1, 2], 70⟩ ∧ (s.stream 2).bad = false ∧ s.arrivalBytes + 64 ≤ 4194304) ∧
    ((sRace 2 2 [] (hrStream none true [] none)).stream 2).bad = true ∧ ((sRace 2 2 [] (hrStream none true [] none)).stream 2).part = none ∧
    (let s := sRace 2 2 [] (hrStream none false [⟨9, [1, 2], 77⟩] none)
     s.rotRunning = true ∧ (s.turnNo - s.rot.start).toNat % (s.fld .ROT_PERIOD F.ROT_PERIOD_PERIOD_M1 + 1) = 3 ∧ s.fld (.HR_SSTART 2 1) F.HR_SSTART_INDEX = 3 ∧
       s.fld (.HR_SCFG 2) F.HR_SCFG_NSTART_M1 = 1 ∧ (s.stream 2).started ≠ some s.turnNo ∧ (s.hrSlots 2).head? = some 30 ∧ s.cycle ≤ 5 * 30 ∧ s.hrSlots 2 ≠ []) ∧
    (let s := sRace 2 2 [] (hrStream none false [] (some ⟨3, none, 1, 21⟩))
     (s.stream 2).delivery.map (fun d => (d.number, d.next, d.frame.isNone)) = some (3, 1, true) ∧ s.home.resv = [] ∧ s.memUE = [] ∧ s.turnNo.toNat = 21 + 1 / 2 ∧
       (s.hrSlots 2).getD 1 0 = 33 ∧ s.fld (.HR_SCFG 2) F.HR_SCFG_TILE = (1 : TileId).val ∧ s.schedMode 1 = true ∧ s.slabOwned 1 6 1024 = true ∧ s.slabOwned 1 7 1024 = false ∧
       s.fld (.HR_SLEN 2) F.HR_SLEN_LINES = 2) ∧
    ((sRace 2 2 [] (hrStream none false [] (some ⟨3, some ⟨9, [1], 77⟩, 2, 21⟩))).stream 2).delivery.map (fun d => (d.next, d.frame.isNone)) = some (2, false) ∧
    48 ≤ (sRace 2 2 [(.HR_SCFG 2, F.HR_SCFG_TILE, 48)] (hrStream none false [] none)).fld (.HR_SCFG 2) F.HR_SCFG_TILE ∧
    (sRace 2 2 [(.SQ_STATUS 1, F.SQ_STATUS_MODE, 0)] (hrStream none false [] none)).schedMode 1 = false ∧
    0x600000 ≤ (sRace 2 2 [(.HR_SBASE 2, F.HR_SBASE_LINE, 0x6000)] (hrStream none false [] none)).fld (.HR_SBASE 2) F.HR_SBASE_LINE * 256 ∧
    (sRace 2 2 [(.ROT_STATUS, F.ROT_STATUS_STATE, 0), (.HR_MAPADDR, F.HR_MAPADDR_SLOT, 359)] (hrStream none false [] none)).fld .HR_MAPADDR F.HR_MAPADDR_SLOT = 359 ∧
    (sRace 2 2 [(.ROT_STATUS, F.ROT_STATUS_STATE, 0), (.HR_MAPADDR, F.HR_MAPADDR_SLOT, 359)] (hrStream none false [] none)).rotState = 0 := by
  unfold Runs; (repeat' apply And.intro) <;> decide +kernel

theorem test_witness_HostAccesses :
    HostSees (sWin false none []) 0 0x700047 ∧ windowLine (sWin false none []) 0x700047 = 0x700040 ∧
    ((sWin false none []).resLine 0x700040).any (fun l => l.addr == 0x700040 && l.bytes.length == 64 && !l.parity) = true ∧ (sWin false none []).dirWay 0x700040 = .way 0 ∧
    (let s := sWin false none [(.CUL_CTRL, F.CUL_CTRL_ENABLE, 0)]
     s.groupUp 0 = true ∧ s.groupUp 1 = false ∧ s.ideBars 0 = false ∧ s.fld .CUL_CTRL F.CUL_CTRL_ENABLE = 0 ∧ s.fld .HP_REFFIRST F.HP_REFFIRST_VALID = 0 ∧ s.pf0.hdmBase = 0 ∧
       s.companion.hdmBase = 0 ∧ s.home.dir = []) ∧
    (sWin false none [(.HP_REFFIRST, F.HP_REFFIRST_VALID, 1)]).fld .HP_REFFIRST F.HP_REFFIRST_VALID = 1 ∧
    (let s := sWin false (some (some 64)) []
     s.hostBarred 0 true = none ∧ s.home.culvert = some (some 64) ∧ s.dirFind 0x700040 = none ∧ s.home.flips = [] ∧ s.home.txns = [] ∧ s.hostWait = []) ∧
    (sWin false (some none) []).home.culvert = some none ∧ (sWin false none [(.CUL_MOVE, F.CUL_MOVE_TARGET, 513)]).fld .CUL_MOVE F.CUL_MOVE_TARGET + 64 = 577 ∧
    (∀ k, k < 4 → (sWin false none []).fld (.T2_STATUS k) F.T2_STATUS_STATE ≠ 1) ∧ (sWin false none [(.CUL_MOVE, F.CUL_MOVE_TARGET, 512)]).fld .CUL_MOVE F.CUL_MOVE_TARGET + 64 = 576 ∧
    (let s := sWin false none [(.LOCK 3, F.LOCK_VALID, 1), (.LOCK 3, F.LOCK_START, 0x100000), (.LOCK 3, F.LOCK_COUNT, 5)]
     s.fld (.LOCK 3) F.LOCK_VALID = 1 ∧ s.fld (.LOCK 3) F.LOCK_START = 64 * 2 ^ 14 ∧ s.fld (.LOCK 3) F.LOCK_COUNT = 5) ∧
    (sWin false none []).home.bias = none ∧ (∀ n, n < 64 → (sWin false none []).fld (.LOCK n) F.LOCK_VALID = 0) ∧
    (let s := { sWin false (some none) [] with hostWait := [{ creq 4 72 0x40 with txn := 0 }] }; s.hostWait.length = 1 ∧ s.hostWait.head?.map (fun m => m.txn) = some 0) ∧
    (let s := { sWin false none [] with boot := { State.reset.boot with hostLines := [hrl 0 0 0x40 true, hrl 1 1 0x40 true, hrl 0 2 0x80 false] } }
     s.boot.hostLines.find? (fun x => x.1 == 0 && x.2.addr == 0x40) = some (hrl 0 0 0x40 true) ∧ s.boot.hostLines.find? (fun x => x.1 == 1 && x.2.addr == 0x80) = none ∧ s.safe = false ∧
       (∀ x ∈ s.boot.hostLines, x.2.bytes ≠ [])) ∧
    (let s := { sWin false none [] with hostWrites := [hw 1 0 .block, hw 2 0 (.engine 1), hw 7 1 .block] }
     s.msixWait = [] ∧ s.hostWrites.find? (fun w => w.id == 2 && w.port == 0 && w.released && !w.peer) = some (hw 2 0 (.engine 1)) ∧
       s.hostWrites.find? (fun w => w.id == 1 && w.port == 0 && w.released && !w.peer) = some (hw 1 0 .block)) ∧
    (let s := sLoad lanePeer none
     Runs s ∧ s.tileHolds 0 = false ∧ ((s.group ⟨0, 0, 0⟩).map (fun gr => gr.loads.length)) = some 1 ∧
       ((s.core 0 0).findLoad 3).any (fun q => q.1 == some 0 && q.2.vd != 255 && q.2.lanes == [lanePeer]) = true) := by
  unfold HostSees Runs; (repeat' apply And.intro) <;> decide +kernel

theorem test_witness_HostFunctionsAndPorts :
    (let s := sFn [] id
     Runs s ∧ s.groupUp 0 = true ∧ s.fld .LV_CTRL F.LV_CTRL_CLOSED = 1 ∧ s.boot.scrub = false ∧ s.funcShown (.vf 1) = true ∧ (s.func (.vf 1)).flr = false ∧ s.pf0.flr = false ∧
       (s.func (.vf 1)).pend = [] ∧ s.safe = false ∧ s.twinActive = false ∧ (s.func .pf0).msixEnable = false ∧ s.hostWrites = [] ∧ s.pf0.d3 = false ∧ s.fld .AT_STATE F.AT_STATE_PORT0 = 0 ∧
       s.ctxValid 5 = true ∧ s.ctxFunction 5 = .vf 1 ∧ s.fld (.HG_CFG 3) F.HG_CFG_ENABLE = 1 ∧ s.fld .HR_COUNT F.HR_COUNT_VALUE = 0 ∧ s.portState 0 ≠ 1 ∧ s.heads.list = []) ∧
    (let s := sFn [] (fun x => { x with msixEnable := true, msixMask := false, unmasked := [0, 1, 6, 7], pend := [6, 0] })
     6 ∈ (s.func .pf0).pend ∧ 7 ∉ (s.func .pf0).pend ∧ (s.func .pf0).msixEnable = true ∧ (s.func .pf0).d3 = false ∧ 7 ∈ (s.func .pf0).unmasked) ∧
    (let s := { sFn [] id with hostWrites := [hw 1 0 .block] }; s.hostWrites.length = 1 ∧ s.hostWrites.head? = some (hw 1 0 .block)) ∧
    (sFn [] (fun x => { x with d3 := true })).pf0.d3 = true ∧ (sFn [] (fun x => { x with flr := true })).pf0.flr = true ∧ (sFn [] (fun x => { x with flr := true })).revoked 1 = false ∧
    (sFn [(.HF_CTRL, F.HF_CTRL_HR0, 1)] id).fld .HF_CTRL F.HF_CTRL_HR0 = 1 ∧ (sFn [(.PG_STATUS 1, F.PG_STATUS_LSTATE, 3)] id).groupUp 1 = false ∧
    (let s := sFn [(.T2_STATUS 3, F.T2_STATUS_STATE, 1), (.PG_STATUS 5, F.PG_STATUS_LSTATE, 2)] id
     s.groupUp 5 = true ∧ s.fld (.T2_STATUS 3) F.T2_STATUS_STATE = 1) ∧
    (sFn [] id).fld .PG_ROLE F.PG_ROLE_ROLE / 4 ^ 4 % 4 ≠ 0 ∧ (sFn [] id).groupUp 4 = false := by
  unfold Runs; (repeat' apply And.intro) <;> decide +kernel

/-- An entry of the holding ring. -/
def hrE (addr h flags : Nat) : List Byte := [1,1,0,0,0x11,0x22,0x33,0x44] ++ leBytes 8 99 ++ leBytes 8 addr ++ leBytes 2 h ++ leBytes 2 12 ++ [BitVec.ofNat 8 flags, 0,0,0]

/-- The holding ring with entries, and port modes. -/
def sHr (count : Nat) (mode : Nat × Nat) (d : Option Nat) (fs : List (Reg × Fld × Nat)) : State :=
  let s := sHg 0 1 ([(.HR_COUNT, F.HR_COUNT_VALUE, count), (.HR_HEAD, F.HR_HEAD_VALUE, 65535), (.AT_STATE, F.AT_STATE_PORT0, 1), (.AT_STATE, F.AT_STATE_PORT1, 2), (.AT_STATE, F.AT_STATE_CAUSE0, 3), (.AT_GEN, F.AT_GEN_GEN, 7), (.COH_DEAD 2, ⟨31,0⟩, 0x300), (.AT_STATE, F.AT_STATE_PORT0, if mode.1 = 9 then 0 else 2)] ++ fs) id
  { s with mem := s.mem ++ cellsAt 0x600000 (hrE 0x9000 3 0) ++ cellsAt (0x600000 + 32*65535) (hrE 0x8010 3 (if mode.2 = 8 then 2 else 0)) , heads := { s.heads with mode := #v[mode.1 % 9, mode.2 % 8], delivering := d } }

/-- The turnout with entry 1. -/
def sTo (fs : List (Reg × Fld × Nat)) : State := sHg 0 1 ([(.TO_APER 1, F.TO_APER_START, 4), (.TO_PAGES 1, F.TO_PAGES_PAGES, 2), (.TO_CFG 1, F.TO_CFG_ENABLE, 1), (.TO_CFG 1, F.TO_CFG_W, 1), (.TO_CFG 1, F.TO_CFG_RD, 1), (.TO_CFG 1, F.TO_CFG_CTX, 5), (.TO_VBASE 1, ⟨63,0⟩, 0x10000)] ++ fs) id

/-- A rider core changed. -/
def rid (k : Nat) (f : Rider → Rider) (s : State) : State := if h : k < 8 then s.updRider ⟨k, h⟩ f else s

/-- The state of boot. -/
def sBoot (fs : List (Reg × Fld × Nat)) (b : Boot → Boot) : State :=
  let s := sHg 0 1 ([(.RC_ENTRY 1, ⟨63,0⟩, 0x111), (.RC_ENTRY 0, ⟨63,0⟩, 0x100), (.RC_ENTRY 3, ⟨63,0⟩, 0x333), (.LV_RIDER 3, F.LV_RIDER_CTX, 5), (.LV_RIDER 3, F.LV_RIDER_FIELD, 1), (.COH_DEAD 1, ⟨31,0⟩, 0xFFFF0000)] ++ fs) id
  { s with boot := b s.boot }

/-- A message without data. -/
def cm0 : CohMsg := { cls := 0, hasData := false, opc := 0x0A, ctx := 0, grant := 0, typ := 0, status := 0, srcAgent := 1, srcChip := 0, dstAgent := 0, dstChip := 0, txn := 0, aop := 0, sz := 0, addr := 0, byteMask := 0, opA := 9, opB := 3, data := [] }

/-- A container. -/
def ct0 (n : BitVec 12) (ms : List CohMsg) : Container := { flits := ms, seq := n, ack := 3, nak := false, crReq := 4, crSnp := 5, crRsp := 6, crSigTile := none }

theorem test_witness_quietPorts : QuietPorts (sFn [] id) := by
  have e (k : TileId) : (sFn [] id).tile k = Tile.reset := tile_reset k
  have c (k : TileId) (c : CoreId) : (sFn [] id).core k c = Core.reset := by
    simp only [State.core, e]; revert c; decide +kernel
  refine ⟨by decide +kernel, by decide +kernel, by decide +kernel, by decide +kernel, fun k i => ?_, fun k i => ?_, by decide +kernel, by decide +kernel⟩
  · rw [c]
    refine ⟨by decide +kernel, fun j gr h => ?_⟩
    have : Core.reset.group j = none := by clear h; revert j; decide +kernel
    rw [this] at h; cases h
  · simp only [State.chan, e]; revert i; decide +kernel

theorem test_witness_HeadgateRings :
    (let s := sHg 0 1 [] id
     PageOpen s 3 ∧ (∀ w ∈ s.heads.writes, w.head ≠ 1024) ∧ hgF s 3 F.HG_STATUS_STATE = 1 ∧ s.hgN 3 = 16 ∧ s.hgHead 3 = 2 ∧ MayFetch s 3 ∧ s.hgPort 3 = some 0 ∧
       s.portOk 0 (s.hgCtx 3) false = true ∧ s.hgFunction 3 = .pf0 ∧ s.fld (.HG_CFG 3) F.HG_CFG_ENABLE = 1 ∧ (s.head 3).cmds = []) ∧
    (let s := { sHg 0 1 [] id with heads := { (sHg 0 1 [] id).heads with writes := [⟨0, 0, 1024, 0, 5, ⟨.localMem, 0, .normal⟩⟩] } }
     s.heads.writes.any (fun w => w.head == 1024) = true) ∧
    (let s := { sHg 0 1 [] id with pf0 := { (sHg 0 1 [] id).pf0 with memSpace := false } }; s.funcOpen .pf0 = false ∧ s.ideBars 0 = false) ∧
    (sHg 1 1 [(.PG_STATUS 1, F.PG_STATUS_LSTATE, 0)] id).hgPort 3 = some 1 ∧
    (sHg 1 1 [(.PG_STATUS 1, F.PG_STATUS_LSTATE, 0)] id).portOk 1 5 false = false ∧
    CanLeave (sHg 0 2 [(.HG_STATUS 3, F.HG_STATUS_CAUSE, 1)] id) 3 ∧ CanLeave (sHg 2 2 [(.HG_STATUS 3, F.HG_STATUS_CAUSE, 3)] id) 3 ∧
    hgF (sHg 0 2 [(.HG_STATUS 3, F.HG_STATUS_CAUSE, 4)] id) 3 F.HG_STATUS_CAUSE = 4 ∧
    (let s := sHg 0 1 [(.HG_PTR 3, F.HG_PTR_TAIL, 3)] (fun x => { x with fetching := true })
     (s.head 3).fetching = true ∧ byteAt (hgBytes 1 1 0 0 0 0 0 0) 1 % 2 = hgF s 3 F.HG_STATUS_EXPPHASE ∧ byteAt (hgBytes 1 1 0 0 0 0 0 0) 2 = hgF s 3 F.HG_STATUS_EXPSEQ ∧
       byteAt (hgBytes 1 0 0 0 0 0 0 0) 1 % 2 ≠ hgF s 3 F.HG_STATUS_EXPPHASE ∧ (s.hgHead 3 + 1) % s.hgN 3 = s.hgTail 3 ∧ s.hgLoc 3 = 0) ∧
    (let s := sHg 2 1 [(.HG_PTR 3, F.HG_PTR_TAIL, 5), (.HG_BASE 3, ⟨63, 0⟩, 0x600000)] (fun x => { x with fetching := true })
     s.hgLoc 3 = 2 ∧ s.slotAddr 3 + 128 ≤ 0x9000000000 ∧ (s.unitRefusal (s.hgCtx 3) (s.slotAddr 3) 64).1 = 0 ∧ (s.unitRefusal (s.hgCtx 3) (s.slotAddr 3 + 64) 64).1 = 0 ∧ s.hgTail 3 = 5) ∧
    ((sHg 0 1 [(.HG_ERRREC 3, ⟨63, 0⟩, 0x10040)] (fun x => { x with fetching := true, refetches := 16 })).head 3).refetches = 16 ∧
    ((sHg 0 1 [] (fun x => { x with torn := true })).head 3).torn = true ∧
    (let s := sHg 0 0 [(.HG_CFG 3, F.HG_CFG_ENABLE, 0)] id; s.fld (.HG_CFG 3) F.HG_CFG_ENABLE = 0 ∧ s.hgEnableBad 3 = false) ∧
    (sHg 0 0 [(.HG_CFG 3, F.HG_CFG_LOG2N, 16)] id).fld (.HG_CFG 3) F.HG_CFG_LOG2N = 16 ∧ (sHg 0 0 [(.HG_CFG 3, F.HG_CFG_LOG2N, 17)] id).fld (.HG_CFG 3) F.HG_CFG_LOG2N = 17 ∧
    (sHg 0 1 [] (fun x => { x with cmds := [hcmd 12 true []] })).head 3 ≠ Head.reset ∧
    (let s := { sHg 0 1 [] id with pf0 := { (sHg 0 1 [] id).pf0 with d3 := true, pmeEn := true } }; s.pf0.d3 = true ∧ s.pf0.pmeEn = true) := by
  unfold PageOpen MayFetch CanLeave Runs; (repeat' apply And.intro) <;> decide +kernel

theorem test_witness_HeadgateCommands :
    (let s := sHg 0 1 [] (fun x => { x with cmds := u3 2 })
     Runs s ∧ ((s.head 3).cmds.find? (fun c => !c.started)).map (fun c => (c.slot, c.order, c.bad)) = some (20, false, false) ∧ s.nextHead = some 3 ∧ s.hrFull = false) ∧
    ((sHg 0 1 [] (fun x => { x with cmds := (u3 8).map (fun c => { c with started := true }) })).head 3).cmds.length = 8 ∧
    (hcmd 13 false (hgBytes 1 5 0 0 0 0 0 0)).order = true ∧ (hcmd 13 false (hgBytes 9 1 0 0 0 0 0 0)).bad = true ∧
    (∀ o ∈ [1, 2, 3, 4, 5, 6], ((sCmd o 1 9 0 0x10004 0x10048 9 [] id).head 3).cmds.any (fun c => c.slot == 12 && c.started && c.result.isNone && c.opc == o) = true) ∧
    (hcmd 12 true (hgBytes 4 1 0 0 0 0x0503 77 0)).a0 = 0x0503 ∧ (sCmd 4 1 0 0 0x70503 77 0 [] id).linkTo 7 = none ∧
    ((sCmd 5 1 0 0 0x0003 0 0 [] id).signal 0 3).toNat = 0 ∧ (sCmd 6 1 0 0 1 0x40 0 [] id).schedMode 0 = false ∧ (sCmd 6 1 0 0 1 0x40 0 [] id).seqState 0 ≠ 1 ∧
    ((sCmd 6 1 0 0 1 0x40 0 [] id).tile 0).kernel = none ∧ (sCmd 6 1 0 0 1 0x40 0 [] id).rdByte (slabAddr 0 (0x40 + 28)) ≠ (sCmd 6 1 0 0 1 0x40 0 [] id).hgCtx 3 ∧
    (sCmd 6 1 0 0 1 0x41 0 [] id).memUE = [] ∧ (sCmd 6 1 0 0 1 0x41 0 [] id).home.resv = [] ∧
    (let s := sCmd 2 1 0 0 0x10004 0x10048 9 [] id
     ((s.unitTranslate (s.hgCtx 3) 0x10004 accR).1.getRight?.map (fun x => (x.1.addr, x.1.cls, x.2))) = some (0x700004, .localMem, false) ∧
       ((s.unitTranslate (s.hgCtx 3) 0x90000 accR).1.getLeft?).isSome = true ∧ ((s.unitTranslate (s.hgCtx 3) 0x40048 accW).1.getRight?.map (fun x => x.1.cls)) = some .host0 ∧
       (s.unitRefusal (s.hgCtx 3) 0x700004 9).1 = 0 ∧ s.portOk 0 (s.hgCtx 3) false = true ∧ s.twinActive = false ∧ s.safe = false ∧ s.home.riderLines = []) ∧
    (let s := sCmd 1 3 0 0x40010 0 0 0 [(.AT_STATE, F.AT_STATE_PORT0, 1)] (fun c => { c with result := some (15, 7, 2) })
     s.portState 0 = 1 ∧ ((s.head 3).cmds.find? (fun c => c.slot == 12 && c.started && c.result.isSome)).map (fun c => (c.caddr, c.irq, c.record)) = some (0x40010, true, false) ∧
       s.hrFull = false ∧ s.fld .HR_COUNT F.HR_COUNT_VALUE < 65535 ∧ s.heads.wakeDue = false ∧ s.hgHead 3 = s.hgTail 3 ∧ (s.head 3).resetting = false ∧
       (s.func (s.hgFunction 3)).sendable (s.fld (.HG_BIND 3) F.HG_BIND_VECTOR) = true ∧ s.hostWrites = []) ∧
    (sCmd 1 3 0 0x40010 0 0 0 [(.HGU_STATUS, F.HGU_STATUS_HR_FULL, 1)] id).hrFull = true := by
  unfold Runs; (repeat' apply And.intro) <;> decide +kernel

theorem test_witness_HoldingRingAndTurnout :
    (let s := sHr 0 (1, 0) none []
     Runs s ∧ bitsOf (0x701 : Word32) 31 8 = s.fld .AT_GEN F.AT_GEN_GEN % 2 ^ 24 ∧ bitsOf (0x701 : Word32) 1 0 = 1 ∧ (0x701 : Word32).getLsbD 2 = false ∧ s.portState 0 ≠ 0 ∧
       s.groupUp 0 = true ∧ s.fld .HR_COUNT F.HR_COUNT_VALUE = 0 ∧ s.twinActive = false ∧ s.safe = false) ∧
    (let s := sHr 2 (1, 0) (some 4) []
     s.heads.delivering = some 4 ∧ (List.finRange 2).find? (fun p => s.heads.mode[p] == 1) = some 0 ∧ s.hostWrites = [] ∧ s.fld .HR_COUNT F.HR_COUNT_VALUE = 2 ∧
       s.fld .HR_HEAD F.HR_HEAD_VALUE = 65535 ∧ byteAt (heldEntry s 65535) 28 / 2 % 2 = 0) ∧
    (let s := sHr 1 (1, 8) (some 4) []
     byteAt (heldEntry s 65535) 28 / 2 % 2 = 1 ∧ slotField (heldEntry s 65535) 24 2 % 1024 = (3 : HeadId).val) ∧
    (let s := sHr 1 (0, 2) none []; (List.finRange 2).find? (fun p => s.heads.mode[p] == 2) = some 1 ∧ bitsOf (0 : Word32) 16 0 = (s.fld .HR_HEAD F.HR_HEAD_VALUE + 1) % 65536) ∧
    (let s := sTo []
     Runs s ∧ s.fld (.TO_CFG 1) F.TO_CFG_ENABLE = 1 ∧ s.funcOpen .pf0 = true ∧ s.ideBars 0 = false ∧ s.safe = false ∧ s.twinActive = false ∧ s.heads.writes = [] ∧
       s.toOn 1 = true ∧ (s.toSpan 1).1 = 0x4000 ∧ (s.toSpan 1).2 = 0x6000 ∧ s.toOn 2 = false ∧ s.toCtx 1 = 5 ∧ s.revoked 5 = false ∧ toVa s 1 0x4008 = 0x10008 ∧
       (s.rangeWalk 5 0x10008).map (fun r => (r.cls, r.perm &&& accW, r.vstart, r.pages)) = some (.localMem, accW, 0x10000, 2) ∧ (s.rangeWalk 5 0x90000).isNone = true ∧
       s.backed 0x700000 = true ∧ s.ownerOk 5 0x700000 true = true ∧ s.ownerOk 5 0x300000 true = false) ∧
    (let s := { sTo [] with pf0 := { (sTo []).pf0 with memSpace := false } }; s.funcOpen .pf0 = false) ∧ (sTo [(.WM_STATE, F.WM_STATE_SAFE, 1)]).safe = true ∧
    (let s := sTo [(.TO_APER 2, F.TO_APER_START, 5), (.TO_PAGES 2, F.TO_PAGES_PAGES, 1)]
     s.fld (.TO_CFG 2) F.TO_CFG_ENABLE ≠ 1 ∧ s.fld (.TO_APER 2) F.TO_APER_START * 4096 < s.fld (.TO_APER 1) F.TO_APER_START * 4096 + s.fld (.TO_PAGES 1) F.TO_PAGES_PAGES * 4096) := by
  unfold Runs; (repeat' apply And.intro) <;> decide +kernel

theorem test_witness_BootAndDebug :
    (let s := rid 0 (fun x => { x with running := true }) (sBoot [] (fun b => { b with scrub := false }))
     Runs s ∧ (s.rider 0).running = true ∧ s.fld .LV_CTRL F.LV_CTRL_CLOSED = 0 ∧ s.boot.loading = false ∧ s.boot.scrub = false ∧ s.fld .BOOT_STATUS F.BOOT_STATUS_STAGE ≤ 1) ∧
    (sBoot [] (fun b => { b with loading := true })).boot.loading = true ∧ (sBoot [(.LC_STATE, F.LC_STATE_STATE, 3)] id).lifecycle = 3 ∧ (sBoot [] id).lifecycle = 0 ∧
    (sBoot [] (fun b => { b with scrub := true })).boot.scrub = true ∧
    (let s := sBoot [(.LV_CTRL, F.LV_CTRL_CLOSED, 1)] id
     s.fld (.LV_RIDER 3) F.LV_RIDER_CTX = 5 ∧ s.ctxValid 5 = true ∧ s.ctxField 5 = s.fld (.LV_RIDER 3) F.LV_RIDER_FIELD ∧ s.revoked 5 = false ∧ s.safe = false ∧ (s.rider 3).running = false ∧
       s.fld .LV_CTRL F.LV_CTRL_CLOSED = 1) ∧
    (let s := rid 3 (fun x => { x with running := true }) (sBoot [] id)
     (s.rider 3).running = true ∧ (s.rider 3).halted = false ∧ s.home.txns = [] ∧ s.home.dir = [] ∧ s.boot.rcRider = [] ∧ (s.rangeWalk 5 0x10000).map (fun e => e.perm &&& accX) = some 4 ∧
       (s.rangeWalk 5 0x90000).isNone = true ∧ (0x10000 : Word64).toNat < 2 ^ 52 ∧ 2 ^ 52 ≤ (BitVec.allOnes 64 : Word64).toNat ∧ s.riderFenceOver 3 = true) ∧
    (let s := rid 3 (fun x => { x with running := true, writes := [4] }) (sBoot [] id); s.riderFenceOver 3 = false) ∧
    (let s := rid 1 (fun x => { x with running := true }) (sBoot [] id)
     (s.rider 1).running = true ∧ s.riderMapped 0 0 = true ∧ s.riderMapped (2 ^ 60) 0 = false) ∧
    (let s := sBoot [(.LC_STATE, F.LC_STATE_STATE, 2), (.LV_CTRL, F.LV_CTRL_CLOSED, 1), (.DBG_NONCE, ⟨63, 0⟩, 77), (.DBG_GRANT, F.DBG_GRANT_VALID, 1)] id
     s.fld .DBG_GRANT F.DBG_GRANT_VALID = 1 ∧ s.lifecycle = 2 ∧ s.rd .DBG_NONCE = 77 ∧ s.fld .LV_CTRL F.LV_CTRL_CLOSED ≠ 0) ∧
    (sBoot [] id).fld .DBG_GRANT F.DBG_GRANT_VALID = 0 := by
  unfold Runs; (repeat' apply And.intro) <;> decide +kernel

theorem test_witness_ResiduesDetectBitErrors :
    residueFails ⟨5, 20, 0⟩ 5 = false ∧ residueFails ⟨5 + 2 ^ 190, 20, 0⟩ 5 = true ∧ residueFails ⟨5 - 2 ^ 3, 20, 0⟩ 5 = true ∧ residueFails ⟨5 + 127 * 9, 20, 0⟩ 5 = false ∧
    residueFails ⟨6, 20, WFlags.OVERFLOW⟩ 5 = false ∧ (0 : WFlags) &&& WFlags.OVERFLOW = 0 := by
  (repeat' apply And.intro) <;> decide +kernel

theorem test_witness_ParcelsOnTheWire :
    (∀ p ∈ [Parcel.idle, .data ⟨1, 3, true, 3, 0xEE, 0, 5, [7]⟩, .halt 0x1FF true 0x9C, .container (ct0 5 [cm0, cm0])], ParcelRight p = true) ∧
    FlitsRight { cm0 with hasData := true, data := List.replicate 64 7 } = true ∧
    (([] : List Byte).getD 0 0).toNat % 16 < 8 ∧ 8 ≤ (([8] : List Byte).getD 0 0).toNat % 16 := by
  (repeat' apply And.intro) <;> decide +kernel

/-! ### Ill-formed commands are told from well-formed ones, one for each check -/

theorem test_wf_access : (Instr.registerWrite 2 4 ⟨0, 0⟩ (.rider 0)).wf = false ∧ (Instr.registerWrite 8 2 ⟨0, 0⟩ (.rider 0)).wf = false ∧
    (Instr.registerWrite 12 8 ⟨0, 0⟩ (.rider 0)).wf = false ∧ (Instr.registerWrite 12 4 ⟨0, 0⟩ (.rider 0)).wf = true := by decide

theorem test_wf_vector_word : (Instr.iadd ⟨0, 0, 0⟩ 0x0200050607000000).wf = false ∧ (Instr.iadd ⟨0, 0, 0⟩ 0x0100050607000000).wf = true ∧
    (Instr.iadd ⟨0, 0, 0⟩ 0x8100050607000000).wf = true := by decide +kernel

theorem test_wf_sequencer_word : (Instr.addi 0 0x04A23000).wf = false ∧ (Instr.addi 0 0x0823FFFE).wf = true ∧ (Instr.alu 0 0x04A21800).wf = true := by
  decide +kernel

theorem test_wf_atomic : vecAop 0x4610091400023400 13 = true ∧ vecAop 0x4610091400023400 5 = false ∧ vecAop 0x4510091400023400 13 = false := by decide +kernel

theorem test_wf_message : (Instr.rdShared 0 { cm0 with opc := 1 }).wf = true ∧ (Instr.rdShared 0 { cm0 with opc := 2 }).wf = false ∧
    (Instr.wrFull 0 { cm0 with opc := 5, hasData := true, data := [1] }).wf = false ∧ (Instr.wrFull 0 { cm0 with opc := 5, data := [1] }).wf = false := by
  decide +kernel

theorem test_wf_parcels : (DataParcel.shaped ⟨1, 3, true, 3, 0xEE, 0, 5, [7]⟩) = true ∧ (DataParcel.shaped ⟨1, 3, true, 3, 0xEE, 1, 5, [7]⟩) = false ∧
    (DataParcel.shaped ⟨1, 3, false, 3, 0xEE, 0, 5, [7]⟩) = false ∧ Container.shaped (ct0 0 [cm0, cm0, cm0, cm0]) = true ∧
    Container.shaped (ct0 0 [cm0, cm0, cm0, cm0, cm0]) = false := by decide +kernel

theorem test_wf_slot : (Instr.slotFetchReturn 3 (.slot [1, 2])).wf = false ∧ (Instr.slotFetchReturn 3 .failed).wf = true := by decide +kernel

theorem test_wf_flit : (Instr.schedFlitArrive { flit0 with data := List.replicate 257 0 }).wf = false ∧ (Instr.schedFlitArrive flit0).wf = true := by decide +kernel

/-! ### Small steps, by hand from the spec's rules -/

/-- The state that a command leaves. -/
def after (o : Host.Outcome State Fault Refusal) : State :=
  match o with
  | .next t => t
  | _ => State.reset

/-- No row of the table has bits. -/
theorem test_decode : decodeTableWord 32 0x12345678 = none ∧ State.reset.withFetchWord 32 0x12345678 = State.reset := ⟨rfl, rfl⟩

/-- R172: opcode 0x01 with RD 5, RA 2, RB 3 and funct 0 is ADD; all ones and 7 give 6. -/
theorem test_alu_add_wraps : (after (Sys2Proof.Machine.exec (.alu 0 0x04A21800) (sSeq 0x04A21800#32))).rdS 0 5 = 6 := by decide +kernel

/-- R172: opcode 0x02 with RD 1, RA 3 and the immediate -2; 7 gives 5. -/
theorem test_addi_sign_extends : (after (Sys2Proof.Machine.exec (.addi 0 0x0823FFFE) (sSeq 0x0823FFFE#32))).rdS 0 1 = 5 := by decide +kernel

/-- R110, R161: v5 = v6 + v7 in a thread of the mask, and v5 as it was in a thread outside it. -/
theorem test_iadd_wraps_under_the_mask :
    ((after (Sys2Proof.Machine.exec (.iadd ⟨0, 0, 0⟩ 0x0100050607000000) (sVec 0x0100050607000000 gVec))).group ⟨0, 0, 0⟩).map (fun g => ((g.rdV 5)[2], (g.rdV 5)[0])) =
      some (BitVec.ofNat 32 (57 * 2654435761), BitVec.ofNat 32 (8 * 2654435761)) := by decide +kernel

theorem test_reset_memory : State.reset.mem.wf = true ∧ State.reset.pending = [] := by decide

end Sys2Proof.Tests
end

section
/-! The residue channel (R68 to R72): the residue of a stored integer, of a term on the grid and of a saturating sum are
congruent modulo 127 to the integers they stand for, so the comparison of R69 sees an error exactly when it is no multiple
of 127. -/

namespace Sys2Proof.Machine

/-! ### Powers of two modulo 127 -/

/-- R68: 2^7 is 1 modulo 127, so the exponent counts modulo 7 only. -/
theorem two_pow_modEq_mod_seven (n : Nat) : 2 ^ n ≡ 2 ^ (n % 7) [MOD 127] := by
  have h7 : 2 ^ 7 ≡ 1 [MOD 127] := by decide
  calc 2 ^ n = (2 ^ 7) ^ (n / 7) * 2 ^ (n % 7) := by rw [← pow_mul, ← pow_add, Nat.div_add_mod]
    _ ≡ 1 ^ (n / 7) * 2 ^ (n % 7) [MOD 127] := (h7.pow _).mul_right _
    _ = 2 ^ (n % 7) := by rw [one_pow, one_mul]

theorem not_127_dvd_two_pow (i : Nat) : ¬ (127 : Int) ∣ 2 ^ i := fun h => by
  have hp : Nat.Prime 127 := by norm_num
  have h2 : 127 ∣ 2 := hp.dvd_of_dvd_pow (n := i) (by exact_mod_cast h)
  omega

theorem pow2Residue_natCast (n : Nat) : pow2Residue n ≡ 2 ^ n [MOD 127] := by
  have hn : ((n : Int) % 7).toNat = n % 7 := by omega
  rw [pow2Residue, hn]
  exact (Nat.mod_modEq _ _).trans (two_pow_modEq_mod_seven n).symm

/-- The residue of a shift to the right is the inverse of the power it divides by. -/
theorem two_pow_mul_pow2Residue_neg (d : Nat) : 2 ^ d * pow2Residue (-d) ≡ 1 [MOD 127] := by
  have hd : (d + (-(d : Int) % 7).toNat) % 7 = 0 := by omega
  calc 2 ^ d * pow2Residue (-d) ≡ 2 ^ d * 2 ^ (-(d : Int) % 7).toNat [MOD 127] := (Nat.mod_modEq _ _).mul_left _
    _ = 2 ^ (d + (-(d : Int) % 7).toNat) := (pow_add ..).symm
    _ ≡ 2 ^ 0 [MOD 127] := hd ▸ two_pow_modEq_mod_seven _

/-! ### The residue of a stored integer and the comparison -/

/-- R69: the pattern less 8 for a set sign bit, because 2^192 is 8 modulo 127. -/
theorem residueOf_eq_toInt_mod (i : BitVec 192) : (residueOf i : Int) = i.toInt % 127 := by
  rw [residueOf, BitVec.toInt_eq_msb_cond]
  cases i.msb <;> simp <;> omega

theorem residueFails_eq_true_iff (w : Wide) (r : Nat) :
    residueFails w r = true ↔ w.flags &&& WFlags.OVERFLOW = 0 ∧ w.int.toInt % 127 ≠ (r : Int) % 127 := by
  rw [← residueOf_eq_toInt_mod, residueFails, Bool.and_eq_true, beq_iff_eq, bne_iff_ne]
  exact and_congr_right fun _ => by norm_cast

/-- The comparison passes when the entry has OVERFLOW (R72) or its integer is congruent to the kept residue. -/
theorem residueFails_eq_false_iff (w : Wide) (r : Nat) :
    residueFails w r = false ↔ (w.flags &&& WFlags.OVERFLOW = 0 → w.int.toInt ≡ r [ZMOD 127]) := by
  rw [← Bool.not_eq_true, residueFails_eq_true_iff, not_and, not_not, Int.ModEq]

/-- Against a kept residue that an integer passes, another fails exactly when their difference is no multiple of 127. -/
theorem residueFails_iff_not_dvd_sub {w x : Wide} {r : Nat} (hw : w.flags &&& WFlags.OVERFLOW = 0)
    (hx : x.flags &&& WFlags.OVERFLOW = 0) (hr : residueFails w r = false) :
    residueFails x r = true ↔ ¬ (127 : Int) ∣ x.int.toInt - w.int.toInt := by
  have hr := (residueFails_eq_false_iff w r).1 hr hw
  rw [residueFails_eq_true_iff, and_iff_right hx, ← hr.eq, ← Int.modEq_iff_dvd, Int.ModEq, ne_comm]

/-! ### The saturating sum -/

theorem WFlags.or_clear_iff (f g x : WFlags) : (f ||| g) &&& x = 0 ↔ f &&& x = 0 ∧ g &&& x = 0 := by
  rw [BitVec.and_comm, BitVec.and_or_distrib_left, BitVec.and_comm x, BitVec.and_comm x]
  exact BitVec.or_eq_zero_iff

/-- R50: a sum that sets no OVERFLOW is exact. -/
theorem Wide.addInt_int_of_not_overflow {w : Wide} {q : Int} (h : (w.addInt q).flags &&& WFlags.OVERFLOW = 0) :
    (w.addInt q).int.toInt = w.int.toInt + q ∧ w.flags &&& WFlags.OVERFLOW = 0 := by
  have saturated (f : WFlags) : (f ||| WFlags.OVERFLOW) &&& WFlags.OVERFLOW ≠ 0 := fun h =>
    absurd ((WFlags.or_clear_iff _ _ _).1 h).2 (by decide)
  simp only [Wide.addInt] at h ⊢
  split at h
  · exact absurd h (saturated _)
  · split at h
    · exact absurd h (saturated _)
    · refine ⟨?_, h⟩
      rw [if_neg ‹_›, if_neg ‹_›]
      exact BitVec.toInt_ofInt_eq_self (by decide) (by omega) (by omega)

/-- A sum keeps the comparison passed when the residue added is that of the integer added. -/
theorem residueFails_addInt {w : Wide} {q : Int} {r d : Nat} (fl : WFlags) (hw : residueFails w r = false)
    (hq : (d : Int) ≡ q [ZMOD 127]) :
    residueFails { w.addInt q with flags := (w.addInt q).flags ||| fl } ((r + d) % 127) = false := by
  refine (residueFails_eq_false_iff _ _).2 fun h => ?_
  obtain ⟨hsum, hw0⟩ := Wide.addInt_int_of_not_overflow ((WFlags.or_clear_iff _ _ _).1 h).1
  calc (w.addInt q).int.toInt = w.int.toInt + q := hsum
    _ ≡ r + d [ZMOD 127] := ((residueFails_eq_false_iff w r).1 hw hw0).add hq.symm
    _ ≡ ((r + d) % 127 : Nat) [ZMOD 127] := by push_cast; exact (Int.mod_modEq _ _).symm

/-! ### The residue of a term -/

theorem roundAt_of_le (rm : RM) (neg : Bool) (m : Nat) {e q : Int} (h : q ≤ e) :
    (roundAt rm neg m e q false).1 = m * 2 ^ (e - q).toNat := by
  simp [roundAt, h]

theorem roundAt_of_lt (rm : RM) (neg : Bool) (m : Nat) {e q : Int} (h : e < q) :
    ∃ up ≤ 1, (roundAt rm neg m e q false).1 = m / 2 ^ (q - e).toNat + up := by
  simp only [roundAt, Int.not_le.2 h, if_false]
  exact ⟨_, by split_ifs <;> omega, rfl⟩

/-- The channel reads the rounding increment off the rounded magnitude: a magnitude rounded up lies above the exact one. -/
theorem rounding_increment_eq (m d : Nat) {up : Nat} (hup : up ≤ 1) :
    (if m < (m / 2 ^ d + up) * 2 ^ d then 1 else 0) = up := by
  have hlt := Nat.lt_div_mul_add (a := m) (Nat.two_pow_pos d)
  have hle := Nat.div_mul_le_self m (2 ^ d)
  interval_cases up
  · rw [if_neg (by rw [Nat.add_zero]; omega)]
  · rw [if_pos (by rw [Nat.add_mul, Nat.one_mul]; omega)]

/-- The residue of a magnitude that loses its low d bits: the exact value's less the discarded bits', shifted, and the
rounding increment (R68). -/
theorem rounded_residue_modEq (m d up : Nat) :
    (m % 127 + (127 - m % 2 ^ d % 127)) * pow2Residue (-d) + up ≡ m / 2 ^ d + up [MOD 127] := by
  have hkept : m % 127 + (127 - m % 2 ^ d % 127) ≡ m / 2 ^ d * 2 ^ d [MOD 127] := by
    have := Nat.div_add_mod' m (2 ^ d)
    unfold Nat.ModEq
    omega
  refine Nat.ModEq.add_right _ ?_
  calc (m % 127 + (127 - m % 2 ^ d % 127)) * pow2Residue (-d)
      ≡ m / 2 ^ d * 2 ^ d * pow2Residue (-d) [MOD 127] := hkept.mul_right _
    _ = m / 2 ^ d * (2 ^ d * pow2Residue (-d)) := Nat.mul_assoc ..
    _ ≡ m / 2 ^ d * 1 [MOD 127] := (two_pow_mul_pow2Residue_neg d).mul_left _
    _ = m / 2 ^ d := Nat.mul_one _

/-- A positive term's residue is that of its magnitude rounded onto the grid. -/
theorem termResidue_pos_modEq (a : BitVec 16) (m : Nat) (e : Int) :
    (FVal.fin false m e).termResidue a ≡ (roundAt .rne false m e (gridExp a) false).1 [MOD 127] := by
  simp only [FVal.termResidue, FVal.toGrid, Bool.false_eq_true, if_false, Int.natAbs_natCast]
  by_cases h : gridExp a ≤ e
  · -- a shift to the left discards nothing
    rw [if_pos (by omega : 0 ≤ e - gridExp a), roundAt_of_le _ _ _ h]
    have hpow := pow2Residue_natCast (e - gridExp a).toNat
    rw [Int.toNat_of_nonneg (by omega)] at hpow
    exact (Nat.mod_modEq _ _).trans ((Nat.mod_modEq m 127).mul hpow)
  · -- the channel recovers the discarded bits and the increment from the rounded magnitude
    rw [if_neg (by omega : ¬ 0 ≤ e - gridExp a)]
    obtain ⟨up, hup, hk⟩ := roundAt_of_lt .rne false m (Int.not_le.1 h)
    obtain ⟨d, hd⟩ := Int.eq_ofNat_of_zero_le (a := gridExp a - e) (by omega)
    have hshift : e - gridExp a = -d := by omega
    rw [hk, hd, hshift, Int.neg_neg, Int.toNat_natCast, rounding_increment_eq m d hup, Nat.add_sub_cancel,
      ← Nat.mod_eq_sub_div_mul]
    exact (Nat.mod_modEq _ _).trans (rounded_residue_modEq m d up)

theorem termResidue_fin_lt (a : BitVec 16) (neg : Bool) (m : Nat) (e : Int) : (FVal.fin neg m e).termResidue a < 127 := by
  simp only [FVal.termResidue]
  split_ifs <;> exact Nat.mod_lt _ (by decide)

theorem termResidue_neg (a : BitVec 16) (m : Nat) (e : Int) :
    (FVal.fin true m e).termResidue a = (127 - (FVal.fin false m e).termResidue a) % 127 := by
  simp [FVal.termResidue, FVal.toGrid]

/-- R68: the residue that the channel computes for a term is that of the term rounded onto the grid. -/
theorem termResidue_modEq (a : BitVec 16) (v : FVal) : (v.termResidue a : Int) ≡ (v.toGrid a).1 [ZMOD 127] := by
  cases v with
  | nan _ => rfl
  | inf _ => rfl
  | zero _ => rfl
  | fin neg m e =>
    have hpos := Int.natCast_modEq_iff.2 (termResidue_pos_modEq a m e)
    cases neg with
    | false => exact hpos
    | true =>
      have hlt := termResidue_fin_lt a false m e
      simp only [termResidue_neg, FVal.toGrid, if_true]
      unfold Int.ModEq at hpos ⊢
      omega

/-! ### The obligation -/

/-- R68: a term keeps the comparison passed. -/
theorem residueFails_addTerm {w : Wide} {r : Nat} (v : FVal) (hw : residueFails w r = false) :
    residueFails (w.addTerm v) ((r + v.termResidue w.anchor) % 127) = false :=
  residueFails_addInt (v.toGrid w.anchor).2 hw (termResidue_modEq w.anchor v)

/-- R60, R68: a combined partial keeps the comparison passed. -/
theorem residueFails_combine {w x : Wide} {r q : Nat} (hx0 : x.flags &&& WFlags.OVERFLOW = 0)
    (hw : residueFails w r = false) (hx : residueFails x q = false) :
    residueFails (w.combine x) ((r + q) % 127) = false :=
  residueFails_addInt x.flags hw ((residueFails_eq_false_iff x q).1 hx hx0).symm

end Sys2Proof.Machine

namespace Sys2Proof.Claims
open Sys2Proof.Machine

/-- Settles O59: 127 divides no power of two (R70), and every residue the channel adds is that of the integer added. -/
theorem residuesDetectBitErrors : Obligations.ResiduesDetectBitErrors := by
  unfold Obligations.ResiduesDetectBitErrors
  refine ⟨fun w r => ⟨residueOf_eq_toInt_mod w.int, fun hw => ?_, fun hw => ?_⟩, ?_, ?_,
    fun w v r _ hr => residueFails_addTerm v hr, fun w x r q _ hx hr hq => residueFails_combine hx hr hq⟩
  · rw [residueFails_eq_true_iff, and_iff_right hw]
  · exact (residueFails_eq_false_iff w r).2 fun h => absurd h hw
  · intro w x r i hw hx hr
    rw [residueFails_iff_not_dvd_sub hw hx hr]
    constructor <;> intro he
    · rw [he, add_sub_cancel_left]
      exact not_127_dvd_two_pow i
    · rw [he, sub_sub_cancel_left, Int.dvd_neg]
      exact not_127_dvd_two_pow i
  · intro w x r k hw hx hr he
    rw [← Bool.not_eq_true, residueFails_iff_not_dvd_sub hw hx hr, not_not, he, add_sub_cancel_left]
    exact Int.dvd_mul_right 127 k

end Sys2Proof.Claims
end

section
/-! Registers by field: what a field reads after it, or another one, is set, and what such a command keeps. -/

namespace Sys2Proof.Machine

/-! ### Fields of a word -/

/-- A bit of a word with a field set is the value's inside the field and the word's outside it. -/
theorem Fld.getLsbD_set (f : Fld) (w : Word64) (v : Nat) {i : Nat} (hi : i < 64) :
    (f.set w v).getLsbD i = if f.lo ≤ i ∧ i ≤ f.hi then v.testBit (i - f.lo) else w.getLsbD i := by
  simp only [Fld.set, Fld.mask, BitVec.getLsbD_or, BitVec.getLsbD_and, BitVec.getLsbD_not, BitVec.getLsbD_ofNat,
    Nat.testBit_mul_two_pow, Nat.testBit_two_pow_sub_one, Nat.testBit_mod_two_pow, hi]
  by_cases hlo : f.lo ≤ i
  · have hk : i - f.lo < f.hi + 1 - f.lo ↔ i ≤ f.hi := by omega
    by_cases hhi : i ≤ f.hi <;> simp [hlo, hk, hhi]
  · simp [hlo]

/-- A bit of a field's value is the word's, as far as the field reaches. -/
theorem Fld.testBit_get (f : Fld) (w : Word64) (j : Nat) :
    (f.get w).testBit j = (decide (j < f.hi + 1 - f.lo) && w.getLsbD (f.lo + j)) := by
  rw [Fld.get, Nat.testBit_mod_two_pow, Nat.testBit_shiftRight, BitVec.testBit_toNat]

/-- A field reads as it was set. -/
theorem Fld.get_set (f : Fld) (w : Word64) (v : Nat) (hf : f.hi < 64) :
    f.get (f.set w v) = v % 2 ^ (f.hi + 1 - f.lo) := by
  refine Nat.eq_of_testBit_eq fun j => ?_
  rw [Fld.testBit_get, Nat.testBit_mod_two_pow]
  by_cases hj : j < f.hi + 1 - f.lo
  · rw [Fld.getLsbD_set _ _ _ (by omega), if_pos (by omega), Nat.add_sub_cancel_left]
  · simp [hj]

/-- A field reads as before when a field that shares no bit with it is set. -/
theorem Fld.get_set_other {f g : Fld} (w : Word64) (v : Nat) (hf : f.hi < 64) (h : f.hi < g.lo ∨ g.hi < f.lo) :
    f.get (g.set w v) = f.get w := by
  refine Nat.eq_of_testBit_eq fun j => ?_
  rw [Fld.testBit_get, Fld.testBit_get]
  by_cases hj : j < f.hi + 1 - f.lo
  · rw [Fld.getLsbD_set _ _ _ (by omega), if_neg (by omega)]
  · simp [hj]

/-! ### Fields of a register -/

theorem State.fld_lt (s : State) (r : Reg) (f : Fld) : s.fld r f < 2 ^ (f.hi + 1 - f.lo) :=
  Nat.mod_lt _ (Nat.two_pow_pos _)

theorem State.fld_setFld_same (s : State) (r : Reg) (f : Fld) (v : Nat) (hf : f.hi < 64) :
    (s.setFld r f v).fld r f = v % 2 ^ (f.hi + 1 - f.lo) := by
  rw [State.fld, State.rd_setFld, if_pos rfl, Fld.get_set _ _ _ hf]

theorem State.fld_setFld_other (s : State) (r : Reg) {f g : Fld} (v : Nat) (hf : f.hi < 64)
    (h : f.hi < g.lo ∨ g.hi < f.lo) : (s.setFld r g v).fld r f = s.fld r f := by
  rw [State.fld, State.rd_setFld, if_pos rfl, Fld.get_set_other _ _ hf h, State.fld]

/-! ### Commands of the register bus -/

/-- What a register command of a block that is not dark answers. -/
theorem State.commitBus_awake {s : State} (f : State → State) (hdark : s.dark = false) :
    s.commitBus f = .next (s.done f) := by
  rw [State.commitBus_eq, hdark, if_neg Bool.false_ne_true]

end Sys2Proof.Machine

namespace Sys2Proof.Claims
open Sys2Proof.Machine

theorem OnlyRegs.refl (s : State) (rs : List Reg) : OnlyRegs s s rs := ⟨fun _ _ => rfl, rfl⟩

/-- Setting a field of a register of the list keeps the frame. -/
theorem OnlyRegs.setFld {s t : State} {rs : List Reg} (h : OnlyRegs s t rs) {r : Reg} (hr : r ∈ rs) (f : Fld) (v : Nat) :
    OnlyRegs s (t.setFld r f v) rs := by
  obtain ⟨hregs, hrest⟩ := h
  refine ⟨fun q hq => ?_, hrest⟩
  have hne : q ≠ r := fun e => hq (by rw [e]; exact hr)
  rw [State.rd_setFld, if_neg hne, hregs q hq]

/-- What a register command of a block that is not dark answers, when it changes nothing but registers. -/
theorem OnlyRegs.commitBus {s t : State} {rs : List Reg} (h : OnlyRegs s t rs) {f : State → State} (hf : f s = t)
    (hdark : s.dark = false) (hj : s.journal = []) : s.commitBus f = .next t := by
  subst hf
  have hrest := h.2
  rw [State.commitBus_awake _ hdark, State.done_eq hj ((congrArg State.journal hrest).trans hj) (congrArg State.mem hrest :)
    (congrArg State.pending hrest :)]

end Sys2Proof.Claims
end

section
/-! A source's register (R513, R515): a write of SEVERITY and an accepted clear of STATUS set fields of it and nothing else. -/

namespace Sys2Proof.Machine

/-- R515: while STATUS is 0 a write of SEVERITY sets LEVEL as well. -/
theorem State.severity_of_status_clear {s : State} {n : Nat} (v : Nat) (h : s.fld (.WM_SRC n) F.WM_SRC_STATUS = 0) :
    s.severity n v = (s.setFld (.WM_SRC n) F.WM_SRC_SEVERITY v).setFld (.WM_SRC n) F.WM_SRC_LEVEL v := by
  simp [State.severity, State.setSrc, State.src, State.fld_setFld_other, h]

/-- R515: while STATUS is 1 it does not. -/
theorem State.severity_of_status_set {s : State} {n : Nat} (v : Nat) (h : s.fld (.WM_SRC n) F.WM_SRC_STATUS = 1) :
    s.severity n v = s.setFld (.WM_SRC n) F.WM_SRC_SEVERITY v := by
  simp [State.severity, State.setSrc, State.src, State.fld_setFld_other, h]

/-- R513: a clear of STATUS is accepted when the cause has gone. -/
theorem State.statusClear_of_accepted {s : State} {n : Nat} (h : s.causeHolds n = false) :
    s.statusClear n = (s.setFld (.WM_SRC n) F.WM_SRC_STATUS 0).setFld (.WM_SRC n) F.WM_SRC_LEVEL
      (s.fld (.WM_SRC n) F.WM_SRC_SEVERITY) := by
  simp [State.statusClear, State.setSrc, State.src, h]

end Sys2Proof.Machine

namespace Sys2Proof.Claims
open Sys2Proof.Machine

/-- Settles O40: each command sets one or two fields of the source's register, chosen by STATUS (R515) or the cause (R513). -/
theorem severityWritesAndAcceptedClears : Obligations.SeverityWritesAndAcceptedClears := by
  unfold Obligations.SeverityWritesAndAcceptedClears
  intro s n v hdark hj r
  have hv : v.toNat % 4 = v.toNat := Nat.mod_eq_of_lt v.isLt
  have hr : r ∈ [r] := List.mem_singleton_self r
  have frame (f : Fld) (x : Nat) := (OnlyRegs.refl s [r]).setFld hr f x
  refine ⟨fun hst => ?_, fun hst => ?_, fun _ hcause => ?_⟩
  · have both := (frame F.WM_SRC_SEVERITY v.toNat).setFld hr F.WM_SRC_LEVEL v.toNat
    exact ⟨_, both.commitBus (State.severity_of_status_clear v.toNat hst) hdark hj, by simp [State.rd_setFld],
      by simp [State.fld_setFld_same, State.fld_setFld_other, hv], by simp [State.fld_setFld_same, hv],
      by simp [State.fld_setFld_other, hst], both⟩
  · have one := frame F.WM_SRC_SEVERITY v.toNat
    exact ⟨_, one.commitBus (State.severity_of_status_set v.toNat hst) hdark hj, by simp [State.rd_setFld],
      by simp [State.fld_setFld_same, hv], by simp [State.fld_setFld_other], by simp [State.fld_setFld_other, hst], one⟩
  · have both := (frame F.WM_SRC_STATUS 0).setFld hr F.WM_SRC_LEVEL (s.fld r F.WM_SRC_SEVERITY)
    have hsev : s.fld r F.WM_SRC_SEVERITY % 4 = s.fld r F.WM_SRC_SEVERITY := Nat.mod_eq_of_lt (s.fld_lt _ _)
    exact ⟨_, both.commitBus (State.statusClear_of_accepted hcause) hdark hj,
      by simp [State.fld_setFld_same, State.fld_setFld_other], by simp [State.fld_setFld_same, hsev],
      by simp [State.fld_setFld_other], both⟩

end Sys2Proof.Claims
end

section
/-! What leaves every register alone: the home's bookkeeping, stores on their way into memory, and what is sent. -/

namespace Sys2Proof.Machine

/-! ### The shapes in which commands are written -/

theorem State.regs_ite_eq_iff (c : Prop) [Decidable c] (s t : State) (w : List (Reg × Word64)) :
    (if c then s else t).regs = w ↔ (c → s.regs = w) ∧ (¬ c → t.regs = w) := by
  split <;> simp [*]

theorem State.foldl_regs {α : Type} {f : State → α → State} (h : ∀ s x, (f s x).regs = s.regs) (l : List α) (s : State) :
    (l.foldl f s).regs = s.regs := by
  induction l generalizing s with
  | nil => rfl
  | cons x l ih => rw [List.foldl_cons, ih, h]

/-! ### Memory -/

@[simp] theorem State.journalPut_regs (s : State) (cs : List (Nat × Byte)) (b : Bool) : (s.journalPut cs b).regs = s.regs := rfl

@[simp] theorem State.rekeyLines_regs (s : State) (ls : List Nat) : (s.rekeyLines ls).regs = s.regs := by
  unfold State.rekeyLines
  split
  · rfl
  · refine State.foldl_regs (fun _ _ => ?_) _ _
    rfl

@[simp] theorem State.tierWrite_regs (s : State) (cs : List (Nat × Byte)) : (s.tierWrite cs).regs = s.regs := by
  simp [State.tierWrite, State.regs_ite_eq_iff]

@[simp] theorem State.wrCells_regs (s : State) (cs : List (Nat × Byte)) : (s.wrCells cs).regs = s.regs := by
  simp [State.wrCells, State.regs_ite_eq_iff]

@[simp] theorem State.wrBytes_regs (s : State) (a : Nat) (bs : List Byte) : (s.wrBytes a bs).regs = s.regs :=
  s.wrCells_regs _

@[simp] theorem State.storeCells_regs (s : State) (cs : List (Nat × Byte)) : (s.storeCells cs).1.regs = s.regs :=
  s.wrCells_regs _

@[simp] theorem State.countStores_regs (s : State) : s.countStores.regs = s.regs :=
  State.foldl_regs (fun _ _ => State.fullCount_regs ..) _ _

/-! ### Transactions and the directory -/

@[simp] theorem State.updTxn_regs (s : State) (l : Nat) (f : Txn → Txn) : (s.updTxn l f).regs = s.regs := rfl
@[simp] theorem State.stage_regs (s : State) (l : Nat) (g : TxnStage) : (s.stage l g).regs = s.regs := rfl
@[simp] theorem State.dirPut_regs (s : State) (e : DirEntry) : (s.dirPut e).regs = s.regs := rfl
@[simp] theorem State.dirFree_regs (s : State) (l : Nat) : (s.dirFree l).regs = s.regs := rfl
@[simp] theorem State.fetchLine_regs (s : State) (m : CohMsg) (b : Bool) : (s.fetchLine m b).regs = s.regs := rfl

@[simp] theorem State.dirLeave_regs (s : State) (l : Nat) (a : Byte) : (s.dirLeave l a).regs = s.regs := by
  unfold State.dirLeave; split <;> simp [State.regs_ite_eq_iff]

@[simp] theorem State.dirLeaveKeep_regs (s : State) (l : Nat) (a : Byte) : (s.dirLeaveKeep l a).regs = s.regs := by
  unfold State.dirLeaveKeep; split <;> rfl

@[simp] theorem State.dirInvalidated_regs (s : State) (l : Nat) : (s.dirInvalidated l).regs = s.regs := by
  unfold State.dirInvalidated; split <;> simp [State.regs_ite_eq_iff]

@[simp] theorem State.dirReserved_regs (s : State) (l : Nat) : (s.dirReserved l).regs = s.regs := by
  unfold State.dirReserved; split <;> simp [State.regs_ite_eq_iff]

@[simp] theorem State.grantShared_regs (s : State) (l : Nat) (a : Byte) : (s.grantShared l a).regs = s.regs := by
  unfold State.grantShared; split <;> rfl

@[simp] theorem State.grantOwned_regs (s : State) (l : Nat) (a : Byte) : (s.grantOwned l a).regs = s.regs := by
  unfold State.grantOwned; split <;> rfl

@[simp] theorem State.closeTxn_regs (s : State) (l : Nat) : (s.closeTxn l).2.regs = s.regs := by
  unfold State.closeTxn
  split
  · split <;> rfl
  · rfl

/-! ### The reservoir -/

@[simp] theorem State.resvTouch_regs (s : State) (l : RLine) : (s.resvTouch l).regs = s.regs := rfl

@[simp] theorem State.resvDrop_regs (s : State) (l : RLine) (b : Bool) : (s.resvDrop l b).regs = s.regs := by
  simp [State.resvDrop, State.regs_ite_eq_iff]

@[simp] theorem State.resvPut_regs (s : State) (l : Nat) (bs : List Byte) (d : Bool) : (s.resvPut l bs d).regs = s.regs := by
  unfold State.resvPut
  dsimp only
  split
  · rfl
  · split <;> simp [State.regs_ite_eq_iff]

@[simp] theorem State.memPut_regs (s : State) (l : Nat) (bs : List Byte) (b : Bool) : (s.memPut l bs b).regs = s.regs := by
  simp [State.memPut, State.regs_ite_eq_iff]

/-! ### Messages -/

@[simp] theorem State.homeCmp_regs (s : State) (m : CohMsg) (bs : List Byte) : (s.homeCmp m bs).regs = s.regs :=
  s.emit_regs _

@[simp] theorem State.homeData_regs (s : State) (m : CohMsg) (bs : List Byte) (g : Nat) : (s.homeData m bs g).regs = s.regs :=
  s.emit_regs _

@[simp] theorem State.lostAccess_regs (s : State) (l : Nat) (c : Byte) : (s.lostAccess l c).regs = s.regs := rfl

@[simp] theorem State.snoop_regs (s : State) (l o : Nat) (d : Byte) (m : Option CohMsg) : (s.snoop l o d m).regs = s.regs :=
  s.emit_regs _

@[simp] theorem State.openTxn_regs (s : State) (l : Nat) (q : Option CohMsg) (v : Bool) (o : Nat) (ds : List Byte) :
    (s.openTxn l q v o ds).regs = s.regs :=
  State.foldl_regs (fun _ _ => State.snoop_regs ..) _ _

@[simp] theorem State.performLine_regs (s : State) (x : Txn) (m : CohMsg) (new cmp : List Byte) :
    (s.performLine x m new cmp).regs = s.regs := by
  simp [State.performLine, State.regs_ite_eq_iff]

@[simp] theorem State.finishWith_regs (s : State) (x : Txn) (m : CohMsg) (bs : List Byte) :
    (s.finishWith x m bs).regs = s.regs := by
  unfold State.finishWith
  dsimp only
  split <;> simp [State.regs_ite_eq_iff]

@[simp] theorem State.absorb_regs (s : State) (m : CohMsg) : (s.absorb m).regs = s.regs := by
  unfold State.absorb
  dsimp only
  split <;> simp [State.regs_ite_eq_iff]

@[simp] theorem State.toEngine_regs (s : State) (e : EngineId) (x : EngineSignal) : (s.toEngine e x).regs = s.regs :=
  s.emit_regs _

@[simp] theorem State.wake_regs (s : State) : s.wake.regs = s.regs := by
  simp [State.wake, State.regs_ite_eq_iff]

@[simp] theorem State.trigEvent_regs (s : State) (k n : Nat) : (s.trigEvent k n).regs = s.regs := by
  simp [State.trigEvent, State.regs_ite_eq_iff]

@[simp] theorem State.updRider_regs (s : State) (k : RiderId) (f : Rider → Rider) : (s.updRider k f).regs = s.regs := rfl

@[simp] theorem State.updFunc_regs (s : State) (f : FunctionId) (g : Func → Func) : (s.updFunc f g).regs = s.regs := by
  cases f <;> rfl

end Sys2Proof.Machine
end

section
/-! What leaves the registers of the watermaster's sources alone: every effect of the safe state (R520), with the reclaim of
a dead agent's lines that stopping a rider core starts. -/

namespace Sys2Proof.Machine

/-- The stored words of the watermaster's source registers, by source. -/
def sourceWords (rs : List (Reg × Word64)) (n : Nat) : Word64 :=
  (Assoc.get? rs (.WM_SRC n)).getD (Reg.WM_SRC n).resetVal

theorem State.rd_WM_SRC (s : State) (n : Nat) : s.rd (.WM_SRC n) = sourceWords s.regs n := rfl

theorem State.fld_WM_SRC_congr {s t : State} (h : sourceWords t.regs = sourceWords s.regs) (n : Nat) (f : Fld) :
    t.fld (.WM_SRC n) f = s.fld (.WM_SRC n) f := by
  rw [State.fld, State.rd_WM_SRC, h, ← State.rd_WM_SRC, State.fld]

/-! ### The shapes in which commands are written -/

theorem sourceWords_ite_eq_iff (c : Prop) [Decidable c] (s t : State) (w : Nat → Word64) :
    sourceWords (if c then s else t).regs = w ↔ (c → sourceWords s.regs = w) ∧ (¬ c → sourceWords t.regs = w) := by
  split <;> simp [*]

theorem sourceWords_foldl {α : Type} {f : State → α → State} (h : ∀ s x, sourceWords (f s x).regs = sourceWords s.regs)
    (l : List α) (s : State) : sourceWords (l.foldl f s).regs = sourceWords s.regs := by
  induction l generalizing s with
  | nil => rfl
  | cons x l ih => rw [List.foldl_cons, ih, h]

@[simp] theorem sourceWords_wr (s : State) {r : Reg} (v : Word64) (h : ∀ n, .WM_SRC n ≠ r) :
    sourceWords (s.wr r v).regs = sourceWords s.regs :=
  funext fun n => s.rd_wr_other v (h n)

@[simp] theorem sourceWords_setFld (s : State) {r : Reg} (f : Fld) (v : Nat) (h : ∀ n, .WM_SRC n ≠ r) :
    sourceWords (s.setFld r f v).regs = sourceWords s.regs :=
  sourceWords_wr s _ h

@[simp] theorem sourceWords_countUp (s : State) {r : Reg} (f : Fld) (h : ∀ n, .WM_SRC n ≠ r) :
    sourceWords (s.countUp r f).regs = sourceWords s.regs :=
  sourceWords_wr s _ h

@[simp] theorem sourceWords_setBit (s : State) {r : Reg} (i : Nat) (b : Bool) (h : ∀ n, .WM_SRC n ≠ r) :
    sourceWords (s.setBit r i b).regs = sourceWords s.regs :=
  sourceWords_wr s _ h

/-! ### Vectors and viral signals -/

@[simp] theorem sourceWords_notify (s : State) (v : Nat) : sourceWords (s.notify v).regs = sourceWords s.regs := by
  simp [State.notify, State.msixAfter, State.msixNow, State.sendMsix, sourceWords_ite_eq_iff]

@[simp] theorem sourceWords_portViral (s : State) (p : HostPortId) :
    sourceWords (s.portViral p).regs = sourceWords s.regs := by
  simp [State.portViral, sourceWords_ite_eq_iff]

@[simp] theorem sourceWords_engineViral (s : State) (e : EngineId) :
    sourceWords (s.engineViral e).regs = sourceWords s.regs := by
  simp [State.engineViral]

/-! ### The home slices -/

@[simp] theorem sourceWords_hostRefuse (s : State) (p : HostPortId) (c l : Nat) :
    sourceWords (s.hostRefuse p c l).regs = sourceWords s.regs := by
  simp [State.hostRefuse, sourceWords_ite_eq_iff]

@[simp] theorem sourceWords_homeRefuse (s : State) (m : CohMsg) (c : Nat) :
    sourceWords (s.homeRefuse m c).regs = sourceWords s.regs := by
  unfold State.homeRefuse
  dsimp only
  split
  · split <;> simp
  · simp

@[simp] theorem sourceWords_llPost (s : State) (l a : Nat) : sourceWords (s.llPost l a).regs = sourceWords s.regs := by
  simp [State.llPost, sourceWords_ite_eq_iff]

@[simp] theorem sourceWords_makeLost (s : State) (l a : Nat) : sourceWords (s.makeLost l a).regs = sourceWords s.regs := by
  unfold State.makeLost
  split
  · simp
  · split <;> simp

@[simp] theorem sourceWords_homeLost (s : State) (m : CohMsg) : sourceWords (s.homeLost m).regs = sourceWords s.regs := by
  simp [State.homeLost, sourceWords_ite_eq_iff]

@[simp] theorem sourceWords_scratchUE (s : State) (l : Nat) (c : Byte) :
    sourceWords (s.scratchUE l c).regs = sourceWords s.regs := by
  simp [State.scratchUE, sourceWords_ite_eq_iff]

@[simp] theorem sourceWords_scratchCe (s : State) (a n : Nat) :
    sourceWords (s.scratchCe a n).regs = sourceWords s.regs :=
  sourceWords_foldl (fun s _ => sourceWords_countUp s _ (by simp)) _ _

@[simp] theorem sourceWords_dirtyParity (s : State) (x : Txn) (m : CohMsg) (l : RLine) :
    sourceWords (s.dirtyParity x m l).regs = sourceWords s.regs := by
  simp [State.dirtyParity, sourceWords_ite_eq_iff]

@[simp] theorem sourceWords_readStage (s : State) (x : Txn) (m : CohMsg) :
    sourceWords (s.readStage x m).regs = sourceWords s.regs := by
  unfold State.readStage
  dsimp only
  split
  · simp [sourceWords_ite_eq_iff]
  · split <;> simp [sourceWords_ite_eq_iff]

@[simp] theorem sourceWords_writeStage (s : State) (x : Txn) (m : CohMsg) :
    sourceWords (s.writeStage x m).regs = sourceWords s.regs := by
  simp [State.writeStage, sourceWords_ite_eq_iff]

@[simp] theorem sourceWords_proceed (s : State) (l : Nat) : sourceWords (s.proceed l).regs = sourceWords s.regs := by
  unfold State.proceed
  split
  · rfl
  · dsimp only
    split
    · rfl
    · split
      · split <;> simp
      · split <;> simp
      · split
        · simp
        · split
          · split <;> simp
          · split <;> simp [sourceWords_ite_eq_iff]

@[simp] theorem sourceWords_homeEvict (s : State) (m : CohMsg) : sourceWords (s.homeEvict m).regs = sourceWords s.regs := by
  unfold State.homeEvict
  dsimp only
  split <;> simp [sourceWords_ite_eq_iff]

@[simp] theorem sourceWords_homeStart (s : State) (m : CohMsg) : sourceWords (s.homeStart m).regs = sourceWords s.regs := by
  unfold State.homeStart
  extract_lets line r m' finish
  have hfinish (s : State) : sourceWords (finish s).regs = sourceWords s.regs := by simp [finish]
  clear_value m' finish
  split
  · simp
  · split
    · simp
    · split
      · split
        · simp
        · split <;> simp [sourceWords_ite_eq_iff, hfinish]
      · split
        case h_1 | h_2 => simp
        case h_3 | h_4 | h_5 => split <;> simp [sourceWords_ite_eq_iff, hfinish]
        case h_6 => simp [hfinish]

@[simp] theorem sourceWords_homeDispatch (s : State) (m : CohMsg) :
    sourceWords (s.homeDispatch m).regs = sourceWords s.regs := by
  unfold State.homeDispatch
  split <;> simp [sourceWords_ite_eq_iff]

@[simp] theorem sourceWords_settle (s : State) (l : Nat) : sourceWords (s.settle l).regs = sourceWords s.regs := by
  simp [State.settle, sourceWords_foldl]

/-! ### Agents and rider cores -/

@[simp] theorem sourceWords_deathTxn (s : State) (a : Byte) (l : Nat) :
    sourceWords (s.deathTxn a l).regs = sourceWords s.regs := by
  unfold State.deathTxn
  split
  · rfl
  · dsimp only
    split
    · rfl
    · split
      · rfl
      · split
        · split <;> simp
        · simp

@[simp] theorem sourceWords_agentDies (s : State) (a : Nat) : sourceWords (s.agentDies a).regs = sourceWords s.regs := by
  simp [State.agentDies, sourceWords_ite_eq_iff, sourceWords_foldl]

@[simp] theorem sourceWords_riderStop (s : State) (k : RiderId) : sourceWords (s.riderStop k).regs = sourceWords s.regs := by
  simp [State.riderStop, sourceWords_ite_eq_iff]

/-! ### Tiles and channels -/

@[simp] theorem sourceWords_leaveFaults (s : State) (p : Walker → Bool) :
    sourceWords (s.leaveFaults p).regs = sourceWords s.regs := by
  simp [State.leaveFaults, State.setFaults, sourceWords_ite_eq_iff]

@[simp] theorem sourceWords_chanStop (s : State) (t : TileId) (c : ChanId) (a st : Nat) (x : Byte) (q : Bool) :
    sourceWords (s.chanStop t c a st x q).regs = sourceWords s.regs := by
  unfold State.chanStop
  split
  · rfl
  · simp [sourceWords_ite_eq_iff]

@[simp] theorem sourceWords_chanAbort (s : State) (t : TileId) (c : ChanId) :
    sourceWords (s.chanAbort t c).regs = sourceWords s.regs := by
  simp [State.chanAbort, sourceWords_ite_eq_iff]

@[simp] theorem sourceWords_tileSafe (s : State) (t : TileId) : sourceWords (s.tileSafe t).regs = sourceWords s.regs := by
  simp [State.tileSafe, State.setWait, State.setSeqState, sourceWords_foldl]

@[simp] theorem sourceWords_rotIdle (s : State) : sourceWords s.rotIdle.regs = sourceWords s.regs := by
  simp [State.rotIdle, sourceWords_foldl]

/-! ### The safe state -/

@[simp] theorem sourceWords_safeState (s : State) (n : Nat) : sourceWords (s.safeState n).regs = sourceWords s.regs := by
  simp [State.safeState, State.esSet, sourceWords_ite_eq_iff, sourceWords_foldl]

/-- R519: an event without a context is at most block-fatal, so its reaction halts no context. -/
theorem sourceWords_react_nil (s : State) (n l : Nat) : sourceWords (s.react n l []).regs = sourceWords s.regs := by
  unfold State.react
  split <;> simp [State.wmNotify]

end Sys2Proof.Machine
end

section
/-! WM_RAISE (R517): the write does what SOURCE_EVENT does with an event of the source, and a taken event sets STATUS. -/

namespace Sys2Proof.Machine

/-- Commands that compute the same from an empty journal leave the block in the same state. -/
theorem State.done_congr {s t : State} {f g : State → State} (hm : s.mem = t.mem) (hp : s.pending = t.pending)
    (h : f { s with journal := [] } = g { t with journal := [] }) : s.done f = t.done g := by
  unfold State.done
  dsimp only
  rw [h, hm, hp]

theorem State.done_fld (s : State) (f : State → State) (r : Reg) (x : Fld) :
    (s.done f).fld r x = (f { s with journal := [] }).fld r x := by
  simp [State.fld, State.rd, State.done]

theorem mayRaise_eq_true_iff (q : Requester) :
    mayRaise q = true ↔ q = .pf0 ∨ q = .management ∨ q = .rider 0 ∨ q = .rider 1 := by
  cases q with
  | pf0 => simp [mayRaise]
  | management => simp [mayRaise]
  | vf k => simp [mayRaise]
  | sequencer t => simp [mayRaise]
  | rider c => revert c; decide

theorem State.wmRaise_of_may {q : Requester} {v : Nat} (s : State) (hq : mayRaise q = true) (hlo : 156 ≤ v) (hhi : v ≤ 191) :
    s.wmRaise q v = s.takeEvent v [] none := by
  simp [State.wmRaise, hq, hlo, hhi]

theorem State.wmRaise_of_not {q : Requester} {v : Nat} (s : State) (h : ¬ (156 ≤ v ∧ v ≤ 191 ∧ mayRaise q = true)) :
    s.wmRaise q v = s := by
  refine if_neg fun hc => ?_
  simp only [Bool.and_eq_true, decide_eq_true_eq] at hc
  obtain ⟨⟨hq, hlo⟩, hhi⟩ := hc
  exact h ⟨hlo, hhi, hq⟩

/-- R511: an event of an enabled source that carries no context leaves STATUS at 1, whatever its reaction. -/
theorem State.takeEvent_status {s : State} {n : Nat} (h : s.fld (.WM_SRC n) F.WM_SRC_ENABLE = 1) :
    (s.takeEvent n [] none).fld (.WM_SRC n) F.WM_SRC_STATUS = 1 := by
  unfold State.takeEvent
  extract_lets mapped first level top marked woken
  have hen : mapped.src n F.WM_SRC_ENABLE = 1 := h
  have hmarked : marked.fld (.WM_SRC n) F.WM_SRC_STATUS = 1 := by
    simp [marked, State.setSrc, State.fld_setFld_same, State.fld_setFld_other]
  rw [if_neg (by simp [hen])]
  split
  · exact hmarked
  · have hwoken : woken.regs = marked.regs := by simp [woken, State.regs_ite_eq_iff]
    have hkept : sourceWords ((woken.trigEvent 1 n).react n level []).regs = sourceWords marked.regs := by
      rw [sourceWords_react_nil, State.trigEvent_regs, hwoken]
    rw [State.fld_WM_SRC_congr hkept, hmarked]

end Sys2Proof.Machine

namespace Sys2Proof.Claims
open Sys2Proof.Machine

/-- R510: SOURCE_EVENT takes the one event that is on its way, and leaves none. -/
theorem exec_sourceEvent_of_waiting {s : State} (n : Fin 192) (hdark : s.dark = false) (hw : s.wmEvents = []) :
    Sys2Proof.Machine.exec (.sourceEvent n [] ⟨none, []⟩) { s with wmEvents := [⟨n.val, [], none⟩] } =
      .next (s.done (fun s => s.takeEvent n.val [] none)) := by
  refine (State.commitBus_awake (s := { s with wmEvents := [⟨n.val, [], none⟩] }) _ hdark).trans ?_
  refine congrArg Host.Outcome.next (State.done_congr rfl rfl ?_)
  simp [State.mergeEvents, hw]

/-- Settles O41: a permitted write takes an event without contexts, as SOURCE_EVENT does; any other is ignored (R517). -/
theorem raiseIsAnEvent : Obligations.RaiseIsAnEvent := by
  unfold Obligations.RaiseIsAnEvent
  intro s q v hdark hj hw may
  refine ⟨fun n hn hlo hmay => ?_, fun hnot => ?_⟩
  · have hraise (s : State) : s.wmRaise q v.toNat = s.takeEvent n.val [] none := by
      rw [hn, State.wmRaise_of_may s ((mayRaise_eq_true_iff q).2 hmay) hlo (by omega)]
    have hexec : Sys2Proof.Machine.exec (.wmRaise q v) s = .next (s.done (fun s => s.takeEvent n.val [] none)) :=
      (State.commitBus_awake _ hdark).trans (congrArg Host.Outcome.next (State.done_congr rfl rfl (hraise _)))
    refine ⟨?_, _, hexec, fun hen => ?_⟩
    · rw [hexec, ← hn, exec_sourceEvent_of_waiting n hdark hw]
    · rw [State.done_fld]
      exact State.takeEvent_status hen
  · have hkeep := State.wmRaise_of_not s (q := q) (v := v.toNat) (by rwa [mayRaise_eq_true_iff])
    exact ⟨_, ((OnlyRegs.refl s []).commitBus hkeep hdark hj), rfl⟩

end Sys2Proof.Claims
end
